-- ==== Sys2Proof/Word.lean ====
section
/-! DEFINITION. The word types of the fabric (R3, R4): register words, granule data, bytes, and the sparse table
used for every numbered array of like things. -/
namespace Sys2Proof

/-- A register word (R15). -/
abbrev Word := BitVec 64
/-- The 256 data bits of a granule (R5). -/
abbrev Gran := BitVec 256
/-- A byte of a record, window or hash (R4). -/
abbrev Byte := BitVec 8
/-- A byte string; byte 0 is its first element (R4, R589). -/
abbrev Bytes := List (BitVec 8)
/-- A numbered array held sparsely: keys strictly rise, and an entry equal to the array's default is not listed. -/
abbrev Tab (α : Type) := List (Nat × α)

end Sys2Proof
end

