-- ==== Sys2Proof/Config.lean ====
section
/-! DEFINITION. What the spec leaves to the hardware or does not state: opaque constants, so that no proof can lean on a
value of them. -/
namespace Sys2Proof.Config

/-- The sites at which the spec leaves a value open; each names its own stream of free values. -/
inductive Site where
  /-- a 256-bit debug challenge (R484) -/
  | challenge
  /-- a 64-bit link-key nonce (R475) -/
  | nonce
  /-- a new random STREAM_ID (R538) -/
  | streamId
  /-- a one-time ARM_CODE (R465) -/
  | armCode
  /-- an Ed25519 signature made by this unit is a value of `ed25519Sign`, not of this site; a measured analogue
  value that no command carries (temperature or voltage behind an event, R413) -/
  | sensor
  /-- an unordered choice the spec leaves open, such as which of several idle units is taken -/
  | choice
  deriving DecidableEq, Repr

/-- DESIGN CHOICE (assumption 3). The free values: the n-th value drawn at a site. Nothing in Lean can evaluate it. -/
opaque free : Site → Nat → Nat

/-- DESIGN CHOICE (assumption 4). Ed25519 verification (public key, message, signature): the spec names the algorithm only. -/
opaque ed25519Verify : Bytes → Bytes → Bytes → Bool

/-- DESIGN CHOICE (assumption 4). Ed25519 signing (seed, message): 64 bytes, left opaque. -/
opaque ed25519Sign : Bytes → Bytes → Bytes

/-- DESIGN CHOICE (assumption 4). The public key of an Ed25519 seed. -/
opaque ed25519Public : Bytes → Bytes

/-- DESIGN CHOICE (assumption 4). The owner's public key, which a unit knows by its fused SHA-256 only (R472): the spec does not say where
the unit reads it. -/
opaque ownerKey : Bytes → Bytes

/-- DESIGN CHOICE (assumption 63). The forecast limit of a quantity (R442) that the unit evaluating it holds nowhere: a leaf's end-of-life
bias and warning margin, the nominal supply of a sensor. By serial and quantity code. -/
opaque limitOf : Nat → Nat → Int

/-- DESIGN CHOICE (assumption 4). The seal a leaf puts on a context block while the latch of R482 blocks its device key: the spec states none. -/
opaque sealLatched : Bytes → Nat

/-- DESIGN CHOICE (assumption 13). The mill's `SLEW_RATE_PPM` (R61), which no message carries to the units below: they slew at
1 + this mod 10 ppm. -/
opaque millSlewPpm : Nat

/-- DESIGN CHOICE (assumption 14). The data bits of an `ECHO` frame (R127, R145), which the spec does not state. -/
opaque echoData : Nat

/-- The vendor's and the factory's public keys in the unit's ROM (R472). -/
opaque vendorKey : Bytes
/-- The factory block's signing key (R459, R472). -/
opaque factoryKey : Bytes

/-- DESIGN CHOICE (assumption 5). The packets for which the spec fixes the contents but no `PKT_TYPE`. -/
inductive Pkt where
  /-- a member's leave (R259) -/
  | leave
  /-- the apex tells the leaf that a sheaf is CLOSED (R248) -/
  | sheafClosed
  /-- route update and its acknowledgement (R44) -/
  | routeUpdate
  | routeAck
  /-- the run fingerprint to the barns (R386) -/
  | runFingerprint
  /-- a leaf's test report (R420) -/
  | testReport
  /-- a CLOSE, FORCE_ARRIVE or FORCE_RELEASE on its way to the apex (R531) -/
  | forward
  /-- the result granules of a generation (R244) -/
  | result
  /-- a leaf serial entered in, or removed from, the directories above (R32) -/
  | directory
  /-- what a mill, or an apex that moves, hands to the channel that is the apex next (R41, R226) -/
  | apexPass
  /-- the answer of a barn to an arrival of no member (R39) -/
  | notMember
  /-- a path sweep ordered of the channels on a sheaf's routes (R402) -/
  | sweepOrder
  /-- a silo-scope or rank-scope replay, passed to the barns that hold the records (R353) -/
  | replayOrder
  deriving DecidableEq, Repr

/-- DESIGN CHOICE (assumption 5). The `PKT_TYPE` of such a packet: no value is stated, so none can be relied on. -/
opaque pktType : Pkt → Nat

end Sys2Proof.Config
end

