-- ==== Sys2Proof/Machine/Bits.lean ====
section
/-! DEFINITION. Bit fields, sign, rounding, saturation and byte order (R3 to R5, R69, R70, R589): the helpers every
layout and every arithmetic rule uses. -/
namespace Sys2Proof.Machine

/-- Bits [hi:lo] of a value (R3). -/
def bitsOf (v hi lo : Nat) : Nat := (v >>> lo) % 2 ^ (hi + 1 - lo)
/-- Bits [hi:lo] of granule data. -/
def gf (g : Gran) (hi lo : Nat) : Nat := bitsOf g.toNat hi lo
/-- One bit of granule data. -/
def gbit (g : Gran) (b : Nat) : Bool := g.toNat.testBit b
/-- A `w`-bit pattern read as two's complement. -/
def toSigned (w v : Nat) : Int := if v % 2 ^ w < 2 ^ (w - 1) then (v % 2 ^ w : Nat) else (v % 2 ^ w : Nat) - (2 ^ w : Nat)
/-- The `w`-bit two's complement pattern of an integer. -/
def ofSigned (w : Nat) (i : Int) : Nat := (i % (2 ^ w : Nat)).toNat
/-- A signed field of granule data. -/
def gsf (g : Gran) (hi lo : Nat) : Int := toSigned (hi + 1 - lo) (gf g hi lo)
/-- A field to lay into a structure: its lowest bit, its width, its value. -/
structure Fld where
  lo : Nat
  w  : Nat
  v  : Nat
  deriving DecidableEq, Repr
/-- Lay fields together; every bit no field names is zero (R7). -/
def layNat : List Fld → Nat
  | [] => 0
  | f :: fs => ((f.v % 2 ^ f.w) <<< f.lo) ||| layNat fs
/-- Lay fields into a granule's data bits. -/
def lay (fs : List Fld) : Gran := BitVec.ofNat 256 (layNat fs)
/-- Lay fields into a register word. -/
def layW (fs : List Fld) : Word := BitVec.ofNat 64 (layNat fs)
/-- A Boolean as a bit. -/
def b2n (b : Bool) : Nat := if b then 1 else 0
/-- Bits [hi:lo] of a register word. -/
def wf (w : Word) (hi lo : Nat) : Nat := bitsOf w.toNat hi lo
/-- One bit of a register word. -/
def wbit (w : Word) (b : Nat) : Bool := w.toNat.testBit b

/-- Division rounding to nearest, ties to even (R88). -/
def roundHalfEven (a : Int) (b : Nat) : Int :=
  let q := Int.fdiv a b
  let r2 := 2 * (a - q * b)
  if r2 < b then q else if (b : Int) < r2 then q + 1 else if q % 2 = 0 then q else q + 1
/-- Clamp to [-m, m]. -/
def clampI (m x : Int) : Int := if x < -m then -m else if m < x then m else x
/-- Clamp a natural at `m`. -/
def satN (m x : Nat) : Nat := if m < x then m else x
/-- Clamp a signed value to `w` bits less its most negative value, as "saturating at ±(2^(w-1) − 1)". -/
def satS (w : Nat) (x : Int) : Int := clampI ((2 ^ (w - 1) : Nat) - 1) x

/-- The greater of two 16-bit serial numbers (R69): `a` is higher than `b`. -/
def serHigher (a b : BitVec 16) : Bool := decide (1 ≤ (a - b).toNat) && decide ((a - b).toNat ≤ 32767)
/-- By how much `a` is lower than `b` (R69); 0 when equal. -/
def serBelow (a b : BitVec 16) : Nat := (b - a).toNat

/-- Little-endian bytes of a value (R4). -/
def leBytes : Nat → Nat → Bytes
  | 0, _ => []
  | n + 1, v => BitVec.ofNat 8 v :: leBytes n (v / 256)
/-- The little-endian value of a byte string (R589). -/
def leNat : Bytes → Nat
  | [] => 0
  | b :: bs => b.toNat + 256 * leNat bs
/-- The big-endian value of a byte string. -/
def beNat (bs : Bytes) : Nat := bs.foldl (fun a b => a * 256 + b.toNat) 0
/-- Big-endian bytes of a value. -/
def beBytes (n v : Nat) : Bytes := (leBytes n v).reverse
/-- The 32 data bytes of a granule (R4). -/
def granBytes (g : Gran) : Bytes := leBytes 32 g.toNat
/-- Granule data from (up to) 32 bytes. -/
def granOf (bs : Bytes) : Gran := BitVec.ofNat 256 (leNat (bs.take 32))
/-- Cut a list in pieces of `n`, the last one short; `fuel` bounds the number of pieces. -/
def chunks {α : Type} (n : Nat) : Nat → List α → List (List α)
  | 0, _ => []
  | _, [] => []
  | fuel + 1, a :: l => (a :: l).take n :: chunks n fuel ((a :: l).drop n)
/-- Pack bytes into granules, the last one padded with zeros. -/
def granules (bs : Bytes) : List Gran := (chunks 32 bs.length bs).map granOf
/-- Byte length rounded up to granules. -/
def granCount (n : Nat) : Nat := (n + 31) / 32
/-- Even parity of a value's low `n` bits. -/
def parity : Nat → Nat → Bool
  | 0, _ => false
  | n + 1, v => xor (v.testBit 0) (parity n (v / 2))
/-- The number of ones among a value's low `n` bits. -/
def popcount : Nat → Nat → Nat
  | 0, _ => 0
  | n + 1, v => v % 2 + popcount n (v / 2)
/-- The positions of the ones among a value's low `n` bits, lowest first. -/
def onesOf (n v : Nat) : List Nat := (List.range n).filter (fun b => v.testBit b)

/-- An event counter (R69, R70): 32 bits that stick, with `OVF` set by the first event not counted. -/
structure Ctr where
  count : Nat := 0
  ovf   : Bool := false
  deriving DecidableEq, Repr
/-- Count one event (R69). -/
def ctrInc (c : Ctr) : Ctr := if c.count < 0xFFFFFFFF then { c with count := c.count + 1 } else { c with ovf := true }
/-- Count `n` at once (a counter of sums, R87): what does not fit sets `OVF`. -/
def ctrAdd (c : Ctr) (n : Nat) : Ctr :=
  if c.count + n ≤ 0xFFFFFFFF then { c with count := c.count + n }
  else { count := 0xFFFFFFFF, ovf := true }
/-- The register word of a counter (R70). -/
def ctrWord (c : Ctr) : Word := layW [⟨0, 32, c.count⟩, ⟨32, 1, b2n c.ovf⟩]

/-- The median of a list of (value, weight), values sorted: the first whose cumulated weight reaches half (R178). -/
def medianAcc (half : Nat) : Nat → List (Int × Nat) → Int → Int
  | _, [], last => last
  | acc, (x, w) :: t, _ => if half ≤ 2 * (acc + w) then x else medianAcc half (acc + w) t x
/-- Insert by value. -/
def insByVal (p : Int × Nat) : List (Int × Nat) → List (Int × Nat)
  | [] => [p]
  | q :: t => if p.1 ≤ q.1 then p :: q :: t else q :: insByVal p t
/-- The weighted median (R178): the lowest value at which the cumulated weight is at least half the total. -/
def weightedMedian (l : List (Int × Nat)) : Int :=
  medianAcc ((l.map Prod.snd).sum) 0 (l.foldr insByVal []) 0
/-- The integer square root, floor. -/
def isqrt (n : Nat) : Nat := Nat.sqrt n

end Sys2Proof.Machine
end

