-- ==== Sys2Proof/Machine/Crypto.lean ====
section
/-! DEFINITION. The published algorithms the spec names and does not restate: SHA-256, HMAC, HKDF, AES-256, GMAC, GCM, AES key
wrap with padding, CRC-32. Every hash output is a byte string (R589). Ed25519 verification is a parameter of Config. -/
namespace Sys2Proof.Machine

/-! ### SHA-256 -/
/-- Rotate a 32-bit value right. -/
def rotr32 (n x : Nat) : Nat := ((x >>> n) ||| (x <<< (32 - n))) % 0x100000000
/-- Add modulo 2^32. -/
def add32 (a b : Nat) : Nat := (a + b) % 0x100000000
/-- The SHA-256 round constants as one number, the first constant in the highest 32 bits. -/
def shaKAll : Nat :=
  0x428A2F9871374491B5C0FBCFE9B5DBA53956C25B59F111F1923F82A4AB1C5ED5D807AA9812835B01243185BE550C7DC372BE5D7480DEB1FE9BDC06A7C19BF174E49B69C1EFBE47860FC19DC6240CA1CC2DE92C6F4A7484AA5CB0A9DC76F988DA983E5152A831C66DB00327C8BF597FC7C6E00BF3D5A7914706CA63511429296727B70A852E1B21384D2C6DFC53380D13650A7354766A0ABB81C2C92E92722C85A2BFE8A1A81A664BC24B8B70C76C51A3D192E819D6990624F40E3585106AA07019A4C1161E376C082748774C34B0BCB5391C0CB34ED8AA4A5B9CCA4F682E6FF3748F82EE78A5636F84C878148CC7020890BEFFFAA4506CEBBEF9A3F7C67178F2
/-- The `n` 32-bit words of a number, highest first. -/
def shaWords (n v : Nat) : List Nat := (beBytes (4 * n) v |> chunks 4 n).map beNat
/-- The SHA-256 round constants. -/
def shaK : List Nat := shaWords 64 shaKAll
/-- The eight working words. -/
structure Sha8 where
  a : Nat
  b : Nat
  c : Nat
  d : Nat
  e : Nat
  f : Nat
  g : Nat
  h : Nat
  deriving DecidableEq, Repr
/-- The initial hash value. -/
def shaInit : Sha8 :=
  let w := fun i => bitsOf 0x6A09E667BB67AE853C6EF372A54FF53A510E527F9B05688C1F83D9AB5BE0CD19 (255 - 32 * i) (224 - 32 * i)
  ⟨w 0, w 1, w 2, w 3, w 4, w 5, w 6, w 7⟩
/-- The next word of the message schedule from the last sixteen. -/
def shaNextW (w : List Nat) : Nat :=
  let x := w.getD 1 0
  let y := w.getD 14 0
  let s0 := Nat.xor (Nat.xor (rotr32 7 x) (rotr32 18 x)) (x >>> 3)
  let s1 := Nat.xor (Nat.xor (rotr32 17 y) (rotr32 19 y)) (y >>> 10)
  add32 (add32 (w.getD 0 0) s0) (add32 (w.getD 9 0) s1)
/-- One round with constant `k` and word `w`. -/
def shaRound (s : Sha8) (k w : Nat) : Sha8 :=
  let s1 := Nat.xor (Nat.xor (rotr32 6 s.e) (rotr32 11 s.e)) (rotr32 25 s.e)
  let ch := Nat.xor (Nat.land s.e s.f) (Nat.land (Nat.xor s.e 0xFFFFFFFF) s.g)
  let t1 := add32 (add32 s.h s1) (add32 (add32 ch k) w)
  let s0 := Nat.xor (Nat.xor (rotr32 2 s.a) (rotr32 13 s.a)) (rotr32 22 s.a)
  let mj := Nat.xor (Nat.xor (Nat.land s.a s.b) (Nat.land s.a s.c)) (Nat.land s.b s.c)
  ⟨add32 t1 (add32 s0 mj), s.a, s.b, s.c, add32 s.d t1, s.e, s.f, s.g⟩
/-- All rounds over the constants left, sliding the window of sixteen words. -/
def shaRounds : List Nat → List Nat → Sha8 → Sha8
  | [], _, s => s
  | k :: ks, w, s => shaRounds ks (w.drop 1 ++ [shaNextW w]) (shaRound s k (w.getD 0 0))
/-- Absorb one 64-byte block. -/
def shaBlock (h : Sha8) (blk : Bytes) : Sha8 :=
  let r := shaRounds shaK ((chunks 4 16 blk).map beNat) h
  ⟨add32 h.a r.a, add32 h.b r.b, add32 h.c r.c, add32 h.d r.d, add32 h.e r.e, add32 h.f r.f, add32 h.g r.g, add32 h.h r.h⟩
/-- The padding of a message of `n` bytes. -/
def shaPad (n : Nat) : Bytes :=
  0x80#8 :: (List.replicate ((119 - n % 64) % 64) 0#8 ++ beBytes 8 (8 * n))
/-- SHA-256 of a byte string: 32 bytes. -/
def sha256 (m : Bytes) : Bytes :=
  let p := m ++ shaPad m.length
  let r := (chunks 64 (p.length / 64) p).foldl shaBlock shaInit
  [r.a, r.b, r.c, r.d, r.e, r.f, r.g, r.h].flatMap (beBytes 4)
/-- HMAC-SHA-256. -/
def hmac (key m : Bytes) : Bytes :=
  let k0 := if 64 < key.length then sha256 key else key
  let k := k0 ++ List.replicate (64 - k0.length) 0#8
  sha256 (k.map (· ^^^ 0x5c#8) ++ sha256 (k.map (· ^^^ 0x36#8) ++ m))
/-- HKDF-SHA-256, 32 output bytes (R472, R474, R475). -/
def hkdf (key salt info : Bytes) : Bytes :=
  hmac (hmac (if salt.isEmpty then List.replicate 32 0#8 else salt) key) (info ++ [1#8])
/-- ASCII bytes of a name. -/
def ascii (s : List Char) : Bytes := s.map (fun c => BitVec.ofNat 8 c.toNat)

/-! ### AES-256 -/
/-- Multiply by x in GF(2^8) with the AES polynomial. -/
def xtime (a : Nat) : Nat := if a < 128 then 2 * a else Nat.xor (2 * a - 256) 0x1B
/-- Multiply in the AES field; `n` is the number of bits of `b` left. -/
def aesMul : Nat → Nat → Nat → Nat
  | 0, _, _ => 0
  | n + 1, a, b => Nat.xor (if b % 2 = 1 then a else 0) (aesMul n (xtime a) (b / 2))
/-- The inverse (a^254), zero for zero. -/
def aesInv (a : Nat) : Nat :=
  let sq := fun x => aesMul 8 x x
  let a2 := sq a; let a3 := aesMul 8 a2 a; let a6 := sq a3; let a12 := sq a6
  let a15 := aesMul 8 a12 a3; let a30 := sq a15; let a60 := sq a30; let a120 := sq a60
  let a126 := aesMul 8 a120 a6; let a127 := aesMul 8 a126 a
  sq a127
/-- Rotate a byte left. -/
def rotl8 (n x : Nat) : Nat := ((x <<< n) ||| (x >>> (8 - n))) % 256
/-- The AES S-box. -/
def aesSbox (a : Nat) : Nat :=
  let b := aesInv a
  Nat.xor (Nat.xor (Nat.xor (Nat.xor (Nat.xor b (rotl8 1 b)) (rotl8 2 b)) (rotl8 3 b)) (rotl8 4 b)) 0x63
/-- The inverse S-box. -/
def aesSboxInv (a : Nat) : Nat :=
  aesInv (Nat.xor (Nat.xor (Nat.xor (rotl8 1 a) (rotl8 3 a)) (rotl8 6 a)) 0x05)
/-- Position-wise XOR of two byte lists. -/
def xorL (a b : List Nat) : List Nat := List.zipWith Nat.xor a b
/-- AES-256 key expansion: the words made so far, latest first; `i` words exist, `n` are still to make. -/
def aesExpand : Nat → Nat → Nat → List (List Nat) → List (List Nat)
  | 0, _, _, ws => ws
  | n + 1, i, rc, ws =>
    let prev := ws.getD 0 []
    let t :=
      if i % 8 = 0 then xorL (((prev.drop 1) ++ prev.take 1).map aesSbox) [rc, 0, 0, 0]
      else if i % 8 = 4 then prev.map aesSbox else prev
    aesExpand n (i + 1) (if i % 8 = 0 then xtime rc else rc) (xorL (ws.getD 7 []) t :: ws)
/-- The fifteen round keys of a 32-byte key, sixteen bytes each. -/
def aesKeys (key : Bytes) : List (List Nat) :=
  let w0 := (chunks 4 8 (key.map BitVec.toNat)).reverse
  chunks 16 15 ((aesExpand 52 8 1 w0).reverse.flatten)
/-- ShiftRows on sixteen bytes in column order. -/
def aesShift (s : List Nat) : List Nat :=
  [0,5,10,15,4,9,14,3,8,13,2,7,12,1,6,11].map (fun i => s.getD i 0)
/-- Inverse of ShiftRows. -/
def aesShiftInv (s : List Nat) : List Nat :=
  [0,13,10,7,4,1,14,11,8,5,2,15,12,9,6,3].map (fun i => s.getD i 0)
/-- MixColumns on one column with the coefficients of its first row. -/
def aesMixCol (m0 m1 m2 m3 : Nat) (c : List Nat) : List Nat :=
  let a := c.getD 0 0; let b := c.getD 1 0; let d := c.getD 2 0; let e := c.getD 3 0
  let f := fun w x y z => Nat.xor (Nat.xor (aesMul 8 w m0) (aesMul 8 x m1)) (Nat.xor (aesMul 8 y m2) (aesMul 8 z m3))
  [f a b d e, f b d e a, f d e a b, f e a b d]
/-- MixColumns with given coefficients. -/
def aesMix (m0 m1 m2 m3 : Nat) (s : List Nat) : List Nat := (chunks 4 4 s).flatMap (aesMixCol m0 m1 m2 m3)
/-- The rounds after the first key addition; the last one has no MixColumns. -/
def aesRounds : List (List Nat) → List Nat → List Nat
  | [], s => s
  | [k], s => xorL (aesShift (s.map aesSbox)) k
  | k :: ks, s => aesRounds ks (xorL (aesMix 2 3 1 1 (aesShift (s.map aesSbox))) k)
/-- AES-256 encryption of one block with expanded keys. -/
def aesEnc (ks : List (List Nat)) (b : List Nat) : List Nat := aesRounds (ks.drop 1) (xorL b (ks.getD 0 []))
/-- The inverse rounds over the round keys from the last to the first. -/
def aesRoundsInv : List (List Nat) → List Nat → List Nat
  | [], s => s
  | [k], s => xorL ((aesShiftInv s).map aesSboxInv) k
  | k :: ks, s => aesRoundsInv ks (aesMix 14 11 13 9 (xorL ((aesShiftInv s).map aesSboxInv) k))
/-- AES-256 decryption of one block with expanded keys. -/
def aesDec (ks : List (List Nat)) (b : List Nat) : List Nat :=
  let r := ks.reverse
  aesRoundsInv (r.drop 1) (xorL b (r.getD 0 []))
/-- A block as bytes. -/
def toB (l : List Nat) : Bytes := l.map (BitVec.ofNat 8)

/-! ### GCM -/
/-- Multiply in the GHASH field; `n` bits of `x` are left, taken from its most significant bit on. -/
def ghMul : Nat → Nat → Nat → Nat → Nat
  | 0, _, _, z => z
  | n + 1, x, v, z =>
    ghMul n x (if v % 2 = 1 then Nat.xor (v / 2) 0xE1000000000000000000000000000000 else v / 2)
      (if x.testBit n then Nat.xor z v else z)
/-- GHASH over whole or short 16-byte blocks, each short block padded with zeros. -/
def ghash (h : Nat) (bs : Bytes) (y : Nat) : Nat :=
  (chunks 16 bs.length bs).foldl
    (fun acc c => ghMul 128 (Nat.xor acc (beNat (c ++ List.replicate (16 - c.length) 0#8))) h 0) y
/-- The counter-mode key stream XORed into data, from counter `ctr` on. -/
def gctr (ks : List (List Nat)) (iv : Bytes) : Nat → List Bytes → Bytes
  | _, [] => []
  | ctr, c :: cs =>
    List.zipWith (· ^^^ ·) c (toB (aesEnc ks ((iv ++ beBytes 4 ctr).map BitVec.toNat))) ++ gctr ks iv (ctr + 1) cs
/-- The full GCM tag of ciphertext `ct` and additional data `ad` under a 12-byte IV. -/
def gcmTag (key iv ad ct : Bytes) : Bytes :=
  let ks := aesKeys key
  let h := beNat (toB (aesEnc ks (List.replicate 16 0)))
  let s := ghash h (beBytes 8 (8 * ad.length) ++ beBytes 8 (8 * ct.length)) (ghash h ct (ghash h ad 0))
  List.zipWith (· ^^^ ·) (beBytes 16 s) (toB (aesEnc ks ((iv ++ beBytes 4 1).map BitVec.toNat)))
/-- AES-256-GMAC: GCM over additional data alone (R475, R476). -/
def gmac (key iv ad : Bytes) : Bytes := gcmTag key iv ad []
/-- AES-256-GCM encryption (and decryption, the same map) without the tag. -/
def gcmCrypt (key iv pt : Bytes) : Bytes := gctr (aesKeys key) iv 2 (chunks 16 pt.length pt)

/-! ### AES key wrap with padding (RFC 5649, R474) -/
/-- The unwrapping steps for `t` from `t` down to 1 over registers `rs` (`m` of them) and `a`. -/
def kwUnwrapSteps (ks : List (List Nat)) (m : Nat) : Nat → Bytes → List Bytes → Bytes × List Bytes
  | 0, a, rs => (a, rs)
  | t + 1, a, rs =>
    let i := t % m
    let x := beBytes 8 (Nat.xor (beNat a) (t + 1))
    let b := toB (aesDec ks ((x ++ rs.getD i []).map BitVec.toNat))
    kwUnwrapSteps ks m t (b.take 8) (rs.set i (b.drop 8))
/-- Unwrap a 40-byte wrapped 32-byte key; `none` when its integrity check fails. -/
def keyUnwrap (kek c : Bytes) : Option Bytes :=
  let ks := aesKeys kek
  let rs := chunks 8 4 (c.drop 8)
  let (a, rs') := kwUnwrapSteps ks 4 24 (c.take 8) rs
  if a = [0xA6#8, 0x59#8, 0x59#8, 0xA6#8, 0#8, 0#8, 0#8, 32#8] then some rs'.flatten else none

/-! ### CRC-32 (the reflected IEEE polynomial) -/
/-- Shift the CRC register by `n` bits. -/
def crc32Shift : Nat → Nat → Nat
  | 0, c => c
  | n + 1, c => crc32Shift n (if c % 2 = 1 then Nat.xor (c / 2) 0xEDB88320 else c / 2)
/-- CRC-32 of a byte string. -/
def crc32 (bs : Bytes) : Nat :=
  Nat.xor (bs.foldl (fun c b => crc32Shift 8 (Nat.xor c b.toNat)) 0xFFFFFFFF) 0xFFFFFFFF

/-! ### Signatures -/
/-- The 8-byte key ID of a public key (R473). -/
def keyIdPub (k : Bytes) : Nat := leNat ((sha256 k).take 8)
/-- The 8-byte key ID of a secret key (R473). -/
def keyIdSecret (k : Bytes) : Nat := leNat ((sha256 (ascii ['R','G','K'] ++ k)).take 8)

end Sys2Proof.Machine
end

