-- ==== Sys2Proof/Machine/GranuleCode.lean ====
section
/-! DEFINITION. The granule code, its decoder outcomes, poison and parity fallback (R361 to R374), the scrambler, the frame CRC and
the frame layout of a link (R124 to R128), and the self-test vectors (R375). -/
namespace Sys2Proof.Machine

/-- Multiply in GF(2^8) with polynomial 0x11D (R361); `n` bits of `b` are left. -/
def gfMul : Nat → Nat → Nat → Nat
  | 0, _, _ => 0
  | n + 1, a, b => Nat.xor (if b % 2 = 1 then a else 0) (gfMul n (if a < 128 then 2 * a else Nat.xor (2 * a) 0x11D) (b / 2))
/-- α^p, α = 2 (R361). -/
def gfPow : Nat → Nat
  | 0 => 1
  | p + 1 => gfMul 8 (gfPow p) 2
/-- The coefficients of the virtual word from position 40 down to 4: fold symbols, then data symbols (R362). -/
def rsHigh (data fold : Nat) : List Nat :=
  (List.range 5).reverse.map (fun m => bitsOf fold (8*m+7) (8*m)) ++
  (List.range 32).reverse.map (fun i => bitsOf data (8*i+7) (8*i))
/-- One step of division by g(x) = x^4 + 0x0F x^3 + 0x36 x^2 + 0x78 x + 0x40 (R363); remainder symbols 3 down to 0. -/
def rsStep (r : Nat × Nat × Nat × Nat) (s : Nat) : Nat × Nat × Nat × Nat :=
  let (r3, r2, r1, r0) := r
  let f := Nat.xor s r3
  (Nat.xor r2 (gfMul 8 f 0x0F), Nat.xor r1 (gfMul 8 f 0x36), Nat.xor r0 (gfMul 8 f 0x78), gfMul 8 f 0x40)
/-- The 32 check bits of data under a fold (R363), c_0 lowest. -/
def rsCheck (data fold : Nat) : Nat :=
  let (r3, r2, r1, r0) := (rsHigh data fold).foldl rsStep (0, 0, 0, 0)
  r0 + 0x100 * r1 + 0x10000 * r2 + 0x1000000 * r3
/-- The poison mask over granule bits [287:256] (R369). -/
def poisonMask : Nat := 0x01070E08
/-- The 288 bits of a granule with the given fold, poisoned or not (R363, R369). -/
def rsEncode (data fold : Nat) (poison : Bool) : Nat :=
  data + 2 ^ 256 * Nat.xor (rsCheck data fold) (if poison then poisonMask else 0)
/-- The syndrome S_j: the received virtual word at α^j (R366). -/
def rsSyndrome (g fold j : Nat) : Nat :=
  (rsHigh (g % 2 ^ 256) fold ++ (List.range 4).reverse.map (fun c => bitsOf g (8*c+263) (8*c+256))).foldl
    (fun acc s => Nat.xor (gfMul 8 acc (gfPow j)) s) 0
/-- The position at which a syndrome is single, searched from `p` over `n` positions (R366). -/
def rsSingle (s0 s1 s2 s3 : Nat) : Nat → Nat → Option Nat
  | 0, _ => none
  | n + 1, p =>
    let a := gfPow p
    if s0 ≠ 0 ∧ s1 = gfMul 8 s0 a ∧ s2 = gfMul 8 s1 a ∧ s3 = gfMul 8 s2 a then some p else rsSingle s0 s1 s2 s3 n (p + 1)
/-- The decoder's outcomes (R367). -/
inductive CodeOutcome where
  | clean
  | corrected (p v : Nat)
  | misdirected
  | poisoned
  | poisonedCorrected (p v : Nat)
  | uncorrectable
  deriving DecidableEq, Repr
/-- The outcome table of R367, first row that applies. -/
def rsOutcome (g fold : Nat) : CodeOutcome :=
  let s0 := rsSyndrome g fold 0; let s1 := rsSyndrome g fold 1
  let s2 := rsSyndrome g fold 2; let s3 := rsSyndrome g fold 3
  if s0 = 0 ∧ s1 = 0 ∧ s2 = 0 ∧ s3 = 0 then .clean else
  match rsSingle s0 s1 s2 s3 41 0 with
  | some p => if p ≤ 35 then .corrected p s0 else .misdirected
  | none =>
    if s0 = 0 ∧ s1 = 0 ∧ s2 = 0 ∧ s3 = 0x9F then .poisoned else
    match rsSingle s0 s1 s2 (Nat.xor s3 0x9F) 41 0 with
    | some p => if p ≤ 35 then .poisonedCorrected p s0 else .misdirected
    | none => .uncorrectable
/-- The bit offset in the granule of the symbol at position p: check symbols stand above the data (R361, R362). -/
def rsPosBit (p : Nat) : Nat := if p < 4 then 256 + 8 * p else 8 * (p - 4)
/-- The data a granule carries after the decoder's correction (R367). -/
def rsCorrect (g : Nat) (o : CodeOutcome) : Nat :=
  match o with
  | .corrected p v => Nat.xor g (v <<< rsPosBit p)
  | .poisonedCorrected p v => Nat.xor g (v <<< rsPosBit p)
  | _ => g
/-- Change a granule's fold without exposing its data (R365): the check symbols take the remainder of the fold difference. -/
def rsRefold (g fOld fNew : Nat) : Nat := Nat.xor g (2 ^ 256 * rsCheck 0 (Nat.xor fOld fNew))

/-- The 32 parity bits of a link in fallback: bit b is the even parity of data byte b (R374). -/
def parityBits (data : Nat) : Nat :=
  ((List.range 32).map (fun b => b2n (parity 8 (data >>> (8*b))) <<< b)).sum
/-- A granule as a fallback link carries it (R374). -/
def parityEncode (data : Nat) (poison : Bool) : Nat :=
  data + 2 ^ 256 * (if poison then Nat.xor (parityBits data) 0xFFFFFFFF else parityBits data)
/-- The receiver's classification in fallback (R374). -/
def parityOutcome (g : Nat) : CodeOutcome :=
  let d := Nat.xor (parityBits (g % 2 ^ 256)) (bitsOf g 287 256)
  if d = 0 then .clean else if d = 0xFFFFFFFF then .poisoned else .uncorrectable
/-- Encode for a link: the code, or parity where the link runs in fallback. -/
def linkEncode (par : Bool) (data fold : Nat) (poison : Bool) : Nat :=
  if par then parityEncode data poison else rsEncode data fold poison
/-- Decode from a link. -/
def linkOutcome (par : Bool) (g fold : Nat) : CodeOutcome := if par then parityOutcome g else rsOutcome g fold
/-- May the granule be used or carried on (not retried or discarded)? -/
def codeUsable : CodeOutcome → Bool
  | .misdirected => false
  | .uncorrectable => false
  | _ => true
/-- Is the granule carried as poisoned? -/
def codePoisoned : CodeOutcome → Bool
  | .poisoned => true
  | .poisonedCorrected _ _ => true
  | _ => false
/-- Does the outcome feed the leaky bucket (R376)? -/
def codeFeeds : CodeOutcome → Bool
  | .corrected _ _ => true
  | .poisonedCorrected _ _ => true
  | _ => false

/-! ### Scrambler and CRC -/
/-- The scrambler's keystream, first bit most significant, `n` bits from state `s` (R124). -/
def scrambler : Nat → Nat → Nat → Nat
  | 0, _, acc => acc
  | n + 1, s, acc =>
    let b := Nat.xor ((s >>> 30) % 2) ((s >>> 27) % 2)
    scrambler n ((2 * s) % 2 ^ 31 + b) (2 * acc + b)
/-- The sequence XORed over every frame: the register restarts at all ones before bit 319 (R124). -/
def scramKey : Nat := scrambler 320 0x7FFFFFFF 0
/-- Scramble or descramble a 320-bit frame (R124). -/
def scramble (f : Nat) : Nat := Nat.xor f scramKey
/-- CRC with polynomial 0x1021 over `n` bits of `v`, most significant first (R126). -/
def crc16 : Nat → Nat → Nat → Nat
  | 0, _, c => c
  | n + 1, v, c =>
    crc16 n v (if Nat.xor (c / 0x8000) ((v >>> n) % 2) = 1 then Nat.xor ((2 * c) % 0x10000) 0x1021 else (2 * c) % 0x10000)
/-- The CRC of a frame: bits [319:312] then [23:16] (R126). -/
def frameCrc (f : Nat) : Nat := crc16 16 (bitsOf f 319 312 * 256 + bitsOf f 23 16) 0xFFFF

/-! ### Frames -/
/-- The fields of a frame (R125); the granule is its 288 bits. -/
structure Frame where
  ftype : Nat
  vc : Nat
  seqPar : Nat
  gran : Nat
  creditValid : Bool
  creditVc : Nat
  creditCount : Nat
  beatNext : Bool
  deriving DecidableEq, Repr
/-- A frame's 320 bits with its CRC, before scrambling (R125). -/
def frameBits (f : Frame) : Nat :=
  let b := layNat [⟨316, 4, f.ftype⟩, ⟨314, 2, f.vc⟩, ⟨312, 2, f.seqPar⟩, ⟨24, 288, f.gran⟩, ⟨23, 1, b2n f.creditValid⟩,
    ⟨21, 2, f.creditVc⟩, ⟨17, 4, f.creditCount⟩, ⟨16, 1, b2n f.beatNext⟩]
  b + frameCrc b
/-- A frame as sent on the line. -/
def frameLine (f : Frame) : BitVec 320 := BitVec.ofNat 320 (scramble (frameBits f))
/-- The fields of a descrambled frame (R125). -/
def frameOf (b : Nat) : Frame :=
  ⟨bitsOf b 319 316, bitsOf b 315 314, bitsOf b 313 312, bitsOf b 311 24, b.testBit 23, bitsOf b 22 21, bitsOf b 20 17,
    b.testBit 16⟩
/-- Does the frame's CRC agree (R126)? -/
def frameCrcOk (b : Nat) : Bool := decide (frameCrc b = b % 0x10000)
/-- Is a frame type a data frame (R127)? -/
def isDataFrame (t : Nat) : Bool := decide (3 ≤ t) && decide (t ≤ 6)

/-! ### Start-up vectors (R375) -/
/-- Outcome required of each vector: clean, corrected at p with 0x40, misdirected, unusable, poisoned, poisoned and corrected. -/
def vectorOk (v : Nat) (o : CodeOutcome) : Bool :=
  if v = 1 then decide (o = .clean)
  else if v ≤ 37 then decide (o = .corrected (v - 2) 0x40)
  else if v ≤ 42 then decide (o = .misdirected)
  else if v ≤ 74 then (match o with | .clean => false | .corrected _ _ => false | _ => true)
  else if v = 75 then decide (o = .poisoned)
  else decide (o = .poisonedCorrected 20 0x40)
/-- Add an error value at a position of the virtual word: a stored symbol, or a fold symbol from 36 on (R362). -/
def injectAt (gf : Nat × Nat) (p v : Nat) : Nat × Nat :=
  if p ≤ 35 then (Nat.xor gf.1 (v <<< rsPosBit p), gf.2) else (gf.1, Nat.xor gf.2 (v <<< (8 * (p - 36))))
/-- The fault injected by vector `v` into granule `g` with fold `f` (R375): the granule and fold the decoder sees. DEDUCED
(assumption 6): the sixteen two- and three-symbol patterns take p from 0 to 15; a position from 36 on alters the fold. -/
def vectorInject (v g f : Nat) : Nat × Nat :=
  if v = 1 then (g, f)
  else if v ≤ 37 then injectAt (g, f) (v - 2) 0x40
  else if v ≤ 42 then injectAt (g, f) (36 + (v - 38)) 0x01
  else if v ≤ 58 then injectAt (injectAt (g, f) (v - 43) 0x01) (35 - (v - 43)) 0x80
  else if v ≤ 74 then injectAt (injectAt (injectAt (g, f) (v - 59) 0x01) (v - 59 + 11) 0x02) (v - 59 + 22) 0x04
  else if v = 75 then (Nat.xor g (2 ^ 256 * poisonMask), f)
  else injectAt (Nat.xor g (2 ^ 256 * poisonMask), f) 20 0x40
/-- Take `n` bits of the self-test LFSR, least significant first: (bits, next state) (R375). -/
def lfsrTake : Nat → Nat → Nat × Nat
  | 0, s => (0, s)
  | n + 1, s =>
    let b := Nat.xor ((s >>> 30) % 2) ((s >>> 27) % 2)
    let r := lfsrTake n ((2 * s) % 2 ^ 31 + b)
    (b + 2 * r.1, r.2)
/-- The vectors from number `v` on, `n` of them, that this engine fails, from LFSR state `s` (R375). -/
def vectorsFailed : Nat → Nat → Nat → List Nat
  | 0, _, _ => []
  | n + 1, v, s =>
    let d := lfsrTake 256 s
    let f := lfsrTake 40 d.2
    let fold := if f.1 = 0 then 1 else f.1
    let x := vectorInject v (rsEncode d.1 fold false) fold
    (if vectorOk v (rsOutcome x.1 x.2) then [] else [v]) ++ vectorsFailed n (v + 1) f.2

end Sys2Proof.Machine
end

