-- ==== Sys2Proof/Machine/Events.lean ====
section
/-! DEFINITION. The names of every event of the fabric: the 85 interrupt causes of a leaf in the order of R521, then the events
that only a channel or the card reports, with the ASCII name a telemetry record carries (R539). -/
namespace Sys2Proof.Machine

/-- Events and interrupt causes, by the name the spec gives them. -/
inductive Ev where
  | timeSaturated
  | stepApplied
  | slewDone
  | utcStepped
  | stepLate
  | domainLocked
  | domainCoasting
  | domainFaulted
  | domainSwitch
  | timeFree
  | timeLost
  | domainsApart
  | linkUp
  | linkDown
  | linkFaulted
  | fibreOpen
  | laneStuck
  | pairSwapped
  | singleFibre
  | fibreDelayJump
  | spanOverLimit
  | wiringSharedModule
  | linkUnauthenticated
  | tdcFault
  | tdcLinSuspect
  | tapFault
  | tapDelayJump
  | regionClockStopped
  | fireLate
  | marginLow
  | freqDeferred
  | lbOverrun
  | joinDone
  | joinSplit
  | sheafReady
  | sheafSuspended
  | sheafResumed
  | sheafClosed
  | launch
  | genFailed
  | resultMismatch
  | resultMissing
  | launchMissed
  | mmClassified
  | fenced
  | fenceDrained
  | unfenced
  | forecastFail
  | forecastClear
  | testDone
  | testAborted
  | historyClass
  | unitCondemned
  | historyFull
  | codeFallback
  | codeSelftestFail
  | bucketOverflow
  | scrubLate
  | flashSectionBad
  | quarantined
  | imageFallback
  | imageStaged
  | imageBad
  | factoryEntryMissing
  | userBlockBad
  | fibreChanged
  | factoryRestored
  | unitVersionChanged
  | secViolation
  | secLocked
  | secKeyless
  | alarmCleared
  | keyUnwrapFail
  | keyRotated
  | debugUnlocked
  | debugLocked
  | debugUnlockFail
  | captureEvent
  | captureOverrun
  | triggerLate
  | captureTorn
  | replayGap
  | replayDone
  | serialInvalid
  | summaryReady
  | flashDone
  | mpoPolarity
  | bundleDegraded
  | positionMismatch
  | tdcSpared
  | outputUnmonitored
  | leadLost
  | followerUnconfirmed
  | apexMoved
  | launchBumped
  | sheafState
  | memberFenced
  | refState
  | refHistory
  | switchStart
  | switchAbort
  | switchCommit
  | holdoverEnter
  | holdoverExit
  | warmSet
  | warmCleared
  | disagree
  | disagreeCleared
  | antOpen
  | antShort
  | outShort
  | outOpen
  | outputDrift
  | outSrcLost
  | passThroughEnter
  | passThroughExit
  | partialDiscard
  | capacityDegraded
  | capacityRestored
  | thresherCheckFail
  | thresherRerunFail
  | engineCondemned
  | clusterLost
  | ledgerDegraded
  | ledgerRestored
  | ledgerSeqSaturated
  | siloDescriptorOnly
  | siloFullRestored
  | regionMigrated
  | regionRetired
  | stackLost
  | replayDiverged
  | compareSkipped
  | packLoaded
  | scrubUncorrectable
  | shadowFail
  | pathSweepClean
  | chaffStateFull
  | fingerprintDiffers
  | memberFpChanged
  | injectStart
  | injectEnd
  | powerWarn
  | powerWarnClear
  | mgmtAuthFail
  | feedLost
  | feedRestored
  | feedOvervolt
  | feedReversed
  | sledPowerFault
  | thermalWarn
  | thermalShutdown
  | thermalRestored
  | brickInserted
  | brickRemoved
  | fanInserted
  | fanRemoved
  | sledInserted
  | sledRemoved
  | cardInserted
  | cardRemoved
  | brickFault
  | fanFault
  | memberBound
  | testItemFail
  | selftestFail
  deriving DecidableEq, Repr

/-- The leaf interrupt causes, in the order of their numbers (R521). -/
def leafCauses : List Ev :=
  [.timeSaturated, .stepApplied, .slewDone, .utcStepped, .stepLate, .domainLocked, .domainCoasting, .domainFaulted,
   .domainSwitch, .timeFree, .timeLost, .domainsApart, .linkUp, .linkDown, .linkFaulted, .fibreOpen,
   .laneStuck, .pairSwapped, .fibreDelayJump, .spanOverLimit, .wiringSharedModule, .linkUnauthenticated, .tdcFault, .tdcLinSuspect,
   .tapFault, .tapDelayJump, .regionClockStopped, .fireLate, .marginLow, .freqDeferred, .lbOverrun, .joinDone,
   .joinSplit, .sheafReady, .sheafSuspended, .sheafResumed, .sheafClosed, .launch, .genFailed, .resultMismatch,
   .resultMissing, .launchMissed, .mmClassified, .fenced, .fenceDrained, .unfenced, .forecastFail, .forecastClear,
   .testDone, .testAborted, .historyClass, .unitCondemned, .historyFull, .codeFallback, .codeSelftestFail, .bucketOverflow,
   .scrubLate, .flashSectionBad, .quarantined, .imageFallback, .imageStaged, .imageBad, .factoryEntryMissing, .userBlockBad,
   .fibreChanged, .factoryRestored, .unitVersionChanged, .secViolation, .secLocked, .secKeyless, .alarmCleared, .keyUnwrapFail,
   .keyRotated, .debugUnlocked, .debugLocked, .debugUnlockFail, .captureEvent, .captureOverrun, .triggerLate, .captureTorn,
   .replayGap, .replayDone, .serialInvalid, .summaryReady, .flashDone]

/-- The interrupt number of a cause, when a leaf has it (R521). -/
def Ev.cause (e : Ev) : Option Nat := leafCauses.findIdx? (fun x => decide (x = e))

/-- The name of an event as the spec writes it (R539). -/
def Ev.name : Ev → String
  | .timeSaturated => "TIME_SATURATED"
  | .stepApplied => "STEP_APPLIED"
  | .slewDone => "SLEW_DONE"
  | .utcStepped => "UTC_STEPPED"
  | .stepLate => "STEP_LATE"
  | .domainLocked => "DOMAIN_LOCKED"
  | .domainCoasting => "DOMAIN_COASTING"
  | .domainFaulted => "DOMAIN_FAULTED"
  | .domainSwitch => "DOMAIN_SWITCH"
  | .timeFree => "TIME_FREE"
  | .timeLost => "TIME_LOST"
  | .domainsApart => "DOMAINS_APART"
  | .linkUp => "LINK_UP"
  | .linkDown => "LINK_DOWN"
  | .linkFaulted => "LINK_FAULTED"
  | .fibreOpen => "FIBRE_OPEN"
  | .laneStuck => "LANE_STUCK"
  | .pairSwapped => "PAIR_SWAPPED"
  | .singleFibre => "SINGLE_FIBRE"
  | .fibreDelayJump => "FIBRE_DELAY_JUMP"
  | .spanOverLimit => "SPAN_OVER_LIMIT"
  | .wiringSharedModule => "WIRING_SHARED_MODULE"
  | .linkUnauthenticated => "LINK_UNAUTHENTICATED"
  | .tdcFault => "TDC_FAULT"
  | .tdcLinSuspect => "TDC_LIN_SUSPECT"
  | .tapFault => "TAP_FAULT"
  | .tapDelayJump => "TAP_DELAY_JUMP"
  | .regionClockStopped => "REGION_CLOCK_STOPPED"
  | .fireLate => "FIRE_LATE"
  | .marginLow => "MARGIN_LOW"
  | .freqDeferred => "FREQ_DEFERRED"
  | .lbOverrun => "LB_OVERRUN"
  | .joinDone => "JOIN_DONE"
  | .joinSplit => "JOIN_SPLIT"
  | .sheafReady => "SHEAF_READY"
  | .sheafSuspended => "SHEAF_SUSPENDED"
  | .sheafResumed => "SHEAF_RESUMED"
  | .sheafClosed => "SHEAF_CLOSED"
  | .launch => "LAUNCH"
  | .genFailed => "GEN_FAILED"
  | .resultMismatch => "RESULT_MISMATCH"
  | .resultMissing => "RESULT_MISSING"
  | .launchMissed => "LAUNCH_MISSED"
  | .mmClassified => "MM_CLASSIFIED"
  | .fenced => "FENCED"
  | .fenceDrained => "FENCE_DRAINED"
  | .unfenced => "UNFENCED"
  | .forecastFail => "FORECAST_FAIL"
  | .forecastClear => "FORECAST_CLEAR"
  | .testDone => "TEST_DONE"
  | .testAborted => "TEST_ABORTED"
  | .historyClass => "HISTORY_CLASS"
  | .unitCondemned => "UNIT_CONDEMNED"
  | .historyFull => "HISTORY_FULL"
  | .codeFallback => "CODE_FALLBACK"
  | .codeSelftestFail => "CODE_SELFTEST_FAIL"
  | .bucketOverflow => "BUCKET_OVERFLOW"
  | .scrubLate => "SCRUB_LATE"
  | .flashSectionBad => "FLASH_SECTION_BAD"
  | .quarantined => "QUARANTINED"
  | .imageFallback => "IMAGE_FALLBACK"
  | .imageStaged => "IMAGE_STAGED"
  | .imageBad => "IMAGE_BAD"
  | .factoryEntryMissing => "FACTORY_ENTRY_MISSING"
  | .userBlockBad => "USER_BLOCK_BAD"
  | .fibreChanged => "FIBRE_CHANGED"
  | .factoryRestored => "FACTORY_RESTORED"
  | .unitVersionChanged => "UNIT_VERSION_CHANGED"
  | .secViolation => "SEC_VIOLATION"
  | .secLocked => "SEC_LOCKED"
  | .secKeyless => "SEC_KEYLESS"
  | .alarmCleared => "ALARM_CLEARED"
  | .keyUnwrapFail => "KEY_UNWRAP_FAIL"
  | .keyRotated => "KEY_ROTATED"
  | .debugUnlocked => "DEBUG_UNLOCKED"
  | .debugLocked => "DEBUG_LOCKED"
  | .debugUnlockFail => "DEBUG_UNLOCK_FAIL"
  | .captureEvent => "CAPTURE_EVENT"
  | .captureOverrun => "CAPTURE_OVERRUN"
  | .triggerLate => "TRIGGER_LATE"
  | .captureTorn => "CAPTURE_TORN"
  | .replayGap => "REPLAY_GAP"
  | .replayDone => "REPLAY_DONE"
  | .serialInvalid => "SERIAL_INVALID"
  | .summaryReady => "SUMMARY_READY"
  | .flashDone => "FLASH_DONE"
  | .mpoPolarity => "MPO_POLARITY"
  | .bundleDegraded => "BUNDLE_DEGRADED"
  | .positionMismatch => "POSITION_MISMATCH"
  | .tdcSpared => "TDC_SPARED"
  | .outputUnmonitored => "OUTPUT_UNMONITORED"
  | .leadLost => "LEAD_LOST"
  | .followerUnconfirmed => "FOLLOWER_UNCONFIRMED"
  | .apexMoved => "APEX_MOVED"
  | .launchBumped => "LAUNCH_BUMPED"
  | .sheafState => "SHEAF_STATE"
  | .memberFenced => "MEMBER_FENCED"
  | .refState => "REF_STATE"
  | .refHistory => "REF_HISTORY"
  | .switchStart => "SWITCH_START"
  | .switchAbort => "SWITCH_ABORT"
  | .switchCommit => "SWITCH_COMMIT"
  | .holdoverEnter => "HOLDOVER_ENTER"
  | .holdoverExit => "HOLDOVER_EXIT"
  | .warmSet => "WARM_SET"
  | .warmCleared => "WARM_CLEARED"
  | .disagree => "DISAGREE"
  | .disagreeCleared => "DISAGREE_CLEARED"
  | .antOpen => "ANT_OPEN"
  | .antShort => "ANT_SHORT"
  | .outShort => "OUT_SHORT"
  | .outOpen => "OUT_OPEN"
  | .outputDrift => "OUTPUT_DRIFT"
  | .outSrcLost => "OUT_SRC_LOST"
  | .passThroughEnter => "PASS_THROUGH_ENTER"
  | .passThroughExit => "PASS_THROUGH_EXIT"
  | .partialDiscard => "PARTIAL_DISCARD"
  | .capacityDegraded => "CAPACITY_DEGRADED"
  | .capacityRestored => "CAPACITY_RESTORED"
  | .thresherCheckFail => "THRESHER_CHECK_FAIL"
  | .thresherRerunFail => "THRESHER_RERUN_FAIL"
  | .engineCondemned => "ENGINE_CONDEMNED"
  | .clusterLost => "CLUSTER_LOST"
  | .ledgerDegraded => "LEDGER_DEGRADED"
  | .ledgerRestored => "LEDGER_RESTORED"
  | .ledgerSeqSaturated => "LEDGER_SEQ_SATURATED"
  | .siloDescriptorOnly => "SILO_DESCRIPTOR_ONLY"
  | .siloFullRestored => "SILO_FULL_RESTORED"
  | .regionMigrated => "REGION_MIGRATED"
  | .regionRetired => "REGION_RETIRED"
  | .stackLost => "STACK_LOST"
  | .replayDiverged => "REPLAY_DIVERGED"
  | .compareSkipped => "COMPARE_SKIPPED"
  | .packLoaded => "PACK_LOADED"
  | .scrubUncorrectable => "SCRUB_UNCORRECTABLE"
  | .shadowFail => "SHADOW_FAIL"
  | .pathSweepClean => "PATH_SWEEP_CLEAN"
  | .chaffStateFull => "CHAFF_STATE_FULL"
  | .fingerprintDiffers => "FINGERPRINT_DIFFERS"
  | .memberFpChanged => "MEMBER_FP_CHANGED"
  | .injectStart => "INJECT_START"
  | .injectEnd => "INJECT_END"
  | .powerWarn => "POWER_WARN"
  | .powerWarnClear => "POWER_WARN_CLEAR"
  | .mgmtAuthFail => "MGMT_AUTH_FAIL"
  | .feedLost => "FEED_LOST"
  | .feedRestored => "FEED_RESTORED"
  | .feedOvervolt => "FEED_OVERVOLT"
  | .feedReversed => "FEED_REVERSED"
  | .sledPowerFault => "SLED_POWER_FAULT"
  | .thermalWarn => "THERMAL_WARN"
  | .thermalShutdown => "THERMAL_SHUTDOWN"
  | .thermalRestored => "THERMAL_RESTORED"
  | .brickInserted => "BRICK_INSERTED"
  | .brickRemoved => "BRICK_REMOVED"
  | .fanInserted => "FAN_INSERTED"
  | .fanRemoved => "FAN_REMOVED"
  | .sledInserted => "SLED_INSERTED"
  | .sledRemoved => "SLED_REMOVED"
  | .cardInserted => "CARD_INSERTED"
  | .cardRemoved => "CARD_REMOVED"
  | .brickFault => "BRICK_FAULT"
  | .fanFault => "FAN_FAULT"
  | .memberBound => "MEMBER_BOUND"
  | .testItemFail => "TEST_ITEM_FAIL"
  | .selftestFail => "SELFTEST_FAIL"

end Sys2Proof.Machine
end

