-- ==== Sys2Proof/Machine/Tab.lean ====
section
/-! DEFINITION. The one sparse array of the model: read, write, and the canonical form that makes equal arrays equal
data. Ports, taps, slots, memory and tables all use it. -/
namespace Sys2Proof.Machine

/-- The entry at `k`, or the default `d`. -/
def tabGet {α : Type} (d : α) : Tab α → Nat → α
  | [], _ => d
  | (j, a) :: t, k => if j = k then a else tabGet d t k

/-- Without the entry at `k`. -/
def tabDrop {α : Type} (k : Nat) : Tab α → Tab α
  | [] => []
  | (j, b) :: t => if j = k then tabDrop k t else (j, b) :: tabDrop k t
/-- With `a` at `k`, before the first higher key. -/
def tabPut {α : Type} (k : Nat) (a : α) : Tab α → Tab α
  | [] => [(k, a)]
  | (j, b) :: t => if k < j then (k, a) :: (j, b) :: t else (j, b) :: tabPut k a t
/-- Put `a` at `k`, keeping keys rising and listing no entry equal to the default. -/
def tabSet {α : Type} [DecidableEq α] (d : α) (t : Tab α) (k : Nat) (a : α) : Tab α :=
  if a = d then tabDrop k t else tabPut k a (tabDrop k t)

/-- Apply `f` to the entry at `k`. -/
def tabUpd {α : Type} [DecidableEq α] (d : α) (t : Tab α) (k : Nat) (f : α → α) : Tab α :=
  tabSet d t k (f (tabGet d t k))

/-- Every key is above `m`. -/
def tabAbove {α : Type} (m : Nat) : Tab α → Bool
  | [] => true
  | (k, _) :: t => decide (m < k) && tabAbove m t

/-- The canonical form: keys strictly rise and no entry is the default. -/
def tabWf {α : Type} [DecidableEq α] (d : α) : Tab α → Bool
  | [] => true
  | (k, a) :: t => decide (a ≠ d) && tabAbove k t && tabWf d t

/-- Change every listed entry (an unlisted one is the default, which `f` keeps or is not asked about). -/
def tabMap {α : Type} [DecidableEq α] (d : α) (f : Nat → α → α) : Tab α → Tab α
  | [] => []
  | (k, a) :: t => if f k a = d then tabMap d f t else (k, f k a) :: tabMap d f t

/-- The keys listed. -/
def tabKeys {α : Type} (t : Tab α) : List Nat := t.map Prod.fst

/-- Write consecutive entries from `k` on. -/
def tabWriteList {α : Type} [DecidableEq α] (d : α) (t : Tab α) (k : Nat) : List α → Tab α
  | [] => t
  | a :: as => tabWriteList d (tabSet d t k a) (k + 1) as

/-- Read `n` consecutive entries from `k` on. -/
def tabReadList {α : Type} (d : α) (t : Tab α) : Nat → Nat → List α
  | _, 0 => []
  | k, n + 1 => tabGet d t k :: tabReadList d t (k + 1) n

end Sys2Proof.Machine
end

