-- ==== Sys2Proof/Machine/StateLink.lean ====
section
/-! DEFINITION. The parts of the state that a leaf and a channel both have: the time core (chapter Pod Time), the TDCs (Edge
Measurement), the Skellet ports (The Skellet Link, Security) and the source loop of a domain (Time Transfer). Every field's
default is its value at reset. -/
namespace Sys2Proof.Machine

/-- A granule as a unit holds it: 256 data bits, and whether it is poisoned (R369). -/
structure Granule where
  data   : Gran := 0#256
  poison : Bool := false
  deriving DecidableEq, Repr
/-- A packet on a virtual channel: 1 to 128 granules (R129); `replay` is the VC2 replay class (R130). -/
structure Packet where
  vc     : Nat
  grans  : List Granule
  replay : Bool := false
  /-- capture traffic of a strict sheaf (R393) -/
  strict : Bool := false
  deriving DecidableEq, Repr

/-- An event raised: its name, the index and detail byte of a leaf interrupt (R521), and the values a channel's record carries (R539). -/
structure EvRec where
  ev     : Ev
  index  : Nat := 0
  detail : Nat := 0
  vals   : List Nat := []
  deriving DecidableEq, Repr

/-! ### Time core -/
/-- What a step notice changes (R139). -/
inductive StepTarget where
  | podTime
  | utc
  deriving DecidableEq, Repr
/-- A step notice (R57, R139): T_s in ns, Δ in 1/65,536 ns, step count, and the port it came from (the event's source, R64). -/
structure Notice where
  target : StepTarget
  at_    : Nat
  delta  : Int
  count  : BitVec 16
  src    : Nat := 0
  deriving DecidableEq, Repr
/-- The time core of a unit (R47 to R72). -/
structure TimeCore where
  /-- the pod-time accumulator in units of 2^-40 ns: bits [103:24] are pod time (R47), bits [23:0] are never visible (R72) -/
  acc       : Nat := 0
  /-- time-clock edges since reset, which TDC coarse counts difference (R104) -/
  edges     : Nat := 0
  /-- `VALID`: the unit has reached LOCKED, or settled, since reset (R54, R66, R175) -/
  valid     : Bool := false
  /-- the rate word, 16.24 (R72) -/
  rate      : Nat := 51200 * 2 ^ 24
  /-- `SLEW_RATE_PPM` of the unit's own image, which a mill's alone gives (R61, R451); 0: none -/
  slewPpm   : Nat := 0
  /-- the slews in progress, the one that runs first: the notice, and the part of |Δ| still to absorb, in accumulator units (R61, R64, R590) -/
  slews     : List (Notice × Nat) := []
  utcOffset : Int := 0
  epochBase : Nat := 0
  utcValid  : Bool := false
  leap      : BitVec 16 := 0#16
  stepCount : BitVec 16 := 0#16
  /-- the one pending pod-time change (R590) -/
  pendPod   : Option Notice := none
  /-- pending UTC-offset changes, at most two (R204), earliest first -/
  pendUtc   : List Notice := []
  /-- notices kept before the first lock after reset (R54) -/
  early     : List Notice := []
  /-- the last four notices applied, latest first (R591) -/
  applied   : List Notice := []
  saturated : Bool := false
  deriving DecidableEq, Repr
/-- Pod time in 1/65,536 ns: bits [79:0] (R47). -/
def TimeCore.pod (t : TimeCore) : Nat := t.acc / 2 ^ 24
/-- Pod time in ns: bits [79:16] (R47). -/
def TimeCore.ns (t : TimeCore) : Nat := t.acc / 2 ^ 40

/-! ### TDC -/
/-- The two words of a TDC result (R113). -/
structure TdcResult where
  value      : Nat := 0
  valid      : Bool := false
  overflow   : Bool := false
  unlocked   : Bool := false
  coarseOnly : Bool := false
  linSuspect : Bool := false
  stampMode  : Bool := false
  tdcId      : Nat := 0
  fineStop   : Nat := 0
  fineStart  : Nat := 0
  deriving DecidableEq, Repr
/-- An edge at a TDC input as it is sampled: the ones among the taps, its direction, for how many ps the input stood at the opposite level
before it, and whether a test edge of the background pass is in the line (R108, R112, R117); `after` is how many edges of the time clock pass
before the one that samples it. -/
structure EdgeIn where
  ones   : Nat
  rising : Bool := true
  heldPs : Nat := 1000
  test   : Bool := false
  after  : Nat := 0
  deriving DecidableEq, Repr
/-- An edge of a region clock as its tap's detector samples it (R78): the sample, and how many edges of the time clock pass before it. -/
structure RegionIn where
  after  : Nat := 0
  sample : Nat
  deriving DecidableEq, Repr
/-- A loop control value that the background pass judges (R116): of the start or the stop interpolator. -/
structure LoopVal where
  start : Bool
  value : Nat
  deriving DecidableEq, Repr
/-- The voltage of an output during a pulse (R216): which output, and whether it is above 90 % of the unloaded swing. -/
structure OutSwing where
  n    : Nat
  high : Bool
  deriving DecidableEq, Repr
/-- One TDC (R103 to R121). -/
structure Tdc where
  stampMode   : Bool := false
  armed       : Bool := false
  measuring   : Bool := false
  /-- the time-clock edge that sampled the start, its fine code and residual -/
  startEdge   : Nat := 0
  startFine   : Nat := 0
  rStart      : Nat := 0
  /-- the start interpolator was unlocked at the start, or lock has been lost since (R111, R114) -/
  lostSince   : Bool := false
  /-- the edge counts at which each interpolator last took an edge, for its dead time (R111) -/
  deadStart   : Option Nat := none
  deadStop    : Option Nat := none
  lockStart   : Bool := false
  lockStop    : Bool := false
  fault       : Bool := false
  /-- out of service until unit reset (R115, R121) -/
  outOfService : Bool := false
  linStart    : Bool := false
  linStop     : Bool := false
  /-- lock losses within the last second, for the 8-in-1-s rule (R115): edge counts, latest first -/
  losses      : List Nat := []
  lossCount   : Nat := 0
  spared      : Bool := false
  result      : TdcResult := {}
  busyCtr     : Ctr := {}
  strayCtr    : Ctr := {}
  ovfCtr      : Ctr := {}
  /-- factory linearity tables, L[1] to L[255] (R109); an empty table stands for the nominal one -/
  tabStart    : List Nat := []
  tabStop     : List Nat := []
  /-- delays from the pins of its start and stop inputs to the reference plane, in 1/65,536 ns (R107) -/
  dStart      : Nat := 0
  dStop       : Nat := 0
  /-- factory range of the loop's control value (R116) -/
  loopMin     : Nat := 0
  loopMax     : Nat := 0
  /-- the last range check found the loop of the start, and of the stop, interpolator outside its range (R116) -/
  badStart    : Bool := false
  badStop     : Bool := false
  deriving DecidableEq, Repr

/-! ### Skellet port -/
/-- Link states (R149). -/
inductive LinkState where
  | down
  | training
  | calibrating
  | up
  | faulted
  deriving DecidableEq, Repr
/-- Link modes (R141). -/
inductive LinkMode where
  | dual
  | singleA
  | singleB
  deriving DecidableEq, Repr
/-- What one end learns of the other in training (R31, R139). -/
structure FarEnd where
  serial   : Nat := 0
  role     : Nat := 0
  domain   : Nat := 0
  fpa      : Nat := 0xFFFFFFFF
  version  : Nat := 0
  redVer   : Nat := 0
  known    : Bool := false
  loopback : Nat := 0
  buf1     : Nat := 0
  buf2     : Nat := 0
  buf3     : Nat := 0
  parity   : Bool := false
  params   : Bool := false
  deriving DecidableEq, Repr
/-- A data frame as sent or received: sequence number, type, VC, granule. -/
structure DataFrame where
  seq    : Nat
  ftype  : Nat
  vc     : Nat
  data   : Gran
  poison : Bool := false
  deriving DecidableEq, Repr
/-- Training (R141 to R149). -/
structure Training where
  /-- light on the own receivers, [0] RX_A, [1] RX_B -/
  light      : Nat := 0
  frameLock  : Bool := false
  /-- far-end positions seen, bits as in a TRAIN frame [12:9] (R149) -/
  seen       : Nat := 0
  /-- the far end's report of what it sees of us -/
  farSeen    : Nat := 0
  modeChosen : Bool := false
  /-- ancestors' module serials from ANCESTRY, the sender's first (R24) -/
  ancestry   : List Nat := []
  ancestryIn : Bool := false
  /-- the far end's TRAIN reports a fault cause -/
  farCause   : Nat := 0
  deriving DecidableEq, Repr
/-- The data path: sequence, retry, credit, queues (R129 to R133). -/
structure DataPath where
  txSeq    : Nat := 0
  store    : List DataFrame := []
  replay   : List Nat := []
  credit1  : Nat := 0
  credit2  : Nat := 0
  credit3  : Nat := 0
  /-- credits owed to the far end, one entry per freed slot: its VC -/
  owed     : List Nat := []
  ctrlQ    : List Gran := []
  txQ      : List Packet := []
  /-- frames left of the packet being sent on VC1, VC2, VC3 -/
  part1    : List DataFrame := []
  part2    : List DataFrame := []
  part3    : List DataFrame := []
  /-- the lowest number not yet received, and the number expected next: one above the highest received (R132, R133) -/
  rxNext   : Nat := 0
  rxTop    : Nat := 0
  held     : List DataFrame := []
  /-- granules of the packet being received on VC1, VC2, VC3 -/
  rx1      : List Granule := []
  rx2      : List Granule := []
  rx3      : List Granule := []
  delivered : List Packet := []
  /-- the number last NAKed, and the NAKs sent for it (R133) -/
  nakSeq   : Nat := 0
  nakTries : Nat := 0
  /-- slots since that NAK went out (R133) -/
  sinceNak : Nat := 0
  /-- slots since the last `ACK_NAK`, and whether a data frame has come since (R133) -/
  sinceAck : Nat := 0
  gotData  : Bool := false
  /-- the frames of the present slot, scrambled as on the line: one, or one `TRAIN` for each working position (R123, R149) -/
  line     : List (BitVec 320) := []
  missing  : Nat := 0
  crcRun   : Nat := 0
  slot     : Nat := 0
  /-- frame slots counted, and since which slot the oldest request of P2, P3 and P4 has waited (R321) -/
  slots    : Nat := 0
  from2    : Nat := 0
  from3    : Nat := 0
  from4    : Nat := 0
  /-- the packet being sent on VC2 is replay (P3); this slot's frame went ahead of its class (R321) -/
  replay2  : Bool := false
  early    : Bool := false
  /-- that packet is capture traffic of a strict sheaf; the slots which such traffic took in the last 1 ms, newest first (R393) -/
  strict2  : Bool := false
  bursts   : List Nat := []
  deriving DecidableEq, Repr
/-- Beats and blocks (R135 to R138, R156, R476). -/
structure BeatPath where
  txIndex  : Nat := 0
  txBlock  : Nat := 0
  /-- beats of the block being sent, latest first -/
  txBeats  : List Gran := []
  /-- the 32-bit tag of the previous sent block -/
  txTag    : Nat := 0
  /-- (index, pod time) of the last 64 beats sent, latest first (R156) -/
  sent     : List (Nat × Nat) := []
  rxBlock  : Nat := 0
  /-- a first beat with index 0 has come since the link came UP (R138) -/
  rxOn     : Bool := false
  /-- this end's own step count at the last beat (R159) -/
  ownCount : BitVec 16 := 0#16
  /-- decodable beats of the current block, (index, data), latest first -/
  rxBeats  : List (Nat × Gran) := []
  /-- usable pairs (t2, 2θ, ρ) of the current block -/
  pairs    : List (Nat × Int × Int) := []
  /-- the block awaiting its tag: its beats, pairs, and whether any beat was lost -/
  waitBeats : List (Nat × Gran) := []
  waitPairs : List (Nat × Int × Int) := []
  waitAny   : Bool := false
  waitNum   : Nat := 0
  /-- tag slices gathered from the next block -/
  waitTag   : Nat := 0
  /-- the step count or the source's changed in the block (R159) -/
  mixed     : Bool := false
  waitMixed : Bool := false
  prevMixed : Bool := false
  /-- this end's step count in the block that waits (R159) -/
  waitOwn   : BitVec 16 := 0#16
  srcCount  : BitVec 16 := 0#16
  waitCount : BitVec 16 := 0#16
  srcState  : Nat := 2
  lastRxTime  : Nat := 0
  lastRxIndex : Nat := 0
  lastRxValid : Bool := false
  /-- TAG_FAIL events in the current second of pod time, and that second (R479) -/
  tagFailSec : Nat := 0
  tagFails   : Nat := 0
  /-- beats since TIME_INFO, STEP_NOTICE and STRICT_REPORT were last sent (R139) -/
  sinceInfo  : Nat := 0
  deriving DecidableEq, Repr
/-- Fibre calibration and turnaround slots (R144 to R148). -/
structure CalPath where
  resA     : List Nat := []
  resB     : List Nat := []
  missA    : Nat := 0
  missB    : Nat := 0
  /-- results of the present CALIBRATING attempt, both fibres -/
  tryA     : List Nat := []
  tryB     : List Nat := []
  farA     : Nat := 0
  farB     : Nat := 0
  farValidA : Bool := false
  farValidB : Bool := false
  slots    : Nat := 0
  attempts : Nat := 0
  slotBeat : Nat := 0
  slotOpen : Bool := false
  deferred : Bool := false
  /-- the time-clock edge on which the last slot fell due (R144, R146) -/
  dueAt    : Nat := 0
  /-- slots until this end's burst starts, once `SLOT_BEAT` has passed, and its `ECHO` frames left to send (R145) -/
  echoWait : Option Nat := none
  echoLeft : Nat := 0
  /-- a burst of this end is being timed (R145) -/
  echoOn   : Bool := false
  calFast  : Bool := false
  /-- SerDes fixed-latency offset added to BEAT_TIME, in 1/65,536 ns (R136) -/
  serdes   : Nat := 0
  /-- near-end factory offsets in 1/65,536 ns (R147) -/
  tNear    : Nat := 0
  rNear    : Nat := 0
  /-- this end's loopback latency in ps (R139, R147) -/
  loopNear : Nat := 0
  /-- the factory block holds no offsets for this port: it runs CAL_DEGRADED (R460) -/
  noOffsets : Bool := false
  deriving DecidableEq, Repr
/-- Link keys (R475 to R478). -/
structure KeyPath where
  keyGen   : Nat := 0
  key      : Option Bytes := none
  oldKey   : Option Bytes := none
  newKey   : Option Bytes := none
  newGen   : Nat := 0
  nonceOwn : Nat := 0
  nonceFar : Nat := 0
  farKeyId : Nat := 0
  wrapLo   : Nat := 0
  authenticated   : Bool := false
  unauthenticated : Bool := false
  switchAt : Option Nat := none
  rekeying : Bool := false
  fails    : Nat := 0
  blocks   : Nat := 0
  /-- the time-clock edges of the last `WRAP_HI` sent (R475) and of a rekey that failed (R477) -/
  wrapAt   : Nat := 0
  failAt   : Option Nat := none
  /-- an accepted `KEY_ROTATE` asks for a rekey (R477) -/
  rotate   : Bool := false
  deriving DecidableEq, Repr
/-- A leaky bucket (R376, R379). -/
structure Bucket where
  level   : Nat := 0
  armed   : Bool := true
  ovfSeen : Bool := false
  deriving DecidableEq, Repr
/-- A Skellet port: the registers of R153 and everything behind them. -/
structure Port where
  state       : LinkState := .down
  mode        : LinkMode := .dual
  pairSwapped : Bool := false
  calDegraded : Bool := false
  spanOver    : Bool := false
  cause       : Nat := 0
  laneFault   : Nat := 0
  delayA      : Nat := 0
  delayB      : Nat := 0
  rxPowerA    : Nat := 0x8000
  rxPowerB    : Nat := 0x8000
  txBiasA     : Nat := 0
  txBiasB     : Nat := 0
  /-- optics readings since the last whole hour, with their sum: received powers that saw light, and the two biases (R442) -/
  sumRxA      : Nat × Int := (0, 0)
  sumRxB      : Nat × Int := (0, 0)
  sumBias     : Nat × Nat × Nat := (0, 0, 0)
  crcErr      : Ctr := {}
  corrected   : Ctr := {}
  retry       : Ctr := {}
  downCount   : Ctr := {}
  blockDrop   : Ctr := {}
  tagFail     : Ctr := {}
  badType     : Ctr := {}
  turnForced  : Ctr := {}
  /-- this port's code engine failed its self-test: parity fallback (R374) -/
  fallback    : Bool := false
  trn         : Training := {}
  far         : FarEnd := {}
  dat         : DataPath := {}
  beat        : BeatPath := {}
  cal         : CalPath := {}
  key         : KeyPath := {}
  bucket      : Bucket := {}
  /-- the time-clock edges on which the port entered its present state, and on which its last light went (R149) -/
  since       : Nat := 0
  darkAt      : Nat := 0
  /-- the STRICT_REPORT last received from below (R56) -/
  strictBelow : Bool := false
  /-- FORECAST_d word of this port (R445): FC_MASK and days -/
  forecast    : Nat := 0xFFFF0000
  deriving DecidableEq, Repr

/-! ### Source loop -/
/-- Domain states (R167). -/
inductive DomState where
  | absent
  | training
  | calibrating
  | acquiring
  | locked
  | coasting
  | faulted
  deriving DecidableEq, Repr
/-- One domain's servo (R160 to R167, R184). Offsets in 1/65,536 ns; frequencies in parts of 10^18. -/
structure DomLoop where
  state     : DomState := .absent
  srcState  : Nat := 2
  gear      : Nat := 3
  cause     : Nat := 0
  theta     : Int := 0
  freq      : Int := 0
  integ     : Int := 0
  rho       : Int := 0
  sigma     : Nat := 0
  coastCtr  : Ctr := {}
  /-- the first blocks of wide acquisition: (reference instant, θ), latest first (R163) -/
  fit       : List (Nat × Int) := []
  seeded    : Bool := false
  /-- consecutive usable blocks meeting R164 in gear 0 -/
  qual      : Nat := 0
  noRel     : Nat := 0
  rttBad    : Nat := 0
  noisy     : Nat := 0
  fromCoast : Bool := false
  srcCount  : BitVec 16 := 0#16
  /-- the time-clock edge on which the present gear began (R163), and that since which the source has sent 0b001 (R169) -/
  gearAt    : Nat := 0
  oneSince  : Option Nat := none
  /-- the reference instant of the last block used, in 1/65,536 ns, from which θ̂ is extrapolated (R170) -/
  refAt     : Nat := 0
  deriving DecidableEq, Repr

end Sys2Proof.Machine
end

