-- ==== Sys2Proof/Machine/TimeOps.lean ====
section
/-! DEFINITION. What the time core of a unit does (R47 to R72): one time-clock edge, the arrival of an instant, step notices, slews,
UTC-offset changes, saturation, and the words of the time registers. -/
namespace Sys2Proof.Machine

/-- The accumulator's largest value: pod time sticks at all-ones (R69). -/
def accMax : Nat := 2 ^ 104 - 1
/-- The accumulator value of a pod time in ns. -/
def accOfNs (ns : Nat) : Nat := ns * 2 ^ 40
/-- Pod time's largest value in ns. -/
def nsMax : Nat := 2 ^ 64 - 1

/-- ρ in ppm (R61): of the mill's image, which a mill reads itself. No message carries it to the units below, so at those it is a constant
from 1 to 10 that nothing fixes. DESIGN CHOICE (assumption 13). -/
def slewRate (t : TimeCore) : Nat := if t.slewPpm = 0 then 1 + Config.millSlewPpm % 10 else t.slewPpm
/-- Is a slew in progress (R61)? -/
def TimeCore.slewing (t : TimeCore) : Bool := !t.slews.isEmpty
/-- What a slew takes from one edge's increment (R61, R72): ρ of the rate word, never more than the slew that runs has left to absorb. -/
def slewTake (t : TimeCore) : Nat :=
  match t.slews with
  | [] => 0
  | s :: _ => satN s.2 (t.rate * slewRate t / 1000000)
/-- One edge of the time clock (R72, R69): the accumulator adds the rate word, less the slew's part, and sticks at all-ones. -/
def timeEdge (t : TimeCore) : TimeCore :=
  { t with acc := satN accMax (t.acc + (t.rate - slewTake t)), edges := t.edges + 1,
           slews := match t.slews with | [] => [] | s :: r => (s.1, s.2 - slewTake t) :: r }
/-- The unit's own clock: ns since reset, by time-clock edges at their nominal 781.25 ps, which no step or slew moves. Timers run on it. -/
def TimeCore.clock (t : TimeCore) : Nat := t.edges * 25 / 32
/-- The first edge on which that clock has reached `ns`. -/
def edgeAt (ns : Nat) : Nat := (ns * 32 + 24) / 25
/-- Has pod time reached `ns`? -/
def reached (t : TimeCore) (ns : Nat) : Bool := decide (accOfNs ns ≤ t.acc)
/-- More edges than pod time needs to reach `ns`, if no change of the rate or of pod time comes between: an edge adds at least the rate word
less 10 ppm of it. -/
def edgesTo (t : TimeCore) (ns : Nat) : Nat := (accOfNs ns - t.acc) / (t.rate - t.rate / 100000 - 1) + 2

/-- How many edges slews may still last (R61): what is left of each over what an edge takes. -/
def slewEdges (t : TimeCore) : Nat := (t.slews.map (fun s => s.2 / max 1 (t.rate * slewRate t / 1000000) + 2)).sum

/-- The values an event about a change carries (R64): T_s, Δ, the source. -/
def noticeVals (n : Notice) : List Nat := [n.at_, ofSigned 64 n.delta, n.src]
/-- An event about a change. -/
def noticeEv (e : Ev) (n : Notice) : EvRec := { ev := e, vals := noticeVals n }
/-- Record a notice as applied: its count becomes the unit's own if higher (R69), and the last four are kept (R591). -/
def markApplied (t : TimeCore) (n : Notice) : TimeCore :=
  { t with stepCount := if serHigher n.count t.stepCount then n.count else t.stepCount, applied := (n :: t.applied).take 4 }
/-- Apply a change now (R57, R61, R63): a forward step jumps, a negative Δ starts a slew behind any that runs, a UTC-offset change adds. -/
def applyNotice (t : TimeCore) (n : Notice) : TimeCore × List EvRec :=
  match n.target with
  | .utc => ({ markApplied t n with utcOffset := t.utcOffset + n.delta }, [noticeEv .utcStepped n])
  | .podTime =>
    if 0 ≤ n.delta then
      ({ markApplied t n with acc := satN accMax (t.acc + n.delta.toNat * 2 ^ 24) }, [noticeEv .stepApplied n])
    else
      ({ markApplied t n with slews := t.slews ++ [(n, n.delta.natAbs * 2 ^ 24)] }, [])
/-- Apply a change late (R58): `STEP_LATE`, then as `applyNotice`. -/
def applyLate (t : TimeCore) (n : Notice) : TimeCore × List EvRec :=
  let r := applyNotice t n
  (r.1, noticeEv .stepLate n :: r.2)
/-- Do one thing after another to a time core, with the events of both. -/
def andThen (x : TimeCore × List EvRec) (f : TimeCore → TimeCore × List EvRec) : TimeCore × List EvRec :=
  let r := f x.1
  (r.1, x.2 ++ r.2)
/-- Insert a UTC-offset change by T_s, then by step count (R67). -/
def insNotice (n : Notice) : List Notice → List Notice
  | [] => [n]
  | m :: ms => if n.at_ < m.at_ ∨ (n.at_ = m.at_ ∧ serHigher m.count n.count) then n :: m :: ms else m :: insNotice n ms
/-- Is a notice of this count held, or has it been applied (R58, R590)? -/
def noticeKnown (t : TimeCore) (n : Notice) : Bool :=
  decide (t.pendPod.map Notice.count = some n.count) || (t.pendUtc ++ t.early ++ t.applied).any (fun m => decide (m.count = n.count)) ||
  !serHigher n.count t.stepCount
/-- Has a notice's T_s passed with nothing to wait for (R58, R590)? A pod-time change waits for the end of a slew. -/
def noticeDue (t : TimeCore) (n : Notice) : Bool := reached t n.at_ && !(decide (n.target = .podTime) && t.slewing)
/-- Hold a notice, or apply it late when its T_s has passed. -/
def holdNotice (n : Notice) (t : TimeCore) : TimeCore × List EvRec :=
  if noticeDue t n then applyLate t n
  else match n.target with
    | .podTime => ({ t with pendPod := some n }, [])
    | .utc => ({ t with pendUtc := insNotice n t.pendUtc }, [])
/-- Make room for a notice (R204, R590): a pending pod-time change, or the earlier of two UTC-offset changes, is applied at once. -/
def makeRoom (n : Notice) (t : TimeCore) : TimeCore × List EvRec :=
  match n.target with
  | .podTime =>
    match t.pendPod with
    | some p => applyLate { t with pendPod := none } p
    | none => (t, [])
  | .utc =>
    match t.pendUtc with
    | a :: b :: rest => applyLate { t with pendUtc := b :: rest } a
    | _ => (t, [])
/-- A notice not known before is taken (R58, R590, R204). DEDUCED (assumption 13): a pod-time notice whose count is lower than that of the one
pending comes first of the two, so it is applied at once and the pending one stays. -/
def takeNotice (n : Notice) (t : TimeCore) : TimeCore × List EvRec :=
  if n.target = .podTime ∧ t.pendPod.any (fun p => serHigher p.count n.count) then applyLate t n
  else andThen (makeRoom n t) (holdNotice n)
/-- A notice reaches the unit (R54, R58, R590): one held or applied before is ignored; before the first lock it is only kept. -/
def receiveNotice (t : TimeCore) (n : Notice) : TimeCore × List EvRec :=
  if noticeKnown t n && t.valid then (t, [])
  else if t.valid then takeNotice n t
  else ({ t with early := if t.early.any (fun m => decide (m.count = n.count)) then t.early else insNotice n t.early }, [])
/-- A higher step count is heard in a beat (R58): a held notice of up to that count whose T_s has passed is applied late, but for one that
waits on a slew (R590). -/
def hearCount (t : TimeCore) (c : BitVec 16) : TimeCore × List EvRec :=
  if t.valid && serHigher c t.stepCount then
    let due := fun (m : Notice) => !serHigher m.count c && noticeDue t m
    (t.pendPod.toList.filter due ++ t.pendUtc.filter due).foldl (fun a m => andThen a (fun x => applyLate x m))
      ({ t with pendPod := t.pendPod.filter (fun m => !due m), pendUtc := t.pendUtc.filter (fun m => !due m) }, [])
  else (t, [])
/-- Pod time has reached T_s of the held pod-time notice (R57, R61): it is applied, but not while a slew is in progress (R590). -/
def stepInstant (t : TimeCore) : TimeCore × List EvRec :=
  match t.pendPod with
  | none => (t, [])
  | some p => if noticeDue t p then applyNotice { t with pendPod := none } p else (t, [])
/-- Pod time has reached T_s of UTC-offset changes (R63): each is applied, those of one instant as their sum, and reported separately. -/
def utcInstant (t : TimeCore) : TimeCore × List EvRec :=
  let due := fun (m : Notice) => reached t m.at_
  (t.pendUtc.filter due).foldl (fun a m => andThen a (fun x => applyNotice x m)) ({ t with pendUtc := t.pendUtc.filter (fun m => !due m) }, [])
/-- The slew that runs has absorbed |Δ| (R61, R64); after the last, the rate is steady again and a pod-time notice that waited is applied late
(R590). -/
def slewEnd (t : TimeCore) : TimeCore × List EvRec :=
  match t.slews with
  | [] => (t, [])
  | s :: rest =>
    if s.2 ≠ 0 then (t, [])
    else
      andThen ({ t with slews := rest }, [noticeEv .slewDone s.1]) (fun x =>
        match x.pendPod with
        | some p => if noticeDue x p then applyLate { x with pendPod := none } p else (x, [])
        | none => (x, []))
/-- Pod time has reached all-ones and sticks (R69). -/
def timeSaturate (t : TimeCore) : TimeCore × List EvRec :=
  if t.acc = accMax ∧ !t.saturated then ({ t with saturated := true }, [{ ev := .timeSaturated }]) else (t, [])
/-- The first lock after reset (R54): the counter takes the domain's pod time and the source's step count; notices kept up to that
count are recorded as applied, and the others are taken, late where their T_s has passed. -/
def firstLock (t : TimeCore) (pod : Nat) (c : BitVec 16) : TimeCore × List EvRec :=
  let old := t.early.filter (fun m => !serHigher m.count c)
  let keep := t.early.filter (fun m => serHigher m.count c)
  keep.foldl (fun a m => andThen a (takeNotice m))
    ({ t with acc := satN accMax (pod * 2 ^ 24), valid := true, stepCount := c, early := [], applied := (old.reverse ++ t.applied).take 4 }, [])

/-- One time-clock edge with what falls due on it (R57, R61, R63, R69): the end of a slew, the pending pod-time change, UTC-offset changes,
and saturation. -/
def timeTick (t : TimeCore) : TimeCore × List EvRec :=
  andThen (andThen (andThen (andThen (timeEdge t, []) slewEnd) stepInstant) utcInstant) timeSaturate

/-- How far an operation jumped the counter forward (R57, R58): the sum of the forward pod-time steps it applied. -/
def forwardJump (before after : TimeCore) : Nat :=
  ((after.applied.filter (fun n => !before.applied.contains n && decide (n.target = .podTime))).map (fun n => n.delta.toNat)).sum
/-- Does `ns` lie in the skipped interval of the held forward step (R57)? Then the first whole ns at or after its end (R60). -/
def skipTarget (t : TimeCore) (ns : Nat) : Option Nat :=
  match t.pendPod with
  | some p =>
    if 0 < p.delta ∧ p.at_ ≤ ns ∧ ns * 65536 < p.at_ * 65536 + p.delta.toNat
    then some ((p.at_ * 65536 + p.delta.toNat + 65535) / 65536) else none
  | none => none
/-- Is any notice held and not yet applied (R66 `STEP_PENDING`)? -/
def stepPending (t : TimeCore) : Bool := t.pendPod.isSome || !t.pendUtc.isEmpty || !t.early.isEmpty
/-- The pending notices 0 to 2, ascending T_s, then ascending step count (R67). -/
def pendingNotices (t : TimeCore) : List Notice := ((t.pendPod.toList ++ t.early).foldr insNotice t.pendUtc).take 3
/-- A UTC offset as the register shows it (R50). -/
def utcWord (t : TimeCore) : Word := BitVec.ofNat 64 (ofSigned 64 t.utcOffset)
/-- `LEAP_INFO` (R67). -/
def leapWord (t : TimeCore) : Word := BitVec.ofNat 64 t.leap.toNat
/-- `STEP_AT`, `STEP_AT_1`, `STEP_AT_2` (R67). -/
def stepAtWord (t : TimeCore) (i : Nat) : Word := BitVec.ofNat 64 (((pendingNotices t)[i]?).map Notice.at_ |>.getD 0)
/-- `STEP_DELTA`, `STEP_DELTA_1`, `STEP_DELTA_2` (R67). -/
def stepDeltaWord (t : TimeCore) (i : Nat) : Word :=
  BitVec.ofNat 64 (ofSigned 64 (((pendingNotices t)[i]?).map Notice.delta |>.getD 0))
/-- The target bit of pending notice i (R67). -/
def stepTargetBit (t : TimeCore) (i : Nat) : Nat :=
  match (pendingNotices t)[i]? with
  | some n => (match n.target with | .podTime => 0 | .utc => 1)
  | none => 0
/-- `STEP_INFO` (R67). -/
def stepInfoWord (t : TimeCore) : Word :=
  layW [⟨0, 16, t.stepCount.toNat⟩, ⟨16, 1, stepTargetBit t 0⟩, ⟨17, 1, stepTargetBit t 1⟩, ⟨18, 1, stepTargetBit t 2⟩,
    ⟨19, 2, (pendingNotices t).length⟩]

end Sys2Proof.Machine
end

