-- ==== Sys2Proof/Machine/PortOps.lean ====
section
/-! DEFINITION. What one Skellet port does, for a leaf and a channel alike (R123 to R155): training, the data path with retry and
credit, beats and blocks, turnaround results, buckets, and the port register words. -/
namespace Sys2Proof.Machine

/-! ### Causes (R154) -/
def causeLos : Nat := 0x01
def causeFrameLock : Nat := 0x02
def causeSeqLost : Nat := 0x03
def causeRetry : Nat := 0x04
def causeEcho : Nat := 0x05
def causeDomain : Nat := 0x06
def causeRole : Nat := 0x07
def causeSplit : Nat := 0x08
def causeDuplicate : Nat := 0x09
def causeSpan : Nat := 0x0A
def causeNoPath : Nat := 0x0B
def causeUnstable : Nat := 0x0C
def causeTdc : Nat := 0x0D
def causeKey : Nat := 0x0E

/-- A result with the events it raised. -/
abbrev Evd (α : Type) := α × List EvRec

/-! ### Buckets (R376) -/
/-- An overflow was counted: whether `BUCKET_OVERFLOW` is raised. -/
def bucketAdd (b : Bucket) : Bucket × Bool :=
  if b.level < 32 then ({ b with level := b.level + 1 }, false)
  else ({ b with armed := false, ovfSeen := true }, b.armed)
/-- One leak; at level 16 the interrupt re-arms (R376, R69). -/
def bucketLeak (b : Bucket) : Bucket :=
  { b with level := b.level - 1, armed := if b.level - 1 ≤ 16 then true else b.armed }
/-- `BUCKET_n` (R379). -/
def bucketWord (b : Bucket) : Word := layW [⟨0, 6, b.level⟩, ⟨6, 1, b2n b.armed⟩, ⟨7, 1, b2n b.ovfSeen⟩]
/-- Feed a port's bucket with one correction. -/
def portBucket (ix : Nat) (p : Port) : Evd Port :=
  let r := bucketAdd p.bucket
  ({ p with bucket := r.1, corrected := ctrInc p.corrected },
    if r.2 then [{ ev := .bucketOverflow, index := ix, vals := [ix] }] else [])

/-! ### State changes (R149) -/
/-- A port event carrying the port, with the cause as its detail (R155, R521). -/
def portEv (e : Ev) (ix c : Nat) : EvRec := { ev := e, index := ix, detail := c, vals := [ix, c] }
/-- What entering DOWN discards (R152): transmit store, replay buffer, partial and queued packets; keys are dropped (R477), and what the
last training learned. The light on the receivers and the run of slots are the line's own. -/
def portDiscard (p : Port) : Port :=
  { p with dat := { delivered := p.dat.delivered, line := p.dat.line, slot := p.dat.slot },
           beat := { tagFailSec := p.beat.tagFailSec, tagFails := p.beat.tagFails },
           cal := { p.cal with slotOpen := false, deferred := false, echoWait := none, echoLeft := 0, echoOn := false },
           key := {}, strictBelow := false, trn := { light := p.trn.light }, far := {} }
/-- The port goes DOWN with a cause (R149, R152). -/
def portDown (ix c : Nat) (p : Port) : Evd Port :=
  if p.state = .down then (p, [])
  else
    ({ portDiscard p with state := .down, cause := c,
                          downCount := if p.state = .up then ctrInc p.downCount else p.downCount },
      if p.state = .up then [portEv .linkDown ix c] else [])
/-- The port goes FAULTED with a cause (R149). -/
def portFault (ix c : Nat) (p : Port) : Evd Port :=
  ({ portDiscard p with state := .faulted, cause := c }, [portEv .linkFaulted ix c])
/-- Training starts (R149): from DOWN on light, from FAULTED on the retry, or again after 50 ms. The results of an earlier calibration go, so
that the next span is judged on its own (R26, R147). -/
def portTrain (light : Nat) (p : Port) : Port :=
  let q := portDiscard p
  { q with state := .training, trn := { light := light }, calDegraded := p.cal.noOffsets, pairSwapped := false, delayA := 0, delayB := 0,
           cal := { q.cal with tryA := [], tryB := [], attempts := 0, resA := [], resB := [], missA := 0, missB := 0,
                               farValidA := false, farValidB := false, slots := 0 } }
/-- Is everything training must finish done (R149)? -/
def trainingDone (p : Port) : Bool :=
  decide (p.state = .training) && p.trn.modeChosen && p.far.known && p.far.params &&
  (p.key.authenticated || p.key.unauthenticated)
/-- TRAINING ends in CALIBRATING once the mode is chosen, the identities pass, and parameters and key are in (R149). -/
def portCalibrate (p : Port) : Port := if trainingDone p then { p with state := .calibrating } else p

/-- Note when a port enters a state, when its last light goes (R149), when its `WRAP_HI` goes out, and when a rekey has failed (R475, R477). -/
def portMark (edges : Nat) (old new : Port) : Port :=
  { new with since := if old.state ≠ new.state then edges else new.since,
             darkAt := if old.trn.light ≠ 0 ∧ new.trn.light = 0 then edges else new.darkAt,
             key := if old.key.newKey.isNone && new.key.newKey.isSome then { new.key with wrapAt := edges }
               else if old.key.fails < new.key.fails then { new.key with failAt := some edges } else new.key }

/-! ### Modes (R141 to R143) -/
/-- Light downward on fibre A reaches the lower end. -/
def dnA (p : Port) : Bool := decide (p.trn.farSeen % 4 ≠ 0)
/-- Light downward on fibre B reaches the lower end. -/
def dnB (p : Port) : Bool := decide (p.trn.farSeen / 4 ≠ 0)
/-- Light upward arrives on the upper end's position A. -/
def upA (p : Port) : Bool := p.trn.seen.testBit 0 || p.trn.seen.testBit 2
/-- Light upward arrives on the upper end's position B. -/
def upB (p : Port) : Bool := p.trn.seen.testBit 1 || p.trn.seen.testBit 3
/-- The upper end's choice of mode, with CAL_DEGRADED; `none` is NO_PATH (R142). -/
def chooseMode (p : Port) : Option (LinkMode × Bool) :=
  if (dnA p && upA p) && (dnB p && upB p) then some (.dual, false)
  else if dnA p && upA p then some (.singleA, false)
  else if dnB p && upB p then some (.singleB, false)
  else if dnA p && upB p then some (.dual, true)
  else none
/-- At the lower end: are both fibres whole, by what it sees and what the upper end reports (R142)? -/
def lowerWhole (p : Port) : Bool :=
  decide (p.trn.seen % 4 ≠ 0) && decide (p.trn.seen / 4 ≠ 0) && (p.trn.farSeen.testBit 0 || p.trn.farSeen.testBit 2) &&
  (p.trn.farSeen.testBit 1 || p.trn.farSeen.testBit 3)
/-- The code of a mode in a TRAIN frame [14:13] (R149). -/
def modeCode : LinkMode → Nat
  | .dual => 1
  | .singleA => 2
  | .singleB => 3
/-- Is fibre A in use, and fibre B? -/
def usesA (m : LinkMode) : Bool := match m with | .singleB => false | _ => true
def usesB (m : LinkMode) : Bool := match m with | .singleA => false | _ => true
/-- The bit of TRAIN [12:9] for far position `far` seen on own position `own` (R149). -/
def seenBit (far own : Nat) : Nat := 1 <<< (2 * far + own)
/-- A single mode is reported, and the fibre that is open (R142, R151). -/
def modeEvs (ix : Nat) (m : LinkMode) : List EvRec :=
  if m = .dual then [] else [portEv .fibreOpen ix 0, portEv .singleFibre ix 0]
/-- A TRAIN frame on own position `own`: frame lock, from which slots count (R135), what is seen, what the far end reports, and at the lower
end the mode the upper end proposes and a swapped pair (R142, R143, R149). -/
def trainFrame (upper : Bool) (ix own : Nat) (g : Gran) (testsDone : Bool) (p : Port) : Evd Port :=
  if p.state ≠ .training then (p, [])
  else
    let trn1 := { p.trn with frameLock := true, seen := p.trn.seen ||| seenBit (gf g 8 8) own, farSeen := gf g 12 9,
                             farCause := gf g 23 16 }
    let p1 := { p with trn := trn1, dat := { p.dat with slot := if p.trn.frameLock then p.dat.slot else 0 } }
    if upper then
      if testsDone && !p1.trn.modeChosen then
        match chooseMode p1 with
        | none => portFault ix causeNoPath p1
        | some (m, deg) =>
          (portCalibrate { p1 with mode := m, calDegraded := deg || p1.cal.noOffsets, trn := { trn1 with modeChosen := true } },
            modeEvs ix m)
      else (p1, [])
    else
      let swapped := trn1.seen.testBit 1
      let evs := if swapped && !p.pairSwapped then [portEv .pairSwapped ix 0] else []
      if gbit g 15 && decide (gf g 14 13 ≠ 0) then
        let m := if gf g 14 13 = 1 then LinkMode.dual else if gf g 14 13 = 2 then .singleA else .singleB
        (portCalibrate { p1 with mode := m, pairSwapped := swapped, calDegraded := (decide (m = .dual) && !lowerWhole p1) || p1.cal.noOffsets,
                                 trn := { trn1 with modeChosen := true } },
          evs ++ (if p.trn.modeChosen then [] else modeEvs ix m))
      else ({ p1 with pairSwapped := swapped }, evs)

/-! ### Messages (R139) -/
/-- Queue a link-control message; VC0 needs no credit (R130). -/
def portCtrl (g : Gran) (p : Port) : Port := { p with dat := { p.dat with ctrlQ := p.dat.ctrlQ ++ [g] } }
/-- Does a port carry link-control messages of a running link? -/
def ctrlLive (p : Port) : Bool := decide (p.state = .calibrating ∨ p.state = .up)
/-- Queue a packet; only a port that is UP carries data frames (R149). -/
def portSend (k : Packet) (p : Port) : Port :=
  if p.state = .up then { p with dat := { p.dat with txQ := p.dat.txQ ++ [k] } } else p
/-- The ACK_NAK message of this port's receiver (R133): ACK_SEQ is the lowest number not yet received, as is NAK_SEQ. -/
def ackNakMsg (p : Port) (nak : Bool) : Gran :=
  lay [⟨0, 8, 1⟩, ⟨8, 64, p.dat.rxNext⟩, ⟨72, 64, if nak then p.dat.rxNext else 0⟩, ⟨136, 1, b2n nak⟩]
/-- The fields of an IDENT message (R139). -/
def identFar (g : Gran) (f : FarEnd) : FarEnd :=
  { f with serial := gf g 71 8, role := gf g 73 72, domain := gf g 74 74, fpa := gf g 106 75, version := gf g 114 107,
           redVer := gf g 118 115, known := true }
/-- LINK_PARAMS (R131, R139, R374): the far end's loopback latency, buffers (this end's credit), and parity mode. -/
def linkParams (g : Gran) (p : Port) : Port :=
  if p.state ≠ .training then p
  else portCalibrate
    { p with far := { p.far with loopback := gf g 23 8, buf1 := gf g 39 24, buf2 := gf g 55 40, buf3 := gf g 71 56,
                                 parity := gbit g 72, params := true },
             dat := { p.dat with credit1 := gf g 39 24, credit2 := gf g 55 40, credit3 := gf g 71 56 } }
/-- Does this link run in parity fallback, at either end (R374)? -/
def linkParity (p : Port) : Bool := p.fallback || p.far.parity

/-! ### Receiving data frames (R128, R131 to R133) -/
/-- Apply a frame's credit field (R125, R131). -/
def applyCredit (f : Frame) (d : DataPath) : DataPath :=
  if f.creditValid then
    match f.creditVc with
    | 1 => { d with credit1 := d.credit1 + f.creditCount + 1 }
    | 2 => { d with credit2 := d.credit2 + f.creditCount + 1 }
    | 3 => { d with credit3 := d.credit3 + f.creditCount + 1 }
    | _ => d
  else d
/-- The first of some sequence numbers under which a granule decodes (R132). -/
def findSeq (par : Bool) (g : Nat) : List Nat → Option (Nat × CodeOutcome)
  | [] => none
  | c :: cs =>
    let o := linkOutcome par g (c % 2 ^ 40)
    if codeUsable o then some (c, o) else findSeq par g cs
/-- One delivered frame joins its VC's packet; a TAIL or SOLO completes it (R127, R129). The buffer slot's credit is owed back. -/
def deliverFrame (d : DataPath) (f : DataFrame) : DataPath :=
  let gr : Granule := { data := f.data, poison := f.poison }
  let cur := if f.vc = 1 then d.rx1 else if f.vc = 2 then d.rx2 else d.rx3
  let acc := if f.ftype = 3 ∨ f.ftype = 4 then [gr] else cur ++ [gr]
  let done := decide (f.ftype = 4 ∨ f.ftype = 6)
  let d1 := { d with owed := d.owed ++ [f.vc],
                     delivered := if done then d.delivered ++ [({ vc := f.vc, grans := acc } : Packet)] else d.delivered }
  let rest := if done then [] else acc
  if f.vc = 1 then { d1 with rx1 := rest } else if f.vc = 2 then { d1 with rx2 := rest } else { d1 with rx3 := rest }
/-- Deliver held frames in sequence order while the next one is there; `n` bounds the run. -/
def deliverRun : Nat → DataPath → DataPath
  | 0, d => d
  | n + 1, d =>
    match d.held.find? (fun f => decide (f.seq = d.rxNext)) with
    | none => d
    | some f => deliverRun n { deliverFrame d f with held := d.held.filter (fun h => decide (h.seq ≠ f.seq)), rxNext := d.rxNext + 1 }
/-- The message that this receiver owes goes out (R133): an acknowledgement, or with `nak` a NAK for the lowest number not yet received. -/
def sendAck (nak : Bool) (p : Port) : Port :=
  { p with dat := { p.dat with ctrlQ := p.dat.ctrlQ ++ [ackNakMsg p nak], sinceAck := 0, gotData := false } }
/-- A missing or failed frame is NAKed (R133). A NAK that other frames bring about for a number already NAKed is no repeat of it. -/
def sendNak (p : Port) : Port :=
  let q := sendAck true p
  if p.dat.nakTries ≠ 0 ∧ p.dat.nakSeq = p.dat.rxNext then q
  else { q with dat := { q.dat with nakSeq := p.dat.rxNext, nakTries := 1, sinceNak := 0 } }
/-- A NAK is repeated, its frame not having landed (R133): after the 8th for one number the link goes DOWN. -/
def nakAgain (ix : Nat) (p : Port) : Evd Port :=
  if p.dat.rxNext ≠ p.dat.nakSeq ∨ p.dat.nakTries = 0 then (p, [])
  else if 8 ≤ p.dat.nakTries then portDown ix causeRetry p
  else
    let q := sendAck true p
    ({ q with dat := { q.dat with nakTries := q.dat.nakTries + 1, sinceNak := 0 } }, [])
/-- A NAK is due again (R133): a round trip and 1 µs have passed since it went out, in frame slots of 12.5 ns. -/
def nakDue (p : Port) : Bool := decide (((p.delayA + p.delayB) / 65536 + 1000) * 2 / 25 ≤ p.dat.sinceNak)
/-- Does a NAK stand whose frame has not landed (R133)? -/
def nakOpen (p : Port) : Bool := decide (p.dat.nakTries ≠ 0) && decide (p.dat.rxNext = p.dat.nakSeq)
/-- The numbers expected next that carry these low bits (R132): up to the expected number plus 63. -/
def seqAhead (d : DataPath) (low : Nat) : List Nat :=
  let off := (low + 4 - d.rxTop % 4) % 4
  (List.range ((63 - off) / 4 + 1)).map (fun i => d.rxTop + off + 4 * i)
/-- The numbers still missing below the expected one that carry these low bits: frames NAKed, which land late (R133). -/
def seqMissing (d : DataPath) (low : Nat) : List Nat :=
  ((List.range (d.rxTop - d.rxNext)).map (fun i => d.rxNext + i)).filter
    (fun n => decide (n % 4 = low) && !d.held.any (fun h => decide (h.seq = n)))
/-- Numbers received already that carry these low bits, latest first: those held, and the last 64 delivered (R133). -/
def seqBehind (d : DataPath) (low : Nat) : List Nat :=
  (((List.range (satN d.rxTop (d.rxTop - d.rxNext + 64))).map (fun i => d.rxTop - 1 - i)).filter
    (fun n => decide (n % 4 = low))).filter (fun n => decide (n < d.rxNext) || d.held.any (fun h => decide (h.seq = n)))
/-- The order in which a receiver tries the numbers of a data frame (R132, R133). DEDUCED (assumption 14): the expected ones, then the missing
ones, then those it holds. Parity cannot tell one number from another (R374), so in parity fallback a frame that is not the expected one is
a missing one when the low bits fit one. -/
def seqOrder (par : Bool) (d : DataPath) (low : Nat) : List Nat :=
  if par && decide (d.rxTop % 4 ≠ low) then seqMissing d low ++ seqAhead d low else seqAhead d low ++ seqMissing d low ++ seqBehind d low
/-- A data frame whose number is known lands (R133): it is held until it is its turn; a new gap is NAKed, and so is the next missing frame
once one has landed. -/
def landFrame (s : Nat) (f : DataFrame) (p : Port) : Port :=
  let d := p.dat
  if s < d.rxNext ∨ d.held.any (fun h => decide (h.seq = s)) then p
  else
    let d1 := deliverRun (d.held.length + 1) { d with held := f :: d.held, rxTop := max d.rxTop (s + 1) }
    let p1 := { p with dat := d1 }
    if d.rxTop < s ∨ (s < d.rxTop ∧ d1.rxNext < d1.rxTop) then sendNak p1 else p1
/-- A data frame that decodes under no number it might have (R128, R132). DEDUCED (assumption 14): one that decodes under none but for the number
folded in means that the numbers are lost; one that is uncorrectable under each has failed, and is NAKed. -/
def dataFailed (ix : Nat) (par : Bool) (g : Nat) (ns : List Nat) (p : Port) : Evd Port × Option CodeOutcome :=
  if ns.any (fun n => decide (linkOutcome par g (n % 2 ^ 40) = .misdirected)) then (portDown ix causeSeqLost p, some .misdirected)
  else ((sendNak p, []), some .uncorrectable)
/-- A data frame on a link that is UP (R128, R132, R133); second: its granule's outcome. -/
def dataIn (ix : Nat) (f : Frame) (p : Port) : Evd Port × Option CodeOutcome :=
  let par := linkParity p
  let p1 := { p with dat := { p.dat with gotData := true } }
  let ns := seqOrder par p1.dat f.seqPar
  match findSeq par f.gran ns with
  | none => dataFailed ix par f.gran ns p1
  | some (s, o) =>
    let r := if codeFeeds o then portBucket ix p1 else (p1, [])
    ((landFrame s { seq := s, ftype := f.ftype, vc := f.vc, data := BitVec.ofNat 256 (rsCorrect f.gran o), poison := codePoisoned o } r.1, r.2),
      some o)
/-- Is the type of a link-control message reserved (R139)? -/
def ctrlReserved (ty : Nat) : Bool := decide (ty = 0) || decide (10 < ty)
/-- A frame that carries no packet data (R128, R139): its granule is decoded with zero folded in; a message of a reserved type is counted. What
a beat or a message says is its own command (assumption 32). -/
def otherIn (ix : Nat) (f : Frame) (p : Port) : Evd Port × Option CodeOutcome :=
  let o := linkOutcome (linkParity p) f.gran 0
  let r := if codeFeeds o then portBucket ix p else (p, [])
  let bad := decide (f.ftype = 2) && codeUsable o && ctrlReserved (rsCorrect f.gran o % 256)
  (if bad then ({ r.1 with badType := ctrInc r.1.badType }, r.2) else r, some o)
/-- A frame arrives, as its 320 line bits (R124 to R133, R149): on a link with frame lock every CRC failure is counted, and the 64th in a row
takes it DOWN; of those that pass, the credit is taken and the type decides. Second: the outcome of its granule. -/
def frameIn (ix : Nat) (line : BitVec 320) (p : Port) : Evd Port × Option CodeOutcome :=
  if p.state = .down ∨ p.state = .faulted then ((p, []), none)
  else
    let b := scramble line.toNat
    let f := frameOf b
    if !frameCrcOk b then
      let p1 := { p with crcErr := ctrInc p.crcErr, dat := { p.dat with crcRun := p.dat.crcRun + 1 } }
      if 64 ≤ p1.dat.crcRun then (portDown ix causeFrameLock p1, none)
      else ((if p.state = .up then sendNak p1 else p1, []), none)
    else
      let p1 := { p with dat := applyCredit f { p.dat with crcRun := 0 } }
      if 9 ≤ f.ftype then (({ p1 with badType := ctrInc p1.badType }, []), none)
      else if !isDataFrame f.ftype then otherIn ix f p1
      else if p.state = .up then dataIn ix f p1
      else ((p1, []), none)
/-- ACK_NAK (R133): every frame below ACK_SEQ leaves the transmit store; a NAKed frame goes to the replay buffer unless it is full. -/
def ackNakIn (g : Gran) (p : Port) : Port :=
  let ack := gf g 71 8
  let nak := gf g 135 72
  let d1 : DataPath := { p.dat with store := p.dat.store.filter (fun f => decide (ack ≤ f.seq)),
                                    replay := p.dat.replay.filter (fun s => decide (ack ≤ s)) }
  if gbit g 136 && d1.store.any (fun f => decide (f.seq = nak)) && !d1.replay.contains nak && decide (d1.replay.length < 64) then
    { p with dat := { d1 with replay := d1.replay ++ [nak] } }
  else { p with dat := d1 }

/-! ### Sending (R130, R131, R133): one frame slot -/
/-- Cut a packet into its data frames (R127, R129); sequence numbers are given when they are sent. -/
def packetFrames (k : Packet) : List DataFrame :=
  match k.grans with
  | [] => []
  | [g] => [{ seq := 0, ftype := 4, vc := k.vc, data := g.data, poison := g.poison }]
  | g :: gs =>
    { seq := 0, ftype := 3, vc := k.vc, data := g.data, poison := g.poison } ::
      (gs.dropLast.map (fun h => { seq := 0, ftype := 5, vc := k.vc, data := h.data, poison := h.poison }) ++
       [{ seq := 0, ftype := 6, vc := k.vc, data := (gs.getLast?.getD {}).data, poison := (gs.getLast?.getD {}).poison }])
/-- 1 ms in frame slots (R321). -/
def starveSlots : Nat := 80000
/-- The first queued packet of a class that may be sent: its VC, and for VC2 whether it is replay. -/
def takePacket (may : Packet → Bool) (vc : Nat) (replay : Bool) : List Packet → Option (Packet × List Packet)
  | [] => none
  | k :: ks =>
    if k.vc = vc ∧ k.replay = replay ∧ may k then some (k, ks)
    else (takePacket may vc replay ks).map (fun r => (r.1, k :: r.2))
/-- The next packet of VC `vc` to send: on VC2 capture goes before replay (R130), or replay before capture when it has waited 1 ms (R321). -/
def nextPacket (may : Packet → Bool) (vc : Nat) (first : Bool) (q : List Packet) : Option (Packet × List Packet) :=
  match takePacket may vc first q with
  | some x => some x
  | none => takePacket may vc (!first) q
/-- Start the next packet of VC `vc` when none is being sent, at packet boundaries (R130). -/
def refill (may : Packet → Bool) (vc : Nat) (first : Bool) (part : List DataFrame) (q : List Packet) : List DataFrame × List Packet :=
  if part.isEmpty then
    match nextPacket may vc first q with
    | some (k, q') => (packetFrames k, q')
    | none => (part, q)
  else (part, q)
/-- The slots of the last 1 ms that capture traffic of strict sheaves took (R393). -/
def burstsNow (d : DataPath) : List Nat := d.bursts.takeWhile (fun s => decide (d.slots < s + starveSlots))
/-- May a packet start now: capture traffic of strict sheaves takes 4,800 slots in any 1 ms at most (R393). -/
def mayStart (d : DataPath) (k : Packet) : Bool := !k.strict || decide ((burstsNow d).length + (packetFrames k).length ≤ 4800)
/-- The transmit-store size by role of the port (R131): leaf span, barn to yard, yard to mill. -/
def storeSize (span : Nat) : Nat := if span = 0 then 512 else if span = 1 then 1024 else 2048
/-- Receive-buffer size per VC by span (R131). -/
def bufSize (span : Nat) : Nat := if span = 0 then 256 else if span = 1 then 640 else 2048
/-- The credit field of the next frame: up to 16 slots of the VC owed first (R125). -/
def creditField (owed : List Nat) : Bool × Nat × Nat × List Nat :=
  match owed with
  | [] => (false, 0, 0, [])
  | v :: _ =>
    let n := satN 16 (owed.filter (fun w => decide (w = v))).length
    (true, v, n - 1, (owed.filter (fun w => decide (w ≠ v))) ++ List.replicate ((owed.filter (fun w => decide (w = v))).length - n) v)
/-- Put a frame in the present slot with the credit owed (R125, R131). -/
def emitFrame (par : Bool) (ftype vc seqPar fold : Nat) (data : Gran) (poison : Bool) (beatNext : Bool) (d : DataPath) : DataPath :=
  let c := creditField d.owed
  { d with owed := c.2.2.2,
           line := [frameLine { ftype := ftype, vc := vc, seqPar := seqPar, gran := linkEncode par data.toNat fold poison,
                                creditValid := c.1, creditVc := c.2.1, creditCount := c.2.2.1, beatNext := beatNext }] }
/-- Send one data frame the first time: it takes the next sequence number, one credit and a place in the store (R131 to R133). -/
def sendNew (par bn : Bool) (f : DataFrame) (d : DataPath) : DataPath :=
  let f' := { f with seq := d.txSeq }
  emitFrame par f.ftype f.vc (d.txSeq % 4) (d.txSeq % 2 ^ 40) f.data f.poison bn { d with txSeq := d.txSeq + 1, store := d.store ++ [f'] }
/-- The first frame of VC `vc` that waits in the replay buffer. -/
def resendOf (vc : Nat) (d : DataPath) : Option DataFrame :=
  (d.replay.filterMap (fun s => d.store.find? (fun f => decide (f.seq = s)))).find? (fun f => decide (f.vc = vc))
/-- One class sends in this slot, if it has a frame ready (R130, R131, R133): a frame to resend, else a new one when a credit and a place in the
store are there. Second: it is a resend. -/
def classSend (par bn full : Bool) (vc : Nat) (d : DataPath) : Option (DataPath × Bool) :=
  match resendOf vc d with
  | some f => some (emitFrame par f.ftype f.vc (f.seq % 4) (f.seq % 2 ^ 40) f.data f.poison bn { d with replay := d.replay.filter (fun s => decide (s ≠ f.seq)) }, true)
  | none =>
    if full then none
    else match vc with
      | 1 => match d.part1, d.credit1 with
        | f :: fs, c + 1 => some (sendNew par bn f { d with part1 := fs, credit1 := c }, false)
        | _, _ => none
      | 2 => match d.part2, d.credit2 with
        | f :: fs, c + 1 => some (sendNew par bn f { d with part2 := fs, credit2 := c }, false)
        | _, _ => none
      | _ => match d.part3, d.credit3 with
        | f :: fs, c + 1 => some (sendNew par bn f { d with part3 := fs, credit3 := c }, false)
        | _, _ => none
/-- The data of a `TRAIN` frame sent on own position `own` (R149). -/
def trainGran (upper : Bool) (own : Nat) (p : Port) : Gran :=
  lay [⟨8, 1, own⟩, ⟨9, 4, p.trn.seen⟩, ⟨13, 2, if upper && p.trn.modeChosen then modeCode p.mode else 0⟩, ⟨15, 1, b2n upper⟩,
       ⟨16, 8, if p.state = .faulted then p.cause else 0⟩]
/-- `TRAIN` goes out on every working transmitter (R149). -/
def trainSend (upper bn : Bool) (p : Port) : Port :=
  { p with dat := { p.dat with line := ([0, 1].filter (fun o => !p.laneFault.testBit (2 * o))).map (fun o => frameLine
    ({ ftype := 8, vc := 0, seqPar := 0, gran := linkEncode (linkParity p) (trainGran upper o p).toNat 0 false, creditValid := false,
       creditVc := 0, creditCount := 0, beatNext := bn } : Frame)) } }
/-- Packets enter their VC's sending place; a replay packet that has waited 1 ms goes before capture (R130, R321). -/
def dataReady (d : DataPath) : DataPath :=
  let late := decide (starveSlots ≤ d.slots - d.from3) && decide (d.from3 < d.from2)
  let a1 := refill (mayStart d) 1 false d.part1 d.txQ
  let a2 := refill (mayStart d) 2 late d.part2 a1.2
  let a3 := refill (mayStart d) 3 false d.part3 a2.2
  let k2 := (nextPacket (mayStart d) 2 late a1.2).map Prod.fst
  let r := if d.part2.isEmpty then k2.any Packet.replay else d.replay2
  let ahead := d.part2.isEmpty && late && r && a1.2.any (fun k => decide (k.vc = 2) && !k.replay)
  { d with part1 := a1.1, part2 := a2.1, part3 := a3.1, txQ := a3.2, replay2 := r, early := ahead,
           strict2 := if d.part2.isEmpty then k2.any Packet.strict else d.strict2 }
/-- After a slot that sent a frame of VC `sent`, 0 for none: a class that was served, or has nothing to send, waits from the next slot on (R321). -/
def dataWaits (sent : Nat) (d : DataPath) : DataPath :=
  let q := fun (rep : Bool) => d.txQ.any (fun k => decide (k.vc = 2) && decide (k.replay = rep))
  let has2 := (!d.part2.isEmpty && !d.replay2) || q false
  let has3 := (!d.part2.isEmpty && d.replay2) || q true
  let has4 := !d.part3.isEmpty || d.txQ.any (fun k => decide (k.vc = 3))
  { d with from2 := if !has2 || (decide (sent = 2) && !d.replay2) then d.slots else d.from2,
           from3 := if !has3 || (decide (sent = 2) && d.replay2) then d.slots else d.from3,
           from4 := if !has4 || decide (sent = 3) then d.slots else d.from4 }
/-- The highest-priority data frame that is ready goes out, else `IDLE` (R127, R130); a P4 frame that has waited 1 ms, and longer than the others, goes
ahead of P2 and P3 (R321). A resend is counted (R153). -/
def dataSend (span : Nat) (bn : Bool) (p : Port) : Port :=
  let par := linkParity p
  let full := decide (storeSize span ≤ p.dat.store.length)
  let d := dataReady p.dat
  let late := decide (starveSlots ≤ d.slots - d.from4) && decide (d.from4 < d.from2) && decide (d.from4 < d.from3)
  let go := fun (vc : Nat) => (classSend par bn full vc d).map (fun x => (vc, x))
  match (if late then [1, 3, 2] else [1, 2, 3]).findSome? go with
  | some (vc, x) =>
    let ahead := decide (vc = 2) && d.early || decide (vc = 3) && late && (go 2).isSome
    let took := decide (vc = 2) && !x.2 && d.strict2
    { p with dat := { dataWaits vc x.1 with early := ahead, bursts := if took then d.slots :: burstsNow d else d.bursts },
             retry := if x.2 then ctrInc p.retry else p.retry }
  | none => { p with dat := { emitFrame par 0 0 0 0 0#256 false bn (dataWaits 0 d) with early := false } }
/-- The next `ECHO` frame of a burst goes out (R127, R145). The spec does not state its data bits: they are free (assumption 14). -/
def echoSend (bn : Bool) (p : Port) : Port :=
  { p with dat := emitFrame (linkParity p) 7 0 0 0 (BitVec.ofNat 256 Config.echoData) false bn p.dat,
           cal := { p.cal with echoLeft := p.cal.echoLeft - 1 } }
/-- A burst that was waiting starts when its slot has come (R145): 16 frames, timed from now. DEDUCED (assumption 14): one that would meet the
next beat slot starts behind it, since a burst stands clear of beat slots. -/
def echoBegin (slot : Nat) (p : Port) : Port :=
  match p.cal.echoWait with
  | none => p
  | some (n + 1) => { p with cal := { p.cal with echoWait := some n } }
  | some 0 => if slot = 0 ∨ 48 < slot then p else { p with cal := { p.cal with echoWait := none, echoLeft := 16, echoOn := true } }
/-- A frame slot of a running link that is no beat slot (R127, R130, R145): a burst, then link control, then data. In CALIBRATING no data. -/
def workSlot (span : Nat) (bn : Bool) (p : Port) : Port :=
  let q := if p.dat.gotData && decide (31 ≤ p.dat.sinceAck) then sendAck false p else p
  if q.cal.echoLeft ≠ 0 then echoSend bn q
  else
    match q.dat.ctrlQ with
    | g :: l => { q with dat := emitFrame (linkParity q) 2 0 0 0 g false bn { q.dat with ctrlQ := l } }
    | [] => if q.state = .up then dataSend span bn q else { q with dat := emitFrame (linkParity q) 0 0 0 0 0#256 false bn q.dat }

/-! ### Beats (R135 to R138, R476) -/
/-- The fields of a beat that its sender's unit supplies. -/
structure BeatCtx where
  pod       : Nat
  domain    : Nat
  srcState  : Nat
  stepCount : BitVec 16
  deriving DecidableEq, Repr
/-- The granule of the next beat (R136). -/
def beatGran (c : BeatCtx) (p : Port) : Gran :=
  let j := p.beat.txIndex
  lay [⟨0, 80, c.pod + p.cal.serdes⟩, ⟨80, 1, c.domain⟩, ⟨81, 3, c.srcState⟩, ⟨84, 6, j⟩,
       ⟨90, 2, if p.key.authenticated then p.key.keyGen % 4 else 0⟩,
       ⟨92, 4, if j < 8 then bitsOf p.beat.txTag (4 * j + 3) (4 * j) else 0⟩,
       ⟨96, 16, c.stepCount.toNat⟩, ⟨112, 80, p.beat.lastRxTime⟩, ⟨192, 6, p.beat.lastRxIndex⟩, ⟨198, 1, b2n p.beat.lastRxValid⟩]
/-- The tag of a block (R476): bytes 0 to 3 of AES-256-GMAC over its 64 beats in index order. -/
def blockTag (key : Bytes) (up : Bool) (num : Nat) (beats : List Gran) : Nat :=
  leNat ((gmac key ([if up then 1#8 else 0#8, 0#8, 0#8, 0#8] ++ leBytes 8 num) (beats.flatMap granBytes)).take 4)
/-- Do two pod times name one beat (R139, R145): within half a beat interval, in the 64 bits that `SLOT_BEAT` has? -/
def sameBeat (a b : Nat) : Bool :=
  let d := (a + 2 ^ 64 - b % 2 ^ 64) % 2 ^ 64
  decide (d ≤ 400 * 65536) || decide (2 ^ 64 - 400 * 65536 ≤ d)
/-- A beat slot: the beat goes out, its time is kept (R156), and after the 64th of a block the block's tag is made (R476). Blocks are numbered
from the first with index 0 after UP (R138, R476). A rekey's switch takes effect at its block (R477). The upper end's burst starts at the 8th
slot after the beat it has announced (R145). -/
def beatSend (c : BeatCtx) (upper : Bool) (p : Port) : Port :=
  if p.state = .calibrating ∨ p.state = .up then
    let g := beatGran c p
    let j := p.beat.txIndex
    let on := decide (p.state = .up) && (decide (j = 0) || !p.beat.txBeats.isEmpty)
    let beats := if on then g :: p.beat.txBeats else []
    let last := on && decide (j = 63)
    let tag := match p.key.key with
      | some k => if p.key.authenticated then blockTag k (!upper) p.beat.txBlock beats.reverse else 0
      | none => 0
    let b := { p.beat with txIndex := (j + 1) % 64, txBeats := if last then [] else beats,
                           txBlock := if last then p.beat.txBlock + 1 else p.beat.txBlock,
                           txTag := if last then tag else p.beat.txTag,
                           sent := ((j, c.pod + p.cal.serdes) :: p.beat.sent).take 64,
                           sinceInfo := p.beat.sinceInfo + 1 }
    let k := { p.key with blocks := if last then p.key.blocks + 1 else p.key.blocks }
    let k' := match k.switchAt, k.newKey with
      | some s, some nk => if last && decide (s ≤ b.txBlock) then
          { k with key := some nk, oldKey := k.key, newKey := none, keyGen := k.newGen, switchAt := none, rekeying := false } else k
      | _, _ => k
    let starts := upper && p.cal.slotOpen && sameBeat (c.pod + p.cal.serdes) p.cal.slotBeat
    { p with beat := b, key := k', dat := emitFrame (linkParity p) 1 0 0 0 g false false p.dat,
             cal := if starts then { p.cal with slotOpen := false, echoWait := some 7 } else p.cal }
  else p
/-- The two delays a hop's measurement uses (R157): of the fibre that carries the beats received, and of the one that carries the beats sent.
In DUAL the lower end receives on fibre A and the upper end on fibre B. -/
def hopDelays (upper : Bool) (p : Port) : Nat × Nat :=
  match p.mode with
  | .dual => if upper then (p.delayB, p.delayA) else (p.delayA, p.delayB)
  | .singleA => (p.delayA, p.delayA)
  | .singleB => (p.delayB, p.delayB)
/-- The pair a beat gives (R156, R157): (t2, 2θ, ρ), when it is stamped and its LAST_RX_VALID is 1 and t3 is still on record. -/
def beatPair (upper : Bool) (p : Port) (g : Gran) (stamp : Option Nat) : Option (Nat × Int × Int) :=
  match stamp with
  | none => none
  | some t2 =>
    if gbit g 198 then
      match p.beat.sent.find? (fun x => decide (x.1 = gf g 197 192)) with
      | none => none
      | some x =>
        let t1 : Int := gf g 79 0
        let t3 : Int := x.2
        let t4 : Int := gf g 191 112
        let d := hopDelays upper p
        some (t2, (t2 - t1) - (t4 - t3) - ((d.1 : Int) - d.2), (t2 - t1) + (t4 - t3) - ((d.1 : Int) + d.2))
    else none
/-- A beat slot is received (R137, R138): the fields of a beat that decodes are kept; one that does not still holds its place, the next
index. An index no higher than the last starts a new block, whose predecessor then waits for its tag; beats 0 to 7 carry the slices of the
block that waits. The first block starts at the first index 0 after UP. `own` is the unit's own step count (R159); DEDUCED: a change that the
first beat of a block shows counts as one in that block, whose early stamps reach back before it. The beat that a slot was announced for
starts the lower end's count to its burst (R145). -/
def beatIn (upper : Bool) (g : Gran) (ok : Bool) (stamp : Option Nat) (own : BitVec 16) (p0 : Port) : Port :=
  let starts := !upper && ok && p0.cal.slotOpen && sameBeat (gf g 79 0) p0.cal.slotBeat
  let p := if starts then { p0 with cal := { p0.cal with slotOpen := false, echoWait := some 31 } } else p0
  if ¬ (p.state = .calibrating ∨ p.state = .up) then p
  else
    let j := if ok then gf g 89 84 else (p.beat.lastRxIndex + 1) % 64
    let st := if ok then stamp else none
    let cnt := if ok then BitVec.ofNat 16 (gf g 111 96) else p.beat.srcCount
    let b1 := { p.beat with lastRxTime := st.getD p.beat.lastRxTime, lastRxValid := st.isSome, lastRxIndex := j, ownCount := own,
                            srcState := if ok then gf g 83 81 else p.beat.srcState, srcCount := cnt }
    let fresh := if p.beat.rxOn then decide (j ≤ p.beat.lastRxIndex) else decide (j = 0)
    if p.state = .calibrating ∨ (!p.beat.rxOn && !fresh) then { p with beat := b1 }
    else
      let b2 :=
        if fresh then
          { b1 with rxOn := true, waitBeats := b1.rxBeats, waitPairs := b1.pairs, waitAny := p.beat.rxOn, waitNum := b1.rxBlock,
                    waitTag := 0, waitMixed := b1.mixed, prevMixed := b1.waitMixed, waitCount := p.beat.srcCount, waitOwn := p.beat.ownCount,
                    rxBlock := if p.beat.rxOn then b1.rxBlock + 1 else b1.rxBlock, rxBeats := [], pairs := [], mixed := false }
        else b1
      let b3 := { b2 with rxBeats := if ok then (j, g) :: b2.rxBeats else b2.rxBeats,
                          pairs := match beatPair upper p g st with | some x => b2.pairs ++ [x] | none => b2.pairs,
                          mixed := b2.mixed || (p.beat.rxOn && (decide (own ≠ p.beat.ownCount) || decide (cnt ≠ p.beat.srcCount))),
                          waitTag := if ok && decide (j < 8) then b2.waitTag ||| (gf g 95 92 <<< (4 * j)) else b2.waitTag }
      { p with beat := b3 }
/-- What becomes of the block that waits (R138). -/
inductive BlockFate where
  | nothing
  | dropped
  | tagFailed
  | released
  deriving DecidableEq, Repr
/-- The fate of the block that waits: dropped if any beat is missing, released unverified on an unauthenticated link, else by its tag
under the key its KEY_ID names (R138, R477). -/
def blockFate (fromUpper : Bool) (p : Port) : BlockFate :=
  if p.state ≠ .up ∨ !p.beat.waitAny then .nothing
  else if p.beat.waitBeats.length < 64 then .dropped
  else if p.key.unauthenticated then .released
  else
    let beats := p.beat.waitBeats.reverse.map Prod.snd
    let ids := (beats.headD 0#256)
    let tryKey := fun (o : Option Bytes) => match o with
      | some k => decide (blockTag k (!fromUpper) p.beat.waitNum beats = p.beat.waitTag)
      | none => false
    if gf ids 91 90 = p.key.keyGen % 4 then (if tryKey p.key.key then .released else .tagFailed)
    else if gf ids 91 90 = p.key.newGen % 4 then (if tryKey p.key.newKey then .released else .tagFailed)
    else if tryKey p.key.oldKey then .released else .tagFailed
/-- The instant of release (R138): the block leaves the port; drops and tag failures are counted. A block under the new key that
verifies retires the old one (R477). -/
def blockRelease (fromUpper : Bool) (p : Port) : BlockFate × Port :=
  let f := blockFate fromUpper p
  let b := { p.beat with waitBeats := [], waitPairs := [], waitAny := false, waitTag := 0 }
  match f with
  | .nothing => (f, p)
  | .dropped => (f, { p with beat := b, blockDrop := ctrInc p.blockDrop })
  | .tagFailed => (f, { p with beat := b, tagFail := ctrInc p.tagFail })
  | .released =>
    let ids := ((p.beat.waitBeats.reverse.map Prod.snd).headD 0#256)
    let k := match p.key.newKey with
      | some nk => if !p.key.unauthenticated && p.key.switchAt.isNone && decide (gf ids 91 90 = p.key.newGen % 4) && decide (gf ids 91 90 ≠ p.key.keyGen % 4) then
          { p.key with key := some nk, oldKey := none, newKey := none, keyGen := p.key.newGen, switchAt := none, rekeying := false }
        else p.key
      | none => if decide (gf ids 91 90 = p.key.keyGen % 4) then { p.key with oldKey := none } else p.key
    (f, { p with beat := b, key := k })

/-! ### Fibre calibration (R144 to R147) -/
/-- The mean of the results held, floor. -/
def meanL (l : List Nat) : Nat := l.sum / l.length
/-- 100 ps and 40 ps in 1/65,536 ns, rounded down (R147, R149). -/
def ps100 : Nat := 6553
def ps40 : Nat := 2621
/-- The delay an echo gives (R147), clamped at zero: E in pod-time units. -/
def echoDelay (e tNear rNear lFarPs : Nat) : Nat := (e - tNear - rNear - lFarPs * 65536 / 1000) / 2
/-- A new slot result for one fibre: it joins the mean of the last 8; one off the mean by more than 100 ps restarts it (R147). -/
def addResult (l : List Nat) (d : Nat) : List Nat × Bool :=
  if l.isEmpty then ([d], false)
  else
    let m := meanL l
    if m + ps100 < d ∨ d + ps100 < m then ([d], true) else ((d :: l).take 8, false)
/-- Do all results agree within 40 ps (R149)? -/
def agree40 (l : List Nat) : Bool :=
  match l with
  | [] => true
  | x :: xs => decide (xs.foldl max x ≤ xs.foldl min x + ps40)
/-- One end has timed a fibre (R147): the result joins that fibre's mean and the CAL_RESULT message to the far end is queued. -/
def echoDone (ix : Nat) (fibreA : Bool) (d : Nat) (p : Port) : Evd Port :=
  let old := if fibreA then p.cal.resA else p.cal.resB
  let r := addResult old d
  let c := if fibreA then { p.cal with resA := r.1, missA := 0, tryA := d :: p.cal.tryA }
           else { p.cal with resB := r.1, missB := 0, tryB := d :: p.cal.tryB }
  let p1 := { p with cal := { c with slots := (c.slots + 1) % 65536, echoOn := false, deferred := false },
                     delayA := if fibreA then meanL r.1 % 2 ^ 40 else p.delayA,
                     delayB := if fibreA then p.delayB else meanL r.1 % 2 ^ 40 }
  let msg := lay [⟨0, 8, 8⟩, ⟨8, 40, if fibreA then d else 0⟩, ⟨48, 40, if fibreA then 0 else d⟩, ⟨88, 1, b2n fibreA⟩,
                  ⟨89, 1, b2n (!fibreA)⟩, ⟨90, 16, p1.cal.slots⟩]
  (portCtrl msg p1, if r.2 then [portEv .fibreDelayJump ix 0] else [])
/-- A burst did not return (R147): the third in a row on one fibre takes the link DOWN. Of a `CAL_DEGRADED` link none is expected (R142). -/
def echoMissed (ix : Nat) (fibreA : Bool) (p : Port) : Evd Port :=
  if !p.cal.echoOn then (p, []) else
  if p.calDegraded then ({ p with cal := { p.cal with echoOn := false } }, []) else
  let n := (if fibreA then p.cal.missA else p.cal.missB) + 1
  let p1 := { p with cal := if fibreA then { p.cal with missA := n, echoOn := false } else { p.cal with missB := n, echoOn := false } }
  if 3 ≤ n then portDown ix causeEcho p1 else (p1, [])
/-- The span limits in 1/65,536 ns by span kind: within limit, refused above (R25). -/
def spanLimit (span : Nat) : Nat := (if span = 0 then 735 else if span = 1 then 2450 else 9800) * 65536
def spanRefuse (span : Nat) : Nat := (if span = 0 then 808 else if span = 1 then 2695 else 10780) * 65536
/-- Results on every fibre in use are there. -/
def delaysIn (p : Port) : Bool := (!usesA p.mode || !p.cal.resA.isEmpty) && (!usesB p.mode || !p.cal.resB.isEmpty)
/-- Each end classifies the link by the longer of its fibre delays, once it has both (R25, R26, R147). -/
def classifySpan (ix span : Nat) (p : Port) : Evd Port :=
  let d := max p.delayA p.delayB
  if !delaysIn p then (p, [])
  else if spanRefuse span < d then portFault ix causeSpan p
  else if spanLimit span < d then
    ({ p with spanOver := true }, if p.spanOver then [] else [portEv .spanOverLimit ix 0])
  else ({ p with spanOver := false }, [])
/-- A far end's results (R147): kept, so both ends hold both delays; a fibre this end does not time itself takes the far end's result. -/
def calResultIn (ix : Nat) (timesA timesB : Bool) (g : Gran) (p : Port) : Evd Port :=
  let stepA := gbit g 88 && !timesA
  let stepB := gbit g 89 && !timesB
  let rA := if stepA then addResult p.cal.resA (gf g 47 8) else (p.cal.resA, false)
  let rB := if stepB then addResult p.cal.resB (gf g 87 48) else (p.cal.resB, false)
  let c := { p.cal with resA := rA.1, resB := rB.1, farA := gf g 47 8, farB := gf g 87 48, farValidA := gbit g 88, farValidB := gbit g 89,
                        tryA := if stepA then gf g 47 8 :: p.cal.tryA else p.cal.tryA,
                        tryB := if stepB then gf g 87 48 :: p.cal.tryB else p.cal.tryB }
  ({ p with cal := c, delayA := if stepA then meanL rA.1 % 2 ^ 40 else p.delayA, delayB := if stepB then meanL rB.1 % 2 ^ 40 else p.delayB },
    if rA.2 || rB.2 then [portEv .fibreDelayJump ix 0] else [])
/-- The port is UP: numbers start at zero (R132, R149). -/
def portUp (p : Port) : Port :=
  { p with state := .up, dat := { p.dat with txSeq := 0, rxNext := 0, rxTop := 0, store := [], held := [], replay := [], nakTries := 0 } }
/-- CALIBRATING ends (R149): 16 results agreeing within 40 ps on each fibre in use take the port UP; 16 that do not agree are a failed
attempt, and the 8th faults the link. -/
def calJudge (ix : Nat) (p : Port) : Evd Port :=
  if p.state ≠ .calibrating then (p, [])
  else
    let fullA := !usesA p.mode || decide (16 ≤ p.cal.tryA.length)
    let fullB := !usesB p.mode || decide (16 ≤ p.cal.tryB.length)
    if p.calDegraded then (portUp p, [portEv .linkUp ix 0])
    else if fullA && fullB then
      if (!usesA p.mode || agree40 (p.cal.tryA.take 16)) && (!usesB p.mode || agree40 (p.cal.tryB.take 16)) then
        (portUp { p with cal := { p.cal with tryA := [], tryB := [], attempts := 0 } }, [portEv .linkUp ix 0])
      else if 8 ≤ p.cal.attempts + 1 then portFault ix causeUnstable p
      else ({ p with cal := { p.cal with tryA := [], tryB := [], attempts := p.cal.attempts + 1 } }, [])
    else (p, [])

/-- A link whose fibres cannot be timed comes UP without results (R142): at its first beat in CALIBRATING. -/
def degradedUp (ix : Nat) (p : Port) : Evd Port := if p.calDegraded then calJudge ix p else (p, [])

/-! ### One frame slot (R123, R135, R149) -/
/-- A frame slot of port `ix`, every 16 edges of the time clock: exactly one frame goes out, or one `TRAIN` on each working transmitter. In
CALIBRATING and UP slot 0 is the beat slot. Without frame lock there is no beat slot, so no slot is marked as the one before it. -/
def portSlot (ix : Nat) (upper : Bool) (span : Nat) (c : BeatCtx) (p0 : Port) : Evd Port :=
  let s := (p0.dat.slot + 1) % 64
  let d := { p0.dat with slot := s, sinceAck := satN 63 (p0.dat.sinceAck + 1), sinceNak := satN 65535 (p0.dat.sinceNak + 1), slots := p0.dat.slots + 1,
                          early := false }
  let p := { p0 with dat := d }
  let bn := decide (s = 63)
  match p.state with
  | .down => (trainSend upper false p, [])
  | .faulted => (trainSend upper false p, [])
  | .training =>
    match p.dat.ctrlQ with
    | g :: l => if s = 0 then (trainSend upper false p, [])
      else ({ p with dat := emitFrame (linkParity p) 2 0 0 0 g false bn { p.dat with ctrlQ := l } }, [])
    | [] => (trainSend upper (bn && p.trn.frameLock) p, [])
  | _ =>
    if s = 0 then
      let r := degradedUp ix p
      (beatSend c upper (echoBegin s r.1), r.2)
    else (workSlot span bn (echoBegin s p), [])

/-! ### Register words (R153, R485) -/
/-- The code of a link state. -/
def linkStateCode : LinkState → Nat
  | .down => 0
  | .training => 1
  | .calibrating => 2
  | .up => 3
  | .faulted => 4
/-- `LINK_STATUS`. -/
def linkStatusWord (p : Port) : Word :=
  layW [⟨0, 3, linkStateCode p.state⟩, ⟨3, 2, match p.mode with | .dual => 0 | .singleA => 1 | .singleB => 2⟩,
        ⟨5, 1, b2n p.pairSwapped⟩, ⟨6, 1, b2n p.calDegraded⟩, ⟨7, 1, b2n p.spanOver⟩, ⟨8, 8, p.cause⟩, ⟨16, 4, p.laneFault⟩]
/-- An optics reading of a port (R153, R442): received powers in 0.01 dBm, as 16-bit patterns, and laser biases in 10 µA. -/
structure Optics where
  port    : Nat
  rxPowerA : Nat
  rxPowerB : Nat
  txBiasA : Nat
  txBiasB : Nat
  deriving DecidableEq, Repr
/-- Add a received power to a sum; one that sees no light is no power. -/
def rxAdd (v : Nat) (s : Nat × Int) : Nat × Int := if v % 65536 = 0x8000 then s else (s.1 + 1, s.2 + toSigned 16 (v % 65536))
/-- The mean of a sum of received powers, as a 16-bit pattern; with none, no light. -/
def rxMean (s : Nat × Int) : Nat := if s.1 = 0 then 0x8000 else ofSigned 16 (Int.fdiv s.2 s.1)
/-- The port takes a reading. -/
def portOptics (o : Optics) (p : Port) : Port :=
  { p with rxPowerA := o.rxPowerA % 65536, rxPowerB := o.rxPowerB % 65536, txBiasA := o.txBiasA % 65536, txBiasB := o.txBiasB % 65536,
           sumRxA := rxAdd o.rxPowerA p.sumRxA, sumRxB := rxAdd o.rxPowerB p.sumRxB,
           sumBias := (p.sumBias.1 + 1, p.sumBias.2.1 + o.txBiasA % 65536, p.sumBias.2.2 + o.txBiasB % 65536) }
/-- The hourly means of a port (R442): received powers of fibres A and B, biases of A and B. DESIGN CHOICE (assumption 63): the readings since the last
whole hour count alike, a mean rounds down, and with none the bias is the last one read. -/
def hourMeans (p : Port) : Nat × Nat × Nat × Nat :=
  let b := p.sumBias
  (rxMean p.sumRxA, rxMean p.sumRxB, if b.1 = 0 then p.txBiasA else b.2.1 / b.1, if b.1 = 0 then p.txBiasB else b.2.2 / b.1)
/-- A new hour begins. -/
def hourBegin (p : Port) : Port := { p with sumRxA := (0, 0), sumRxB := (0, 0), sumBias := (0, 0, 0) }
/-- Light of a measured power on a receive lane-end (R149, R153). -/
def portLit (lane power : Nat) (p : Port) : Port :=
  if lane % 2 = 0 then { p with rxPowerA := power % 65536 } else { p with rxPowerB := power % 65536 }
/-- `LINK_OPTICS`. -/
def linkOpticsWord (p : Port) : Word :=
  layW [⟨0, 16, p.rxPowerA⟩, ⟨16, 16, p.rxPowerB⟩, ⟨32, 16, p.txBiasA⟩, ⟨48, 16, p.txBiasB⟩]
/-- `LINK_KEY_d` (R485). -/
def linkKeyWord (p : Port) : Word := layW [⟨0, 32, p.key.keyGen⟩, ⟨32, 1, b2n p.key.authenticated⟩]
/-- The eight counters of a port, in register order (R153). -/
def portCounters (p : Port) : List Ctr :=
  [p.crcErr, p.corrected, p.retry, p.downCount, p.blockDrop, p.tagFail, p.badType, p.turnForced]

end Sys2Proof.Machine
end

