-- ==== Sys2Proof/Machine/StateUnit.lean ====
section
/-! DEFINITION. What a leaf and a channel both hold beside time and links: start-up and flash (Start-up and Configuration), keys and
violations (Security and Alarms), unit history (Finding Wrong Answers), held management answers (R437), code counters (R379). Every
field's default is its value at reset. -/
namespace Sys2Proof.Machine

/-! ### Start-up and flash -/
/-- The `POLICY` section (R451), at the defaults the Buride tool writes. -/
structure Policy where
  turnInterval  : Nat := 2
  slewRatePpm   : Nat := 10
  bucketLeakMin : Nat := 10
  scrubFlashMin : Nat := 60
  scrubGranaryH : Nat := 24
  retainMin     : Nat := 70
  testPeriodH   : Nat := 0
  ptpDomain     : Nat := 0
  revertive     : Bool := true
  wtrS          : Nat := 300
  hbTimeoutUs   : Nat := 10000
  expectYard    : Nat := 0xFF
  expectBarn    : Nat := 0xFF
  gnssPos       : Nat := 0
  gnssPosValid  : Bool := false
  deriving DecidableEq, Repr
/-- A calibration entry (R462): type, key, data. -/
structure CalEntry where
  typ  : Nat
  key  : Nat
  data : Bytes
  deriving DecidableEq, Repr
/-- Start-up, the flash and the calibration blocks of a unit (R447 to R471). -/
structure Startup where
  /-- `START_PHASE`: 0 IMAGE, 1 SELFTEST, 2 RESTORE, 3 RUN, 4 QUARANTINE -/
  phase      : Nat := 0
  cfgLocked  : Bool := false
  firstUse   : Bool := false
  restorePending : Bool := false
  qCause     : Nat := 0
  copyB      : Bool := false
  fallback   : Bool := false
  faultA     : Nat := 0
  faultB     : Nat := 0
  staged     : Bool := false
  imageSeq   : Nat := 0
  imageDigest : Gran := 0#256
  unitVersion : Nat := 0x10
  semVersion : Nat := 1
  strictForce : Bool := false
  injectOk   : Bool := false
  policy     : Policy := {}
  testPacks  : List Nat := []
  /-- references and outputs of a channel's image (R450): words in order -/
  refWords   : List Nat := []
  outWords   : List Nat := []
  /-- the configuration flash, byte by byte; an unlisted byte is erased, 0xFF -/
  flash      : Tab Byte := []
  flashOk    : Bool := true
  /-- copies programmed since their last STAGE_DONE or LAST, which the flash pass skips (R517) -/
  stagingA   : Bool := false
  stagingB   : Bool := false
  factory    : List CalEntry := []
  user       : List CalEntry := []
  userSeq    : Nat := 0
  userHalfB  : Bool := false
  /-- entries due to be saved, combined into the next save (R463) -/
  due        : List CalEntry := []
  /-- saves are deferred while pwr_warn is asserted (R547) -/
  saveHeld   : Bool := false
  armed      : Option Nat := none
  /-- until when, in ns of the unit's own clock since reset (R465) -/
  armUntil   : Nat := 0
  refusal    : Nat := 0
  restoreForce : Bool := false
  /-- ports whose first filtered delay since start has been compared with the stored one (R463) -/
  delaySeen  : List Nat := []
  /-- a pass over the flash is running, when it began, and the end of the last complete one (R377, R379) -/
  flashPass  : Bool := false
  /-- the period ran out during the pass: the next starts when it ends (R377) -/
  flashLate  : Bool := false
  lastPass   : Nat := 0
  /-- when the buckets last leaked, in ns of the unit's own clock (R376) -/
  leakAt     : Nat := 0
  /-- the last hourly save of the user block, on the same clock (R462) -/
  hourAt     : Nat := 0
  deriving DecidableEq, Repr

/-! ### Security -/
/-- Keys, violations and debug unlock of a unit (R472 to R486). -/
structure Security where
  deviceKey  : Bytes := []
  unwrapKey  : Bytes := []
  ownerHash  : Bytes := []
  /-- the owner's public key as the image's signature check found it admitted -/
  owner      : Bytes := []
  admW       : Option Bytes := none
  admB       : Option Bytes := none
  fabric     : Option Bytes := none
  ledgerSeed : Option Bytes := none
  debugKeys  : List Bytes := []
  packKeys   : List Bytes := []
  tamperCount : Nat := 0
  tamperMin  : Nat := 0
  /-- `KEYLESS`: no key section has been unwrapped since reset -/
  keyless    : Bool := false
  unwrapFail : Bool := false
  locked     : Bool := false
  policyOpen : Bool := false
  /-- level of each source 1 to 9 (R479, R480): 0 NOTE, 1 LOCK, 2 ERASE -/
  levels     : List Nat := [2, 2, 1, 1, 0, 0, 0, 1, 1]
  tagFailLimit : Nat := 16
  lastSource : Nat := 0
  lastLevel  : Nat := 0
  hist       : Nat := 0
  histEn     : Nat := 0x1FF
  unlockFails : Nat := 0
  debugOn    : Bool := false
  debugUntil : Nat := 0
  challenge  : Gran := 0#256
  challengeValid : Bool := false
  /-- when the challenge was made, in ns of the unit's own clock since reset, as `debugUntil` is -/
  challengeAt : Nat := 0
  /-- `DBG_RESPONSE`, nine words -/
  response   : Tab Word := []
  /-- increments pending in the history area, and whether a blow is in progress (R482, R573) -/
  pendingBlow : Nat := 0
  blowing    : Bool := false
  /-- when that blow was asked for, in ns of the unit's own clock -/
  blowAt     : Nat := 0
  /-- the latch that blocks the device and unwrap keys until the next start (R482) -/
  latch      : Bool := false
  deriving DecidableEq, Repr

/-! ### History -/
/-- A history entry (R414): path 0 is no unit, so a default entry is an unused index. -/
structure HistEntry where
  path  : Nat := 0
  cls   : Nat := 0
  total : Nat := 0
  tLast : Nat := 0
  tPrev : Nat := 0
  deriving DecidableEq, Repr
/-- The unit history of a leaf or channel (R414 to R417), by index; entries classified in volatile memory stand in `vol`. -/
structure History where
  entries : Tab HistEntry := []
  vol     : List HistEntry := []
  full    : Bool := false
  /-- when a unit was last tested in its background, by unit path, in ns of the own clock (R377, R416); 0 the reset -/
  tested  : Tab Nat := []
  deriving DecidableEq, Repr

/-! ### Held management answers -/
/-- A management command as compared under R528: command, flags bit 0, body. -/
structure MgmtArgs where
  cmd   : Nat
  force : Bool
  body  : Bytes
  deriving DecidableEq, Repr
/-- An answer to a management command, held under R437; `running`: not answered yet. -/
structure MgmtAnswer where
  id      : Nat
  args    : MgmtArgs
  status  : Nat := 0
  body    : Bytes := []
  accepted : Nat := 0
  heldAt  : Nat := 0
  running : Bool := false
  repeat_ : Bool := false
  more    : Bool := false
  deriving DecidableEq, Repr

/-- What the self-tests of a start found: failed port engines, threshers, stacks and clusters, the leaf's window encoder, and the taps that
answered discovery (a mask). -/
structure SelfTest where
  ports     : List Nat := []
  threshers : List Nat := []
  mems      : List Nat := []
  clusters  : List Nat := []
  encoder   : Bool := false
  taps      : Nat := 0
  deriving DecidableEq, Repr
/-- The six code counters of a unit and its self-test bit (R379). -/
structure CodeRegs where
  corrected     : Ctr := {}
  uncorrectable : Ctr := {}
  misdirected   : Ctr := {}
  poisonSeen    : Ctr := {}
  parityErr     : Ctr := {}
  scrubRace     : Ctr := {}
  selftestFail  : Bool := false
  flashBucket   : Bucket := {}
  deriving DecidableEq, Repr
/-- A sensor (R581): temperature in 0.25 °C, supply and least supply in mV, last update in ns of the unit's own clock. -/
structure Sensor where
  present : Bool := false
  temp    : Int := 0
  mv      : Nat := 0
  vmin    : Nat := 0
  at_     : Nat := 0
  stale   : Bool := false
  deriving DecidableEq, Repr

end Sys2Proof.Machine
end

