-- ==== Sys2Proof/Machine/StateRef.lean ====
section
/-! DEFINITION. A channel's outside time (chapter References, Holdover and Outputs, R175 to R182): references, selection and switches,
the OCXO and holdover, outputs, and what a mill holds of the hall's two trees. Every field's default is its value at reset. -/
namespace Sys2Proof.Machine

/-- Reference states (R196, R218). -/
inductive RefState where
  | disabled
  | monitoring
  | qualifying
  | qualified
  | selected
  | rejected
  deriving DecidableEq, Repr
/-- A reference (R186 to R198, R218): 0 `EXT_A`, 1 `EXT_B`, 2 `GNSS`, 3 `PTP`. Phases in 1/65,536 ns, frequencies in parts of 10^12. -/
structure Ref where
  enable    : Bool := false
  priority  : Nat := 0
  pair      : Bool := false
  cable     : Int := 0
  jumpNs    : Nat := 0
  state     : RefState := .disabled
  /-- impaired by the misses of its pulses or Syncs, and of its 10 MHz edges (R192) -/
  impPulse  : Bool := false
  impEdge   : Bool := false
  disagree  : Bool := false
  cause     : Nat := 0
  /-- the time-clock edges from which the present qualification, and the present wait-to-restore, run -/
  qualFrom  : Nat := 0
  wtrFrom   : Nat := 0
  hist      : Nat := 0
  histEn    : Nat := 0x1F
  freq      : Int := 0
  /-- the last 16 phase measurements kept, latest first (R187) -/
  phases    : List Int := []
  /-- consecutive discards (R193), and consecutive misses of a pulse or Sync (R192) -/
  discards  : Nat := 0
  misses    : Nat := 0
  /-- the 10 MHz input: the OCXO instant of its last edge or miss, its misses in the last millisecond, latest first (R192), the OCXO instant of
  the last edge measured (R187), and the frequency of an input that is not paired (R186) -/
  edgeAt    : Option Nat := none
  edgeMisses : List Nat := []
  edgeMeas  : Option Nat := none
  edgeFreq  : Int := 0
  /-- the stamp of the last accepted pulse in 1/65,536 ns of pod time (R213), and its OCXO instant, from which windows are counted (R192) -/
  lastStamp : Option Nat := none
  lastAt    : Option Nat := none
  /-- of PTP: the time-clock edges on which the sync interval, and the announce receipt timeout, end, and the interval in edges (R192) -/
  syncDue   : Option Nat := none
  syncEvery : Nat := 0
  announceDue : Option Nat := none
  /-- rejected for a TDC fault: waits for a unit reset (R196) -/
  stuck     : Bool := false
  /-- the whole second the last accepted pulse marks, on its time of day, in ns -/
  second    : Int := 0
  /-- injected as absent (R439) -/
  absent    : Bool := false
  deriving DecidableEq, Repr
/-- The impairment that a reference's monitors hold (R192). -/
def Ref.impaired (x : Ref) : Bool := x.impPulse || x.impEdge
/-- A switch in progress (R200 to R202): what is left (none: holdover), the target, the time-clock edge of its start and, once committed, Δ and
T_s in ns of pod time. -/
structure Switch where
  from_     : Option Nat
  target    : Nat
  start     : Nat
  committed : Bool := false
  delta     : Int := 0
  at_       : Nat := 0
  deriving DecidableEq, Repr
/-- Two references that disagree (R203), and the time-clock edge since which they agree again. -/
structure Apart where
  a     : Nat
  b     : Nat
  since : Option Nat := none
  deriving DecidableEq, Repr
/-- Selection at a channel (R198 to R204, R219). -/
structure RefSel where
  selected  : Option Nat := none
  switch    : Option Switch := none
  /-- equal-priority references that disagree, neither rejected for it (R203) -/
  frozen    : List Apart := []
  /-- the pairs that differed in the last result, for two in a row -/
  differed  : List (Nat × Nat) := []
  delta     : Int := 0
  commits   : Ctr := {}
  aborts    : Ctr := {}
  /-- a follower's captured target under LEAD_LOST, or the loop's target after a switch under it, in 1/65,536 ns (R180, R201) -/
  target    : Int := 0
  deriving DecidableEq, Repr
/-- A bin of the temperature curve (R206): the sums of Ī − C_fac(T), in parts of 10^18, and of the samples' pod times in ns, and their number, from
which the mean residual against the line now fitted follows. -/
structure TempBin where
  sum   : Int := 0
  time  : Nat := 0
  count : Nat := 0
  deriving DecidableEq, Repr
/-- The OCXO and holdover (R205 to R210, R219). Frequencies in parts of 10^18; temperatures in 0.25 °C. -/
structure Hold where
  warm      : Bool := false
  classH1   : Bool := false
  ambient   : Int := 0
  /-- the unit clock in ns at entry; the state of R199, or COASTING -/
  entered   : Option Nat := none
  iEntry    : Int := 0
  tEntry    : Int := 0
  /-- ageing slope in parts of 10^18 per day, the fit's intercept at pod time 0, and its span in hours -/
  ageing    : Int := 0
  ageBase   : Int := 0
  spanH     : Nat := 0
  /-- C_learn in 96 bins of 0.5 °C -/
  bins      : Tab TempBin := []
  /-- samples of the last 7 days, latest first: pod time in ns, temperature, mean I -/
  samples   : List (Nat × Int × Int) := []
  /-- the updates of the last 17 s, latest first: the time-clock edge and I, for the means of 16 s (R206, R208) -/
  recentI   : List (Nat × Int) := []
  /-- the frequency the unit runs on: the loop's I at its last update, what holdover drove last, or the factory's before the first (R162, R166) -/
  own       : Int := 0
  /-- the time-clock edge of the loop's last valid input (R208) -/
  lastInput : Nat := 0
  /-- the factory block holds entry 0x84 (R460) -/
  facOcxo   : Bool := false
  /-- C_fac over 96 bins, factory frequency and ageing slope (R459) -/
  cFac      : List Int := []
  fFac      : Int := 0
  aFac      : Int := 0
  deriving DecidableEq, Repr
/-- The GNSS receiver and its antenna feed (R190, R219). -/
structure Gnss where
  timeValid : Bool := false
  surveying : Bool := false
  leapOk    : Bool := false
  antOpen   : Bool := false
  antShort  : Bool := false
  feedOff   : Bool := false
  /-- since which time-clock edge the receiver has not declared time valid (R192), that of the last try of the feed (R190), and that on which a
  self-survey began -/
  invalidAt : Option Nat := some 0
  feedAt    : Nat := 0
  surveyAt  : Nat := 0
  sats      : Nat := 0
  antMa     : Nat := 0
  timeErr   : Nat := 0xFFFF
  deriving DecidableEq, Repr
/-- What an output is set to (R211, R220). -/
structure OutCfg where
  enable  : Bool := false
  src     : Nat := 0
  squelch : Nat := 0
  widthNs : Nat := 0
  period  : Nat := 0
  offset  : Int := 0
  deriving DecidableEq, Repr
/-- An output (R211 to R217, R220). -/
structure Output where
  /-- the configuration the registers show, and the one in effect (R217) -/
  cfg      : OutCfg := {}
  now      : OutCfg := {}
  /-- pod time in ns of the last change not yet in effect -/
  changedAt : Option Nat := none
  shortNow : Bool := false
  /-- the time-clock edge of the last short, and pulses in a row that show an open load (R216) -/
  shortAt  : Nat := 0
  openRun  : Nat := 0
  openNow  : Bool := false
  shortSeen : Bool := false
  openSeen : Bool := false
  srcLost  : Bool := false
  unmonitored : Bool := false
  driftSeen : Bool := false
  lastErr  : Int := 0
  skipped  : Ctr := {}
  cfgBad   : Ctr := {}
  /-- the last rising edge driven, in ps of pod time, and the end of its pulse in ps of the unit's own clock; the last instant passed, emitted
  or not -/
  lastEdge : Option Nat := none
  pulseEnd : Nat := 0
  instant  : Nat := 0
  deriving DecidableEq, Repr
/-- A time-line report of this second (R177, R178): the port it came on, the time-clock edge, and its fields. -/
structure TimeLine where
  port    : Nat
  at_     : Nat
  settled : Bool
  subject : Bool
  grade   : Bool
  utcValid : Bool
  count   : Nat
  xoff    : Int
  epoch   : Nat
  utc     : Int
  leap    : Nat
  step    : BitVec 16
  deriving DecidableEq, Repr
/-- What a mill holds of settling and of the other tree (R177 to R182). -/
structure MillTime where
  settled  : Bool := false
  leadLost : Bool := false
  /-- the time-clock edge of the last usable report (R180), and the whole second of the last that the loop took (R161) -/
  lastLead : Nat := 0
  lineSec  : Option Nat := none
  /-- S: the sum of all pod-time steps and slews applied since the epoch, in 1/65,536 ns (R182) -/
  sSum     : Int := 0
  /-- an epoch base is held, from the user block or since the first selection (R49, R52) -/
  epochHeld : Bool := false
  /-- offsets of child channels that send 0b000 or 0b001, by port (R179 rule 1) -/
  kids     : List (Nat × Int) := []
  /-- the highest step count this mill has given out -/
  issued   : BitVec 16 := 0#16
  deriving DecidableEq, Repr
/-- A relay of a step notice that a barn or yard has passed on (R591): its count and when. -/
structure Relayed where
  count : BitVec 16
  at_   : Nat
  deriving DecidableEq, Repr

/-- The time system of a channel: its role and domain, time core, source or mill loop, TDCs, references, outputs, and a mill's place in the
hall. -/
structure ChanClock where
  /-- 1 barn, 2 yard, 3 mill; 0 before an image is accepted, and in QUARANTINE -/
  role     : Nat := 0
  domain   : Nat := 0
  time     : TimeCore := {}
  /-- the loop on the source (barn, yard), or on the reference or the lead (mill) -/
  loop     : DomLoop := {}
  tdcs     : Tab Tdc := []
  /-- TDC 63 serves this TDC's role (R120) -/
  spareOf  : Option Nat := none
  refs     : Tab Ref := []
  sel      : RefSel := {}
  revertive : Bool := true
  wtrS     : Nat := 300
  hold     : Hold := {}
  gnss     : Gnss := {}
  outs     : Tab Output := []
  mill     : MillTime := {}
  /-- reports of this second, latest first -/
  lines    : List TimeLine := []
  relayed  : List Relayed := []
  deriving DecidableEq, Repr

end Sys2Proof.Machine
end

