-- ==== Sys2Proof/Machine/OutCfg.lean ====
section
/-! DEFINITION. What an output may be set to (R211, R213, R217, R220), and its fields as the image holds them (R450). -/
namespace Sys2Proof.Machine

/-- The period of an output (R211): fixed for n = 0 to 3. -/
def outPeriod (n : Nat) (g : OutCfg) : Nat := if n < 2 then 1000000000000 else if n < 4 then 100000 else g.period
/-- The pulse width in ps (R211): a 10 MHz output's is 50 ns. -/
def outWidth (n : Nat) (g : OutCfg) : Nat := if 2 ≤ n ∧ n < 4 then 50000 else g.widthNs * 1000
/-- Does a source exist for the output (R211)? -/
def outSrcOk (n src : Nat) : Bool := decide (src = 0) || (decide (n < 8) && decide (src = 1)) || (decide (4 ≤ n ∧ n < 8) && decide (src < 5))
/-- Are all fields in the ranges of R211 and R213? -/
def outCfgOk (n : Nat) (g : OutCfg) : Bool :=
  let p := outPeriod n g
  outSrcOk n g.src && decide (g.squelch < 3) && decide (g.offset.natAbs ≤ 500000000000) &&
  (if n < 2 then decide (1000 ≤ g.widthNs) && decide (g.widthNs ≤ 500000000)
   else if n < 4 then true
   else decide (1000000 ≤ p) && decide (p ≤ if n < 8 then 1000000000000 else 1000000000) &&
     decide (10 ≤ g.widthNs) && decide (2000 * g.widthNs ≤ p) && (decide (g.src < 2) || decide (1000000000000 % p = 0)))
/-- An output's fields from the words of the image (R450). -/
def outCfgOf (w p f : Nat) : OutCfg :=
  { enable := w.testBit 0, src := bitsOf w 3 1, squelch := bitsOf w 5 4, widthNs := bitsOf w 37 8, period := bitsOf p 39 0,
    offset := toSigned 40 f }

end Sys2Proof.Machine
end

