-- ==== Sys2Proof/Machine/TdcOps.lean ====
section
/-! DEFINITION. One time-to-digital converter (R103 to R121): fine codes and linearity, start and stop rules, results, lock and fault. -/
namespace Sys2Proof.Machine

/-- Does a linearity table hold 255 strictly increasing entries (R109)? -/
def linTableOk (l : List Nat) : Bool :=
  decide (l.length = 255) && ((0 :: l).zip (l ++ [51200])).all (fun x => decide (x.1 < x.2))
/-- Boundary L[j] of an interpolator: its factory table if sound, else the nominal 200·j (R109). -/
def linAt (l : List Nat) (j : Nat) : Nat :=
  if j = 0 then 0 else if 256 ≤ j then 51200 else if linTableOk l then l.getD (j - 1) 0 else 200 * j
/-- The fine code of an edge: the ones among the sampled taps, limited to 255 (R108). -/
def fineCode (ones : Nat) : Nat := satN 255 ones
/-- The residual of an edge with fine code `k` (R109). -/
def residual (l : List Nat) (k : Nat) : Nat := (linAt l k + linAt l (k + 1)) / 2
/-- Is an interpolator within its dead time of 2 periods after its last edge (R111)? -/
def inDead (last : Option Nat) (now : Nat) : Bool := match last with | some e => decide (now < e + 2) | none => false
/-- Is an edge taken at an input of this polarity (R112): in the right direction, after 1 ns at the opposite level? -/
def edgeTaken (falling : Bool) (e : EdgeIn) : Bool := decide (e.rising ≠ falling) && decide (1000 ≤ e.heldPs)
/-- The owner sets a TDC's mode and arms or disarms it (R105, R118); a measurement in progress is abandoned with no result (R111). -/
def tdcOwner (stamp arm : Bool) (d : Tdc) : Tdc :=
  if d.outOfService ∨ (d.stampMode = stamp ∧ d.armed = arm) then d else { d with stampMode := stamp, armed := arm, measuring := false }

/-- A start edge (R111). A test edge in the line makes the real one count as within the dead time (R117). DEDUCED (assumption 75): a TDC is
idle only after the stop interpolator's dead time, so a start within that is one while the TDC is busy. -/
def tdcStart (tm : TimeCore) (e : EdgeIn) (d : Tdc) : Tdc :=
  if d.outOfService || d.stampMode || !edgeTaken false e then d
  else if d.measuring || e.test || inDead d.deadStart tm.edges || inDead d.deadStop tm.edges then { d with busyCtr := ctrInc d.busyCtr }
  else { d with measuring := true, startEdge := tm.edges, startFine := fineCode e.ones, rStart := residual d.tabStart (fineCode e.ones),
                lostSince := !d.lockStart, deadStart := some tm.edges }
/-- What a measurement that overflows leaves (R69, R111). -/
def tdcOver (n : Nat) (d : Tdc) : Tdc :=
  { d with measuring := false, ovfCtr := ctrInc d.ovfCtr, result := { overflow := true, tdcId := n, fineStart := d.startFine } }
/-- A stop edge, at an input of a polarity (R104, R105, R111, R117). -/
def tdcStop (n : Nat) (tm : TimeCore) (e : EdgeIn) (d : Tdc) : Tdc :=
  let k := fineCode e.ones
  let r := residual d.tabStop k
  if d.outOfService || !edgeTaken false e then d
  else if d.stampMode then
    if !d.armed then d
    else if e.test || inDead d.deadStop tm.edges then { d with busyCtr := ctrInc d.busyCtr }
    else { d with deadStop := some tm.edges,
                  result := { value := tm.pod - r, valid := d.lockStop, unlocked := !d.lockStop, linSuspect := d.linStop,
                              stampMode := true, tdcId := n, fineStop := k } }
  else if !d.measuring then { d with strayCtr := ctrInc d.strayCtr }
  else if e.test then { d with busyCtr := ctrInc d.busyCtr }
  else
    let bad := d.lostSince || !d.lockStop
    { d with measuring := false, deadStop := some tm.edges,
             result := { value := (tm.edges - d.startEdge) * 51200 + d.rStart - r, valid := !bad, unlocked := bad,
                         linSuspect := d.linStart || d.linStop, tdcId := n, fineStop := k, fineStart := d.startFine } }
/-- Did this stop edge yield a result? -/
def tdcYields (tm : TimeCore) (e : EdgeIn) (d : Tdc) : Bool :=
  !d.outOfService && edgeTaken false e && !e.test && (if d.stampMode then d.armed && !inDead d.deadStop tm.edges else d.measuring)
/-- An edge of the time clock passes (R111): a count of 2^32 − 1 with no stop overflows on the next edge. -/
def tdcEdge (n : Nat) (tm : TimeCore) (d : Tdc) : Tdc := if d.measuring && decide (2 ^ 32 ≤ tm.edges - d.startEdge) then tdcOver n d else d
/-- A stamp referred to the pin (R105, R107): the owner subtracts the delay of the input. -/
def stampOf (tm : TimeCore) (d : Tdc) (delay ones : Nat) : Nat := tm.pod - residual d.tabStop (fineCode ones) - delay
/-- An interval as its owner uses it (R106, R107): the delay of the stop's input subtracted and that of the start's added, then converted to
pod-time units by the unit's rate. -/
def intervalOf (tm : TimeCore) (d : Tdc) : Nat := (d.result.value + d.dStart - d.dStop) * tm.rate / (51200 * 2 ^ 24)
/-- An interpolator's loop locks (R114). -/
def tdcLock (start : Bool) (d : Tdc) : Tdc := if start then { d with lockStart := true } else { d with lockStop := true }
/-- One second of time-clock edges. -/
def edgesPerSec : Nat := 1280000000
/-- An interpolator loses lock (R115); more than 8 losses in 1 s raise the fault, second component. -/
def tdcLost (tm : TimeCore) (start : Bool) (d : Tdc) : Tdc × Bool :=
  let l := tm.edges :: d.losses.filter (fun e => decide (tm.edges < e + edgesPerSec))
  let d1 := { d with lockStart := if start then false else d.lockStart, lockStop := if start then d.lockStop else false,
                     lostSince := d.lostSince || d.measuring, losses := l, lossCount := satN 255 (d.lossCount + 1) }
  (d1, decide (8 < l.length) && !d.fault)
/-- A TDC under TDC_FAULT leaves service until unit reset (R115, R121). -/
def tdcFaulted (d : Tdc) : Tdc := { d with fault := true, outOfService := true, measuring := false, armed := false }
/-- The background pass's check of an interpolator's control value against its factory range (R116). -/
def tdcRange (start : Bool) (v : Nat) (d : Tdc) : Tdc :=
  let bad := !(decide (d.loopMin ≤ v) && decide (v ≤ d.loopMax))
  if start then { d with badStart := bad } else { d with badStop := bad }
/-- The test edges of a code-density pass (R116), and of a SUSPECT TDC's (R416). -/
def passEdges (suspect : Bool) : Nat := if suspect then 131072 else 1048576
/-- Does a code-density histogram agree with the table: no run of 16 bins off by more than 1.5 ps (R116), at a SUSPECT TDC 3 ps (R416)? -/
def histogramAgrees (suspect : Bool) (tab hist : List Nat) : Bool :=
  let n := passEdges suspect
  (List.range 241).all (fun i =>
    let w : Int := (((hist.drop i).take 16).sum * 51200 : Nat)
    let l : Int := ((linAt tab (i + 16) - linAt tab i) * n : Nat)
    decide ((w - l).natAbs * 1000 ≤ (if suspect then 196608 else 98304) * n))
/-- A histogram completes, at 1,048,576 test edges (131,072 at a SUSPECT TDC), those that met a real edge left out (R116, R117, R416): it sets or
clears that interpolator's suspicion; second component: newly suspect. -/
def tdcHistogram (suspect start : Bool) (hist : List Nat) (d : Tdc) : Tdc × Bool :=
  if hist.length ≠ 256 ∨ hist.sum ≠ passEdges suspect then (d, false) else
  let bad := !histogramAgrees suspect (if start then d.tabStart else d.tabStop) hist
  if start then ({ d with linStart := bad }, bad && !d.linStart) else ({ d with linStop := bad }, bad && !d.linStop)

/-- Word 0 of a result (R113). -/
def tdcWord0 (r : TdcResult) : Word := BitVec.ofNat 64 r.value
/-- Word 1 of a result (R113). -/
def tdcWord1 (r : TdcResult) : Word :=
  layW [⟨0, 16, if r.stampMode then r.value / 2 ^ 64 else 0⟩, ⟨16, 1, b2n r.valid⟩, ⟨17, 1, b2n r.overflow⟩, ⟨18, 1, b2n r.unlocked⟩,
        ⟨19, 1, b2n r.coarseOnly⟩, ⟨20, 1, b2n r.linSuspect⟩, ⟨21, 1, b2n r.stampMode⟩, ⟨22, 6, r.tdcId⟩, ⟨28, 8, r.fineStop⟩,
        ⟨36, 8, r.fineStart⟩]
/-- `TDC_STATUS_n` (R121). -/
def tdcStatusWord (d : Tdc) : Word :=
  layW [⟨0, 1, b2n d.lockStart⟩, ⟨1, 1, b2n d.lockStop⟩, ⟨2, 1, b2n d.fault⟩, ⟨3, 1, b2n (d.linStart || d.linStop)⟩,
        ⟨4, 1, b2n (d.measuring || (d.stampMode && d.armed))⟩, ⟨5, 1, b2n d.spared⟩, ⟨6, 8, d.lossCount⟩]

end Sys2Proof.Machine
end

