-- ==== Sys2Proof/Machine/UnitOps.lean ====
section
/-! DEFINITION. What a leaf and a channel do alike at start-up, with keys and violations, with unit history, and with held management
answers (R414 to R417, R437, R447 to R486). -/
namespace Sys2Proof.Machine

/-! ### Durations in ns -/
def nsSec : Nat := 1000000000
def nsMin : Nat := 60 * nsSec
def nsHour : Nat := 3600 * nsSec
def nsDay : Nat := 86400 * nsSec

/-! ### Unit paths (R411) -/
/-- A unit path. -/
def unitPath (scope kind index : Nat) : Nat := layNat [⟨60, 4, scope⟩, ⟨52, 8, kind⟩, ⟨40, 12, index⟩]

/-! ### Reports (R411 to R413) -/
/-- The values of a report (R412, R413), for the events whose record it lays out: unit path, operation, class after, generation, tag, block or
item, lane, expected and observed value. -/
structure Report where
  path  : Nat
  op    : Nat := 0
  cls   : Nat := 0
  gen   : Nat := 0
  tag   : Nat := 0
  blk   : Nat := 0
  lane  : Nat := 0xFFFF
  want  : Nat := 0
  got   : Nat := 0
  deriving DecidableEq, Repr
/-- A report as the values of an event. -/
def reportVals (r : Report) : List Nat := [r.path, r.op, r.cls, r.gen, r.tag, r.blk, r.lane, r.want, r.got]
/-- The operations of R412 whose detail is zero: a TDC measurement, an idle self-test or sweep, a start-up self-test, a scrub, a bucket overflow. -/
def opTdc : Nat := 0x3000
def opIdle : Nat := 0x5000
def opStart : Nat := 0x9000
def opScrub : Nat := 0xA000
def opBucket : Nat := 0xB000
/-- DEDUCED (assumption 64): R412 numbers no activity for a replica margin, a module's unit, or an error-free period that ends. -/
def opNone : Nat := 0

/-! ### History (R414, R415) -/
/-- The class after an error at time t (R415): 0 NEW, 1 TRANSIENT, 2 SUSPECT, 3 PERMANENT. -/
def classAfter (e : HistEntry) (t : Nat) : Nat :=
  match e.cls with
  | 0 => 1
  | 1 => if t ≤ e.tLast + nsDay then 2 else 1
  | 2 => if t ≤ e.tPrev + nsDay then 3 else 2
  | _ => 3
/-- An entry takes an error (R414). -/
def entryError (path t : Nat) (e : HistEntry) : HistEntry :=
  { path := path, cls := classAfter e t, total := satN 0xFFFFFFFF (e.total + 1), tLast := t, tPrev := e.tLast }
/-- The index of a path's entry. -/
def histFind (path : Nat) : Tab HistEntry → Option Nat
  | [] => none
  | (i, e) :: r => if e.path = path then some i else histFind path r
/-- The lowest index below `cap` that holds nothing. -/
def histFree (cap : Nat) (h : Tab HistEntry) : Option Nat := (List.range cap).find? (fun i => decide ((tabGet {} h i).path = 0))
/-- The TRANSIENT entry with the oldest T_LAST (R414). -/
def histOldest : Tab HistEntry → Option (Nat × Nat)
  | [] => none
  | (i, e) :: r =>
    match histOldest r with
    | none => if e.cls = 1 then some (i, e.tLast) else none
    | some (j, t) => if e.cls = 1 ∧ e.tLast ≤ t then some (i, e.tLast) else some (j, t)
/-- An error is entered (R414, R415): the history, the class before and after. -/
def histError (cap path t : Nat) (h : History) : History × Nat × Nat :=
  match histFind path h.entries with
  | some i =>
    let e := tabGet {} h.entries i
    ({ h with entries := tabSet {} h.entries i (entryError path t e) }, e.cls, classAfter e t)
  | none =>
    match h.vol.find? (fun e => decide (e.path = path)) with
    | some e => ({ h with vol := entryError path t e :: h.vol.filter (fun x => decide (x.path ≠ path)) }, e.cls, classAfter e t)
    | none =>
      let n := entryError path t {}
      match histFree cap h.entries with
      | some i => ({ h with entries := tabSet {} h.entries i n }, 0, 1)
      | none =>
        match histOldest h.entries with
        | some (i, _) => ({ h with entries := tabSet {} h.entries i n }, 0, 1)
        | none => ({ h with vol := n :: h.vol, full := true }, 0, 1)
/-- The events an entered error of operation `op` raises (R413, R424): a changed class, a condemned unit, a full history. -/
def histEvents (path op : Nat) (h h' : History) (c0 c1 : Nat) : List EvRec :=
  let v := reportVals { path := path, op := op, cls := c1 }
  (if c0 = c1 then [] else [({ ev := .historyClass, detail := c1, vals := v } : EvRec)]) ++
  (if c1 = 3 ∧ c0 ≠ 3 then [({ ev := .unitCondemned, detail := 3, vals := v } : EvRec)] else []) ++
  (if h'.full && !h.full then [({ ev := .historyFull } : EvRec)] else [])
/-- Enter an error, with its events and the class after. -/
def histEnter (cap path op t : Nat) (h : History) : History × List EvRec × Nat :=
  let r := histError cap path t h
  (r.1, histEvents path op h r.1 r.2.1 r.2.2, if r.2.1 = 3 then 0 else r.2.2)
/-- The pod time in ns at which the error-free period of an entry ends (R415): 7 or 30 days after its last error. -/
def histEnd (e : HistEntry) : Nat := if e.cls = 2 then e.tLast + 7 * nsDay else e.tLast + 30 * nsDay
/-- The entry at an index: those classified in volatile memory follow the `cap` that the flash holds (assumption 64). -/
def histAt (cap i : Nat) (h : History) : HistEntry := if i < cap then tabGet {} h.entries i else h.vol.getD (i - cap) {}
/-- The error-free period of the entry at an index expires (R415): SUSPECT falls to TRANSIENT, TRANSIENT is removed. -/
def histDecay (cap i : Nat) (h : History) : History × List EvRec :=
  let e := histAt cap i h
  let put := fun (x : HistEntry) => if i < cap then { h with entries := tabSet {} h.entries i x }
    else { h with vol := if x.path = 0 then h.vol.eraseIdx (i - cap) else h.vol.set (i - cap) x }
  let told := fun (n : Nat) => [({ ev := .historyClass, detail := n, vals := reportVals { path := e.path, op := opNone, cls := n } } : EvRec)]
  match e.cls with
  | 2 => (put { e with cls := 1 }, told 1)
  | 1 => (put {}, told 0)
  | _ => (h, [])
/-- The number of entries in a class. -/
def histCount (h : History) (c : Nat) : Nat := (h.entries.filter (fun x => decide (x.2.cls = c))).length
/-- `HIST_SUMMARY` (R422). -/
def histSummary (h : History) : Word :=
  layW [⟨0, 16, histCount h 1⟩, ⟨16, 16, histCount h 2⟩, ⟨32, 16, histCount h 3⟩, ⟨48, 1, b2n h.full⟩]
/-- A history entry's 256 bits (R414). -/
def histGran (e : HistEntry) : Gran := lay [⟨0, 64, e.path⟩, ⟨64, 2, e.cls⟩, ⟨80, 32, e.total⟩, ⟨128, 64, e.tLast⟩, ⟨192, 64, e.tPrev⟩]
/-- The disabled-unit map (R417): the paths of the PERMANENT entries. -/
def disabledUnits (h : History) : List Nat :=
  (h.entries.filter (fun x => decide (x.2.cls = 3))).map (fun x => x.2.path) ++ (h.vol.filter (fun e => decide (e.cls = 3))).map HistEntry.path
/-- Is this unit condemned? -/
def isDisabled (h : History) (path : Nat) : Bool := (disabledUnits h).contains path
/-- Is this unit SUSPECT (R415)? -/
def isSuspect (h : History) (path : Nat) : Bool :=
  h.entries.any (fun x => decide (x.2.path = path) && decide (x.2.cls = 2)) || h.vol.any (fun e => decide (e.path = path) && decide (e.cls = 2))
/-- When a unit's background test falls due again (R377, R416): its base period in ns after the last, an eighth of it while it is SUSPECT. -/
def testDue (h : History) (path base : Nat) : Nat := tabGet 0 h.tested path + (if isSuspect h path then base / 8 else base)
/-- A unit's background test falls due now. -/
def testMark (path now : Nat) (h : History) : History := { h with tested := tabSet 0 h.tested path now }
/-- Remove a PERMANENT entry (R415). -/
def histClear (path : Nat) (h : History) : History :=
  { h with entries := tabMap {} (fun _ e => if e.path = path ∧ e.cls = 3 then {} else e) h.entries,
           vol := h.vol.filter (fun e => !(decide (e.path = path) && decide (e.cls = 3))) }

/-! ### Flash (R448, R453) -/
/-- A byte of the configuration flash; what nothing has programmed is erased. -/
def flashByte (s : Startup) (a : Nat) : Byte := tabGet 0xFF#8 s.flash a
/-- Bytes of the flash. -/
def flashRead (s : Startup) (a n : Nat) : Bytes := tabReadList 0xFF#8 s.flash a n
/-- Program bytes. -/
def flashWrite (s : Startup) (a : Nat) (bs : Bytes) : Startup := { s with flash := tabWriteList 0xFF#8 s.flash a bs }
/-- Erase a range. -/
def flashErase (s : Startup) (a n : Nat) : Startup :=
  { s with flash := s.flash.filter (fun x => !(decide (a ≤ x.1) && decide (x.1 < a + n))) }
def flashFactory : Nat := 0
def flashA : Nat := 0x100000
def flashB : Nat := 0x500000
def flashUserA : Nat := 0x900000
def flashUserB : Nat := 0x980000
def flashHist : Nat := 0xA00000
def flashRest : Nat := 0xB00000

/-! ### Images (R449 to R454, R474, R480) -/
/-- Sections of an image: type, offset, length, digest. -/
structure Section where
  typ : Nat
  off : Nat
  len : Nat
  dig : Gran
  deriving DecidableEq, Repr
/-- The section table at the start of a copy (R450). -/
def imageSections (s : Startup) (base : Nat) : List Section :=
  (List.range (satN 32 (leNat (flashRead s (base + 0x0A) 2)))).map (fun i =>
    let e := flashRead s (base + 0x100 + 48 * i) 48
    { typ := pf' e 0 2, off := pf' e 4 4, len := pf' e 8 4, dig := granOf (e.drop 16) })
where
  /-- a little-endian field -/
  pf' (p : Bytes) (o n : Nat) : Nat := leNat ((p.drop o).take n)
/-- A little-endian field of a byte string. -/
def bf (p : Bytes) (o n : Nat) : Nat := leNat ((p.drop o).take n)
/-- A signed field of little-endian bytes. -/
def bfs (b : Bytes) (o n : Nat) : Int := toSigned (8 * n) (bf b o n)
/-- Do two sections overlap? -/
def overlaps (a b : Section) : Bool := decide (a.off < b.off + b.len) && decide (b.off < a.off + a.len)
/-- No two of a list overlap. -/
def disjoint : List Section → Bool
  | [] => true
  | a :: t => t.all (fun b => !overlaps a b) && disjoint t
/-- Does the table meet R450, with every required section? -/
def tableOk (channel : Bool) (n imageLen : Nat) (l : List Section) : Bool :=
  l.all (fun x => decide (x.off % 32 = 0) && decide (0x100 + 48 * n ≤ x.off) && decide (x.off + x.len ≤ imageLen)) && disjoint l &&
  ([1, 4, 5, 7] ++ (if channel then [2, 3] else [])).all (fun t => l.any (fun x => decide (x.typ = t)))
/-- What a unit is, when it judges a copy (R452). -/
structure UnitId where
  channel : Bool
  /-- the role it may take: 0 leaf; 0 at a channel stands for any of the three -/
  role    : Nat
  serial  : Nat
  version : Nat
  deriving DecidableEq, Repr
/-- The bytes of a section. -/
def sectionBytes (s : Startup) (base : Nat) (x : Section) : Bytes := flashRead s (base + x.off) x.len
/-- The section of a type. -/
def sectionOf (s : Startup) (base ty : Nat) : Option Bytes :=
  ((imageSections s base).find? (fun x => decide (x.typ = ty))).map (sectionBytes s base)
/-- The `POLICY` section (R451). -/
def policyOf (b : Bytes) : Policy :=
  { turnInterval := bf b 0 1, slewRatePpm := bf b 1 1, bucketLeakMin := bf b 2 2, scrubFlashMin := bf b 4 2, scrubGranaryH := bf b 6 1,
    retainMin := bf b 7 1, testPeriodH := bf b 8 2, ptpDomain := bf b 0x0A 1, revertive := decide (bf b 0x0B 1 = 1), wtrS := bf b 0x0C 2,
    hbTimeoutUs := bf b 0x10 4, expectYard := bf b 0x14 1, expectBarn := bf b 0x15 1, gnssPos := bf b 0x18 12,
    gnssPosValid := decide (bf b 0x24 1 = 1) }
/-- Is every field of `POLICY` in its range, and zero where it does not apply to the unit's kind or role (R451)? Role 0 is a leaf. -/
def policyOk (role : Nat) (b : Bytes) : Bool :=
  let p := policyOf b
  let zero := fun (o n : Nat) => decide (bf b o n = 0)
  decide (b.length = 64) && decide (p.turnInterval ≤ 6) && decide (1 ≤ p.bucketLeakMin ∧ p.bucketLeakMin ≤ 1440) &&
  decide (10 ≤ p.scrubFlashMin ∧ p.scrubFlashMin ≤ 1440) &&
  (if role = 0 then
    zero 1 1 && zero 6 2 && zero 0x0A 4 && zero 0x14 2 && zero 0x18 13 &&
    decide (p.testPeriodH ≤ 720) && decide (p.hbTimeoutUs = 0 ∨ (10 ≤ p.hbTimeoutUs ∧ p.hbTimeoutUs ≤ 10000000))
  else
    (if role = 3 then decide (1 ≤ p.slewRatePpm ∧ p.slewRatePpm ≤ 10) else zero 1 1) &&
    decide (1 ≤ p.scrubGranaryH ∧ p.scrubGranaryH ≤ 168) && decide (10 ≤ p.retainMin ∧ p.retainMin ≤ 240) &&
    decide (p.ptpDomain ≤ 127) && decide (bf b 0x0B 1 ≤ 1) && decide (p.wtrS ≤ 3600) && decide (p.expectYard ≤ 15 ∨ p.expectYard = 255) &&
    (if role = 1 then decide (p.expectBarn ≤ 63 ∨ p.expectBarn = 255) else zero 0x15 1) && decide (bf b 0x24 1 ≤ 1) && zero 8 2 && zero 0x10 4)
/-- Do a channel's references and outputs have their lengths, and every output fields in range (R450, R217)? -/
def refsOutsOk (refs outs : Option Bytes) : Bool :=
  match refs, outs with
  | some r, some o => decide (r.length = 32) && decide (o.length = 384) &&
      (List.range 16).all (fun n => outCfgOk n (outCfgOf (bf o (24 * n) 8) (bf o (24 * n + 8) 8) (bf o (24 * n + 16) 8)))
  | _, _ => false
/-- Is the `ALARMS` section in range (R480)? -/
def alarmsOk (channel : Bool) (b : Bytes) : Bool :=
  decide (b.length = 32) && ((List.range 9).all (fun i => decide (bf b (i + 1) 1 ≤ 2))) && decide (bf b 0x10 1 ≤ 1) &&
  decide (1 ≤ bf b 0x11 1) && (if channel then decide (bf b 9 1 = 0) else decide (bf b 1 1 = 0) && decide (bf b 2 1 = 0))
/-- Does `TEST_PACKS`, where it stands, count at most 64 (R450)? -/
def packsOk (b : Option Bytes) : Bool := match b with | some x => decide (bf x 0 4 ≤ 64) | none => true
/-- The fault code of a copy (R452): the first check that fails. -/
def imageFault (u : UnitId) (owner : Bytes) (s : Startup) (base : Nat) : Nat :=
  let h := flashRead s base 256
  let l := imageSections s base
  let n := bf h 0x0A 2
  if bf h 0 4 ≠ 0x4D495242 then 1
  else if bf h 4 2 ≠ 1 ∨ bf h 0x10 8 = 0 ∨ !tableOk u.channel n (bf h 0x0C 4) l then 2
  else if bf h 6 1 ≠ b2n u.channel ∨ (if u.channel then (bf h 7 1 = 0 ∨ 3 < bf h 7 1) else bf h 7 1 ≠ 0) ∨
      (bf h 0x18 8 ≠ 0 ∧ bf h 0x18 8 ≠ u.serial) ∨ bf h 0x20 1 / 16 ≠ u.version / 16 ∨ bf h 0x21 1 ≠ 1 then 3
  else if bf h 0x60 8 ≠ keyIdPub owner ∨ bf h 0x68 8 ≠ keyIdPub Config.vendorKey ∨
      !Config.ed25519Verify owner (h.take 0x80) ((h.drop 0x80).take 64) ∨
      !Config.ed25519Verify Config.vendorKey (h.take 0x80) ((h.drop 0xC0).take 64) then 4
  else if (h.drop 0x40).take 32 ≠ sha256 (flashRead s (base + 0x100) (48 * n)) ∨
      !l.all (fun x => decide (granOf (sha256 (sectionBytes s base x)) = x.dig)) then 5
  else if n = 0 ∨ 32 < n ∨ bf h 0x0C 4 < 512 ∨ (if u.channel then 4194304 else 65536) < bf h 0x0C 4 ∨ (!u.channel && decide (bf h 8 1 ≠ 0)) ∨
      1 < bf h 8 1 ∨ !(match sectionOf s base 1 with | some b => policyOk (bf h 7 1) b | none => false) ∨
      !(match sectionOf s base 4 with | some b => alarmsOk u.channel b | none => false) ∨
      !packsOk (sectionOf s base 6) ∨
      (u.channel && !refsOutsOk (sectionOf s base 2) (sectionOf s base 3)) then 6
  else 0
/-- The wrapping key (R474). -/
def wrappingKey (sec : Security) (tmin : Nat) : Bytes := hkdf sec.unwrapKey (leBytes 4 tmin) (ascii "BURIDE KEYS".toList)
/-- The 64-byte entries of a `KEYS` section (R474). -/
def keyEntries (b : Bytes) : List Bytes := (List.range (bf b 4 2)).map (fun i => (b.drop (8 + 64 * i)).take 64)
/-- One wrapped secret: 40 bytes under the wrapping key. -/
def unwrapEntry (sec : Security) (tmin : Nat) (e : Bytes) : Option Bytes := keyUnwrap (wrappingKey sec tmin) ((e.drop 16).take 40)
/-- Load the `KEYS` section (R474, R482): second component, the unwrap failed. -/
def loadKeys (b : Bytes) (sec : Security) : Security × Bool :=
  let tmin := bf b 0 4
  let es := keyEntries b
  let wrapped := es.filter (fun e => decide (1 ≤ bf e 0 2 ∧ bf e 0 2 ≤ 4))
  let count := satN 63 (sec.tamperCount + sec.pendingBlow)
  let get := fun ty => (wrapped.find? (fun e => decide (bf e 0 2 = ty))).bind (unwrapEntry sec tmin)
  let sec1 := { sec with tamperMin := tmin,
                         debugKeys := ((es.filter (fun e => decide (bf e 0 2 = 0x10))).map (fun (e : Bytes) => (e.drop 16).take 32)).take 4,
                         packKeys := ((es.filter (fun e => decide (bf e 0 2 = 0x11))).map (fun (e : Bytes) => (e.drop 16).take 32)).take 8 }
  if sec.latch ∨ tmin < count ∨ 63 ≤ count ∨ !wrapped.all (fun e => (unwrapEntry sec tmin e).isSome) then
    ({ sec1 with keyless := true, unwrapFail := true, fabric := none, admW := none, admB := none, ledgerSeed := none }, true)
  else
    ({ sec1 with keyless := false, unwrapFail := false, fabric := get 1, admW := get 2, admB := get 3, ledgerSeed := get 4 }, false)
/-- Load the `ALARMS` section (R480). -/
def loadAlarms (b : Bytes) (sec : Security) : Security :=
  { sec with levels := (List.range 9).map (fun i => bf b (i + 1) 1), policyOpen := decide (bf b 0x10 1 = 1), tagFailLimit := bf b 0x11 1 }
/-- The 8-byte words of a section. -/
def wordsOf (b : Bytes) : List Nat := (chunks 8 b.length b).map leNat
/-- Load everything else of the chosen copy. -/
def loadImage (s : Startup) (base : Nat) (copyB : Bool) : Startup :=
  let h := flashRead s base 256
  { s with copyB := copyB, imageSeq := bf h 0x10 8, imageDigest := granOf (sha256 h), unitVersion := bf h 0x20 1, semVersion := bf h 0x21 1,
           strictForce := (bf h 9 1).testBit 0, injectOk := (bf h 9 1).testBit 1,
           policy := match sectionOf s base 1 with | some b => policyOf b | none => {},
           refWords := match sectionOf s base 2 with | some b => wordsOf b | none => [],
           outWords := match sectionOf s base 3 with | some b => wordsOf b | none => [],
           testPacks := match sectionOf s base 6 with
             | some b => (List.range (satN 64 (bf b 0 4))).map (fun i => bf b (4 + 4 * i) 4) | none => [] }
/-- Entries of a calibration body (R462); `fuel` bounds their number. -/
def calEntries : Nat → Bytes → List CalEntry
  | 0, _ => []
  | n + 1, b =>
    if b.length < 8 then []
    else
      let len := bf b 2 2
      { typ := bf b 0 2, key := bf b 4 4, data := (b.drop 8).take len } :: calEntries n (b.drop (8 + (len + 7) / 8 * 8))
/-- The bytes of an entry (R462). -/
def calBytes (e : CalEntry) : Bytes :=
  leBytes 2 e.typ ++ leBytes 2 e.data.length ++ leBytes 4 e.key ++ e.data ++ List.replicate ((8 - e.data.length % 8) % 8) 0#8
/-- Is the factory block sound (R459, R461)? -/
def factoryOk (serial : Nat) (s : Startup) : Bool :=
  let h := flashRead s flashFactory 128
  let body := flashRead s (flashFactory + 128) (satN 0xFFF80 (bf h 0x10 4))
  decide (bf h 0 4 = 0x4C414346) && decide (bf h 8 8 = serial) && decide ((h.drop 0x20).take 32 = sha256 body) &&
  Config.ed25519Verify Config.factoryKey (h.take 0x40) ((h.drop 0x40).take 64)
/-- The factory entries (R459). -/
def factoryEntries (s : Startup) : List CalEntry :=
  let h := flashRead s flashFactory 128
  calEntries 4096 (flashRead s (flashFactory + 128) (satN 0xFFF80 (bf h 0x10 4)))
/-- Is a user-block half valid (R462)? -/
def userHalfOk (s : Startup) (base : Nat) : Bool :=
  let h := flashRead s base 64
  decide (bf h 0 4 = 0x4B4C4355) && decide (bf h 0x14 4 ≤ 0x7FFC0) &&
  decide ((h.drop 0x20).take 32 = sha256 (flashRead s (base + 64) (bf h 0x14 4)))
/-- `SEQ` of a half, and whether it is a tombstone. -/
def userHalfSeq (s : Startup) (base : Nat) : Nat := bf (flashRead s base 64) 8 8
def userTomb (s : Startup) (base : Nat) : Bool := (bf (flashRead s base 64) 0x10 4).testBit 0
/-- The data of a factory or user entry of a type and key. -/
def calOf (l : List CalEntry) (typ key : Nat) : Option Bytes := (l.find? (fun e => decide (e.typ = typ ∧ e.key = key))).map CalEntry.data
/-- The `n` little-endian fields of `w` bytes in an entry's data (assumption 25: the widths the spec does not give). -/
def calFields (w n : Nat) (b : Bytes) : List Nat := (List.range n).map (fun i => bf b (w * i) w)
/-- A linearity table of a factory entry (R459, R460); an entry shorter than 255 values stands for none. -/
def facLin (s : Startup) (key : Nat) : List Nat :=
  match calOf s.factory 0x81 key with
  | some b => if 510 ≤ b.length then calFields 2 255 b else []
  | none => []
/-- A port's own calibration from the factory block and the user block's trims (R459, R460, R462): no offsets, no calibration. -/
def facPort (s : Startup) (ix : Nat) (p : Port) : Port :=
  let trim := match calOf s.user 4 ix with | some b => (toSigned 32 (bf b 0 4), toSigned 32 (bf b 4 4)) | none => (0, 0)
  match calOf s.factory 0x83 ix with
  | none => { p with cal := { p.cal with noOffsets := true, tNear := trim.1.toNat, rNear := trim.2.toNat } }
  | some b => { p with cal := { p.cal with noOffsets := false, tNear := (Int.ofNat (bf b 0 4) + trim.1).toNat, rNear := (Int.ofNat (bf b 4 4) + trim.2).toNat,
                                           loopNear := bf b 8 4, serdes := bf b 12 4 } }
/-- The delay from a pin to its TDC input's reference plane (R107, R459, R460); a missing entry counts as zero. -/
def facDelay (s : Startup) (key : Nat) : Nat := match calOf s.factory 0x82 key with | some x => bf x 0 4 | none => 0
/-- A TDC's own calibration from the factory block (R459, R460): an interpolator without a sound table is suspect (R109). DESIGN CHOICE
(assumption 75): inputs are numbered as interpolators are, the start of TDC n 2n and its stop 2n + 1. -/
def facTdc (s : Startup) (n : Nat) (t : Tdc) : Tdc :=
  let a := facLin s (2 * n)
  let b := facLin s (2 * n + 1)
  { t with tabStart := a, tabStop := b, linStart := !linTableOk a, linStop := !linTableOk b,
           dStart := facDelay s (2 * n), dStop := facDelay s (2 * n + 1),
           loopMin := match calOf s.factory 0x87 n with | some x => bf x 0 4 | none => 0,
           loopMax := match calOf s.factory 0x87 n with | some x => bf x 4 4 | none => 0xFFFFFFFF }
/-- Does a sensor serve at `now` (R581)? One not updated for 10 ms is stale. -/
def sensorFresh (now : Nat) (x : Sensor) : Bool := x.present && !x.stale && decide (now < x.at_ + 10000000)
/-- A sensor is read at `now` (R413, R581): the factory's trims are added to its temperature and its voltage (R459); a missing entry counts as zero
(R460). DESIGN CHOICE (assumption 25): the trims are signed and 4 bytes each. -/
def readSensor (s : Startup) (i : Nat) (temp : Int) (mv vmin now : Nat) : Sensor :=
  let b := (calOf s.factory 0x88 i).getD []
  { present := true, temp := temp + bfs b 0 4, mv := (Int.ofNat mv + bfs b 4 4).toNat, vmin := vmin, at_ := now, stale := false }
/-- The events of factory entries that are missing, of the types listed with their keys (R460). -/
def facMissing (s : Startup) (want : List (Nat × Nat)) : List EvRec :=
  (want.filter (fun w => (calOf s.factory w.1 w.2).isNone)).map (fun w => { ev := .factoryEntryMissing, index := w.2 % 256, detail := w.1, vals := [w.1, w.2] })
/-- Sections and blocks of the flash whose digest fails (R377, R453): copy 0 A, 1 B with the section's number (32 for the body digest), 2 the
factory block, 3 and 4 the halves of the user block. A copy being staged, and what was never written, is passed over. -/
def flashBadParts (serial : Nat) (s : Startup) : List (Nat × Nat) :=
  let copy := fun (c base : Nat) (staging : Bool) =>
    if staging || decide (bf (flashRead s base 4) 0 4 ≠ 0x4D495242) then ([] : List (Nat × Nat))
    else
      let h := flashRead s base 256
      let l := imageSections s base
      let bad := ((List.range l.length).filter (fun i =>
        match l[i]? with | some x => decide (granOf (sha256 (sectionBytes s base x)) ≠ x.dig) | none => false)).map (fun i => (c, i))
      bad ++ (if (h.drop 0x40).take 32 ≠ sha256 (flashRead s (base + 0x100) (48 * bf h 0x0A 2)) then [(c, 32)] else [])
  let half := fun (c base : Nat) =>
    if bf (flashRead s base 4) 0 4 = 0x4B4C4355 ∧ !userHalfOk s base then ([(c, 0)] : List (Nat × Nat)) else []
  copy 0 flashA s.stagingA ++ copy 1 flashB s.stagingB ++ (if factoryOk serial s then [] else [(2, 0)]) ++ half 3 flashUserA ++ half 4 flashUserB
/-- A flash pass falls due (R377): a pass still running is late, and the next starts when it ends. -/
def flashPassDue (s : Startup) : Startup × Bool :=
  if s.flashPass then ({ s with flashLate := true }, true) else ({ s with flashPass := true }, false)
/-- A flash pass ends (R377): what it found. -/
def flashPassEnd (serial now : Nat) (s : Startup) : Startup × List EvRec :=
  if s.flashPass then
    ({ s with flashPass := s.flashLate, flashLate := false, lastPass := now },
      (flashBadParts serial s).map (fun x => { ev := .flashSectionBad, index := 2, vals := [x.1, x.2] }))
  else (s, [])

/-- Load the user block (R462, R464): the valid half with the higher SEQ; second component, neither half is valid. -/
def loadUser (s : Startup) : Startup × Bool :=
  let a := userHalfOk s flashUserA
  let b := userHalfOk s flashUserB
  if !a && !b then ({ s with user := [], userSeq := 0, userHalfB := false, firstUse := true }, true)
  else
    let useB := b && (!a || decide (userHalfSeq s flashUserA < userHalfSeq s flashUserB))
    let base := if useB then flashUserB else flashUserA
    let es := if userTomb s base then [] else calEntries 4096 (flashRead s (base + 64) (bf (flashRead s base 64) 0x14 4))
    ({ s with user := es, userSeq := userHalfSeq s base, userHalfB := useB, firstUse := es.isEmpty }, false)
/-- Write a user-block half (R463). -/
def writeHalf (s : Startup) (base seq : Nat) (tomb : Bool) (es : List CalEntry) : Startup :=
  let body := es.flatMap calBytes
  let h := leBytes 8 0x4B4C4355 ++ leBytes 8 seq ++ leBytes 4 (b2n tomb) ++ leBytes 4 body.length ++ List.replicate 8 0#8 ++ sha256 body
  flashWrite (flashErase s base 0x80000) base (h ++ body)
/-- Put entries among others, replacing those of the same type and key. -/
def mergeCal (old new : List CalEntry) : List CalEntry :=
  old.filter (fun e => !new.any (fun n => decide (n.typ = e.typ ∧ n.key = e.key))) ++ new
/-- A due save (R463, R466, R547): the whole block goes to the half not last written, its SEQ one higher; after RESTORE_FACTORY the save is
discarded, and while saves are deferred it waits. -/
def userSave (s : Startup) : Startup :=
  if s.restorePending then { s with due := [] }
  else if s.saveHeld then s
  else
    let es := mergeCal s.user s.due
    { writeHalf s (if s.userHalfB then flashUserA else flashUserB) (s.userSeq + 1) false es with
      user := es, due := [], userSeq := s.userSeq + 1, userHalfB := !s.userHalfB }
/-- Queue entries for the next save (R463). -/
def userDue (es : List CalEntry) (s : Startup) : Startup := if s.restorePending then s else { s with due := mergeCal s.due es }
/-- `CONFIRM` accepted (R466): a tombstone half, the other erased. -/
def userTombstone (s : Startup) : Startup :=
  let newB := !s.userHalfB
  let s1 := writeHalf s (if newB then flashUserB else flashUserA) (s.userSeq + 1) true []
  { flashErase s1 (if newB then flashUserA else flashUserB) 0x80000 with
    userSeq := s.userSeq + 1, userHalfB := newB, restorePending := true, due := [], armed := none }
/-- The choice of copy (R452): `some copyB`, or none when neither is valid. -/
def chooseCopy (fa fb seqA seqB : Nat) : Option Bool :=
  if fa = 0 ∧ fb = 0 then some (decide (seqA < seqB)) else if fa = 0 then some false else if fb = 0 then some true else none
/-- What a start found: the start-up state, the keys, the events, and how many copies failed with SIGNATURE (R479). -/
structure StartOut where
  start : Startup
  sec   : Security
  evs   : List EvRec
  sigs  : Nat
/-- `IMAGE` phase (R452, R456, R461, R474): the factory block is checked, a copy chosen and its sections loaded; or QUARANTINE. -/
def startImage (u : UnitId) (s : Startup) (sec : Security) : StartOut :=
  let owner := Config.ownerKey sec.ownerHash
  let quar := fun (c : Nat) (x : Startup) (e : List EvRec) (n : Nat) =>
    ({ start := { x with phase := 4, qCause := c },
       sec := { sec with keyless := true, owner := owner },
       evs := e ++ [{ ev := .quarantined, detail := c, vals := [c] }], sigs := n } : StartOut)
  if !s.flashOk then quar 3 s [] 0
  else if !factoryOk u.serial s then quar 2 s [] 0
  else
    let fa := imageFault u owner s flashA
    let fb := imageFault u owner s flashB
    let sigs := b2n (decide (fa = 4)) + b2n (decide (fb = 4))
    let s1 := { s with faultA := fa, faultB := fb, factory := factoryEntries s, stagingA := false, stagingB := false, staged := false }
    let qa := leNat (flashRead s (flashA + 0x10) 8)
    let qb := leNat (flashRead s (flashB + 0x10) 8)
    match chooseCopy fa fb qa qb with
    | none => quar 1 s1 [] sigs
    | some b =>
      let base := if b then flashB else flashA
      let fell := (b && decide (fa ≠ 1) && decide (qb < qa)) || (!b && decide (fb ≠ 1) && decide (qa < qb))
      let s2 := { loadImage s1 base b with phase := 1, fallback := fell }
      let sec1 := match sectionOf s base 4 with | some a => loadAlarms a sec | none => sec
      let k := match sectionOf s base 5 with | some a => loadKeys a sec1 | none => ({ sec1 with keyless := true }, true)
      { start := s2, sec := { k.1 with owner := owner },
        evs := (if fell then [({ ev := .imageFallback, index := b2n (!b), detail := if b then fa else fb, vals := [if b then fa else fb] } : EvRec)]
                else []) ++
               (if k.2 then [({ ev := .keyUnwrapFail } : EvRec), { ev := .secKeyless }] else []),
        sigs := sigs }
/-- Which copy is staged (R454, R517): the one not in use; in `QUARANTINE`, where none is, the one that the host has programmed. -/
def stagedB (s : Startup) : Bool := if s.phase = 4 then s.stagingB || !s.stagingA else !s.copyB
/-- A staged copy is complete and is checked (R454): the fault it takes, with FORMAT for one whose SEQ is not higher. -/
def stageCheck (u : UnitId) (owner : Bytes) (s : Startup) : Startup × List EvRec × Bool :=
  let b := stagedB s
  let base := if b then flashB else flashA
  let f0 := imageFault u owner s base
  let f := if f0 = 0 ∧ leNat (flashRead s (base + 0x10) 8) ≤ s.imageSeq ∧ s.phase ≠ 4 then 2 else f0
  let s1 := if b then { s with faultB := f, stagingB := false } else { s with faultA := f, stagingA := false }
  if f = 0 then ({ s1 with staged := true }, [{ ev := .imageStaged, index := b2n b }], false)
  else ({ s1 with staged := false }, [{ ev := .imageBad, index := b2n b, detail := f, vals := [f] }], decide (f = 4))
/-- `START_STATUS` (R470). -/
def startStatusWord (s : Startup) : Word :=
  layW [⟨0, 3, s.phase⟩, ⟨3, 1, b2n s.cfgLocked⟩, ⟨4, 1, b2n s.firstUse⟩, ⟨5, 1, b2n s.restorePending⟩, ⟨8, 4, s.qCause⟩,
        ⟨16, 1, b2n s.copyB⟩, ⟨17, 1, b2n s.fallback⟩, ⟨24, 8, s.faultA⟩, ⟨32, 8, s.faultB⟩, ⟨40, 1, b2n s.staged⟩]

/-! ### Violations and debug unlock (R479 to R484) -/
/-- What a violation did: the level applied, and the events. -/
structure ViolOut where
  sec   : Security
  level : Nat
  evs   : List EvRec
/-- The level of a source. -/
def levelOf (src : Nat) (s : Security) : Nat := s.levels.getD (src - 1) 0
/-- A violation (R481 to R483): its bit and level are kept; LOCK and ERASE lock the unit and end debug; ERASE also zeroises every secret
key, latches, and starts a tamper-bit blow. DEDUCED (assumption 77): while an ERASE stands, another adds no second blow, as R483 applies the highest
level. -/
def violate (src : Nat) (s : Security) : ViolOut :=
  let lv := levelOf src s
  let s1 := { s with hist := s.hist ||| 2 ^ src, lastSource := src, lastLevel := lv }
  let note : EvRec := { ev := .secViolation, index := src, detail := lv, vals := [src, lv] }
  if lv = 0 then { sec := s1, level := 0, evs := [note] }
  else
    let s2 := { s1 with locked := true, debugOn := false, challengeValid := false }
    let e2 := [note] ++ (if s.locked then [] else [({ ev := .secLocked, index := src, detail := lv } : EvRec)]) ++
              (if s.debugOn then [({ ev := .debugLocked } : EvRec)] else [])
    if lv = 1 then { sec := s2, level := 1, evs := e2 }
    else
      { sec := { s2 with admW := none, admB := none, fabric := none, ledgerSeed := none, latch := true, keyless := true,
                         deviceKey := [], unwrapKey := [],
                         pendingBlow := if !s.latch && s.tamperCount + s.pendingBlow < 63 then s.pendingBlow + 1 else s.pendingBlow,
                         blowing := true },
        level := 2, evs := e2 ++ (if s.keyless then [] else [({ ev := .secKeyless, index := src, detail := lv } : EvRec)]) }
/-- How long a fuse controller may take to answer a blow, in ns (R573). -/
def blowTime : Nat := 40000000
/-- A start asks for the blows still pending in the history area (R482, R573), before anything is unwrapped. -/
def blowStart (s : Security) : Security := { s with blowing := decide (0 < s.pendingBlow), blowAt := 0 }
/-- A violation at `now` has asked for a blow. -/
def blowSince (now : Nat) (old s : Security) : Security := if s.blowing && !old.blowing then { s with blowAt := now } else s
/-- A blow asked for is answered at `now` (R482, R573): the counter is read again, and the next one pending is asked for. One answered with
`fuse_blow_ok` = 0, or after its 40 ms, stays pending for the next start. -/
def blowDone (now : Nat) (ok : Bool) (s : Security) : Security :=
  if !s.blowing then s
  else if ok && decide (now ≤ s.blowAt + blowTime) then
    { s with tamperCount := satN 63 (s.tamperCount + 1), pendingBlow := s.pendingBlow - 1, blowing := decide (1 < s.pendingBlow), blowAt := now }
  else { s with blowing := false }
/-- A debug request (R484): a fresh challenge, good for 10 s. -/
def debugRequest (now challenge : Nat) (s : Security) : Security :=
  { s with challenge := BitVec.ofNat 256 challenge, challengeValid := true, challengeAt := now }
/-- Does a response verify (R484)? -/
def debugOkay (serial now dur : Nat) (sig : Bytes) (s : Security) : Bool :=
  s.challengeValid && decide (now ≤ s.challengeAt + 10 * nsSec) && decide (1 ≤ dur) && decide (dur ≤ 480) &&
  s.debugKeys.any (fun k => Config.ed25519Verify k (granBytes s.challenge ++ leBytes 8 serial ++ leBytes 2 dur) sig)
/-- A debug response (R484). Third: it is the third failure in a row, a violation. DESIGN CHOICE (assumption 77): a challenge serves one unlock; a
response that fails leaves it valid for the rest of its 10 s. -/
def debugResponse (serial now dur : Nat) (sig : Bytes) (s : Security) : Security × List EvRec × Bool :=
  if debugOkay serial now dur sig s then
    ({ s with debugOn := true, debugUntil := now + dur * nsMin, unlockFails := 0, challengeValid := false },
      [{ ev := .debugUnlocked, vals := [dur] }], false)
  else
    let n := s.unlockFails + 1
    ({ s with unlockFails := if 3 ≤ n then 0 else n }, [{ ev := .debugUnlockFail }], decide (3 ≤ n))
/-- Debug-unlocked state ends (R484). -/
def debugEnd (s : Security) : Security × List EvRec :=
  if s.debugOn then ({ s with debugOn := false }, [{ ev := .debugLocked }]) else (s, [])
/-- `ALARM_CLEAR` (R481): valid with the owner's signature over the command ID and the unit serial. -/
def alarmClearOk (id serial : Nat) (sig : Bytes) (s : Security) : Bool :=
  Config.ed25519Verify s.owner (leBytes 8 id ++ leBytes 8 serial) sig
/-- Minutes of debug-unlocked state left. -/
def debugLeft (now : Nat) (s : Security) : Nat := if s.debugOn then (s.debugUntil - now + nsMin - 1) / nsMin else 0
/-- `SEC_STATUS` (R485). -/
def secStatusWord (now : Nat) (s : Security) : Word :=
  layW [⟨0, 1, b2n s.locked⟩, ⟨1, 1, b2n s.keyless⟩, ⟨2, 1, b2n s.policyOpen⟩, ⟨3, 1, b2n s.debugOn⟩, ⟨4, 1, b2n s.unwrapFail⟩,
        ⟨8, 6, s.tamperCount⟩, ⟨16, 4, s.lastSource⟩, ⟨20, 2, s.lastLevel⟩, ⟨22, 2, s.unlockFails⟩, ⟨24, 9, debugLeft now s⟩]
/-- `SEC_HIST` (R485). -/
def secHistWord (s : Security) : Word := BitVec.ofNat 64 (s.hist % 1024 / 2 * 2 + s.histEn * 2 ^ 17)
/-- The seal key (R472). -/
def sealKey (s : Security) : Bytes := hkdf s.deviceKey [] (ascii "SEAL".toList)

/-! ### Held answers (R437, R528) -/
/-- How a command compares with the held answers. -/
inductive Held where
  | fresh
  | again (a : MgmtAnswer)
  | conflict
  deriving DecidableEq, Repr
/-- Compare an ID and arguments with what is held. -/
def heldOf (id : Nat) (a : MgmtArgs) (l : List MgmtAnswer) : Held :=
  match l.find? (fun x => decide (x.id = id)) with
  | none => .fresh
  | some x => if x.args = a then .again x else .conflict

/-! ### Link keys (R475) -/
/-- The link key (R475). -/
def linkKeyOf (fabric : Bytes) (nUp nLow upSerial lowSerial port gen : Nat) : Bytes :=
  hkdf fabric (leBytes 8 nUp ++ leBytes 8 nLow) (leBytes 8 upSerial ++ leBytes 8 lowSerial ++ leBytes 2 port ++ leBytes 4 gen)
/-- The key that wraps it. -/
def wrapKeyOf (adm : Bytes) (nUp nLow upSerial lowSerial gen : Nat) : Bytes :=
  hkdf adm (leBytes 8 nUp ++ leBytes 8 nLow) (leBytes 8 upSerial ++ leBytes 8 lowSerial ++ leBytes 4 gen)
/-- CONFIRM's 64 bits. -/
def confirmOf (key : Bytes) (nUp nLow gen : Nat) : Nat :=
  leNat ((gmac key (List.replicate 12 0#8) (leBytes 8 nUp ++ leBytes 8 nLow ++ leBytes 4 gen)).take 8)

end Sys2Proof.Machine
end

