-- ==== Sys2Proof/Machine/KeyOps.lean ====
section
/-! DEFINITION. Link keys at one port (R475 to R478): the exchange of `KEY` messages, rekeying, and links without keys. -/
namespace Sys2Proof.Machine

/-- The ends of a link, as one end's key exchange sees them (R475). -/
structure KeyCtx where
  /-- this end is the upper one -/
  upper     : Bool
  ownSerial : Nat
  /-- the upper end's port number (2 bytes) -/
  port      : Nat
  adm       : Option Bytes
  fabric    : Option Bytes
  policyOpen : Bool
  /-- this end holds no keys and may run open, or is a leaf in QUARANTINE (R478) -/
  keyless   : Bool
  deriving DecidableEq, Repr

/-- The serials in the order upper, lower. -/
def upSerial (c : KeyCtx) (p : Port) : Nat := if c.upper then c.ownSerial else p.far.serial
def lowSerial (c : KeyCtx) (p : Port) : Nat := if c.upper then p.far.serial else c.ownSerial
/-- The nonces in the order upper, lower. -/
def upNonce (c : KeyCtx) (p : Port) : Nat := if c.upper then p.key.nonceOwn else p.key.nonceFar
def lowNonce (c : KeyCtx) (p : Port) : Nat := if c.upper then p.key.nonceFar else p.key.nonceOwn
/-- A `KEY` message (R139, R475). -/
def keyMsg (op gen : Nat) (fs : List Fld) : Gran := lay (⟨0, 8, 0x0A⟩ :: ⟨8, 8, op⟩ :: ⟨16, 32, gen⟩ :: fs)
/-- Key generation of the exchange in progress (R475, R477). -/
def exchangeGen (p : Port) : Nat := p.key.keyGen + 1
/-- Send this end's `NONCE`, or `NO_KEYS` where it holds none (R475, R478). -/
def keyHello (c : KeyCtx) (nonce : Nat) (p : Port) : Port :=
  if c.keyless then portCtrl (keyMsg 6 (exchangeGen p) []) p
  else
    let n := nonce % 2 ^ 64
    portCtrl (keyMsg 1 (exchangeGen p) [⟨48, 64, n⟩, ⟨112, 64, match c.adm with | some a => keyIdSecret a | none => 0⟩])
      { p with key := { p.key with nonceOwn := n } }
/-- An exchange may run: in training, or in a rekey. -/
def keyOpen (p : Port) : Bool := decide (p.state = .training) || (p.key.rekeying && decide (p.state = .up))
/-- A `NONCE` arrives (R475): the upper end derives the link key and sends it wrapped. -/
def keyNonceIn (c : KeyCtx) (g : Gran) (p : Port) : Port :=
  if keyOpen p then
    let p1 := { p with key := { p.key with nonceFar := gf g 111 48, farKeyId := gf g 175 112, newGen := gf g 47 16 } }
    if c.upper then
      match c.fabric, c.adm with
      | some f, some a =>
        let gen := gf g 47 16
        let k := linkKeyOf f (upNonce c p1) (lowNonce c p1) (upSerial c p1) (lowSerial c p1) c.port gen
        let w := wrapKeyOf a (upNonce c p1) (lowNonce c p1) (upSerial c p1) (lowSerial c p1) gen
        let iv := List.replicate 12 0#8
        let ct := gcmCrypt w iv k
        let tag := (gcmTag w iv [] ct).take 8
        portCtrl (keyMsg 3 gen [⟨48, 128, leNat (ct.drop 16)⟩, ⟨176, 64, leNat tag⟩])
          (portCtrl (keyMsg 2 gen [⟨48, 128, leNat (ct.take 16)⟩]) { p1 with key := { p1.key with newKey := some k } })
      | _, _ => p1
    else p1
  else p
/-- The first half of the wrapped key (R475). -/
def keyWrapLo (g : Gran) (p : Port) : Port := { p with key := { p.key with wrapLo := gf g 175 48 } }
/-- The second half (R475): the lower end checks IDs and tag, takes the key, and confirms; otherwise it sends nothing. -/
def keyWrapHi (c : KeyCtx) (g : Gran) (p : Port) : Port :=
  if c.upper then p
  else
    match c.adm with
    | none => p
    | some a =>
      let gen := gf g 47 16
      let w := wrapKeyOf a (upNonce c p) (lowNonce c p) (upSerial c p) (lowSerial c p) gen
      let iv := List.replicate 12 0#8
      let ct := leBytes 16 p.key.wrapLo ++ leBytes 16 (gf g 175 48)
      if p.key.farKeyId = keyIdSecret a ∧ leNat ((gcmTag w iv [] ct).take 8) = gf g 239 176 then
        let k := gcmCrypt w iv ct
        let msg := keyMsg 4 gen [⟨48, 64, confirmOf k (upNonce c p) (lowNonce c p) gen⟩]
        if p.state = .training then
          portCalibrate (portCtrl msg { p with key := { p.key with key := some k, keyGen := gen, newGen := gen, authenticated := true } })
        else portCtrl msg { p with key := { p.key with newKey := some k, newGen := gen } }
      else p
/-- `CONFIRM` reaches the upper end (R475, R477): the key is established; in a rekey, `SWITCH` names a block at least 4 ahead. -/
def keyConfirm (c : KeyCtx) (g : Gran) (p : Port) : Port :=
  if !c.upper then p
  else
    match p.key.newKey with
    | none => p
    | some k =>
      let gen := p.key.newGen
      if gf g 111 48 = confirmOf k (upNonce c p) (lowNonce c p) gen then
        if p.state = .training then
          portCalibrate { p with key := { p.key with key := some k, keyGen := gen, newKey := none, authenticated := true, fails := 0 } }
        else
          let b := p.beat.txBlock + 5
          portCtrl (keyMsg 5 gen [⟨48, 64, b⟩]) { p with key := { p.key with switchAt := some b, fails := 0 } }
      else p
/-- No `CONFIRM` within 1 ms of `WRAP_HI` (R475, R477), at the end that sent it, the upper one: a link in training faults; a rekey has failed, and
the third failure in a row faults. -/
def keyTimeout (upper : Bool) (ix : Nat) (p : Port) : Evd Port :=
  if !upper then (p, [])
  else if p.state = .training then (if p.key.authenticated || p.key.newKey.isNone then (p, []) else portFault ix causeKey p)
  else if p.key.rekeying && p.key.switchAt.isNone then
    let n := p.key.fails + 1
    let p1 := { p with key := { p.key with fails := n, rekeying := false, newKey := none } }
    if 3 ≤ n then portFault ix causeKey p1 else (p1, [])
  else (p, [])
/-- `SWITCH` reaches the lower end (R477), which holds the key it names. -/
def keySwitch (g : Gran) (p : Port) : Port :=
  if p.key.newKey.isSome then { p with key := { p.key with switchAt := some (gf g 111 48) } } else p
/-- `NO_KEYS` arrives (R478). -/
def noKeys (ix : Nat) (c : KeyCtx) (p : Port) : Evd Port :=
  if p.state ≠ .training then (p, [])
  else if c.policyOpen then
    (portCalibrate { p with key := { p.key with unauthenticated := true, authenticated := false, keyGen := 0, key := none } },
      if p.key.unauthenticated then [] else [portEv .linkUnauthenticated ix 0])
  else portFault ix causeKey p
/-- The upper end starts a rekey (R477); one that falls due while another runs waits for it. -/
def rekeyStart (c : KeyCtx) (nonce : Nat) (p : Port) : Port :=
  if c.upper && decide (p.state = .up) && p.key.authenticated && !p.key.rekeying then
    keyHello c nonce { p with key := { p.key with rekeying := true, newGen := p.key.keyGen + 1, blocks := 0, rotate := false, failAt := none } }
  else p
/-- The lower end answers a rekey's NONCE with its own. -/
def keyNonceAnswer (c : KeyCtx) (nonce : Nat) (g : Gran) (p : Port) : Port :=
  if !c.upper && decide (p.state = .up) then keyHello c nonce (keyNonceIn c g { p with key := { p.key with rekeying := true } })
  else keyNonceIn c g p

end Sys2Proof.Machine
end

