-- ==== Sys2Proof/Machine/ProgOps.lean ====
section
/-! DEFINITION. Step programs as data (chapter Step Programs, R263, R264, R308): header fields, lane groups, predicates, chaff checks, branch
masks, the lane formats with what each permits, and the nine checks of R303. -/
namespace Sys2Proof.Machine

/-! ### Header fields (R294) -/
/-- A little-endian field of `n` bytes at offset `o`. -/
def pf (p : Bytes) (o n : Nat) : Nat := leNat ((p.drop o).take n)
def pgLen (p : Bytes) : Nat := pf p 0x06 2
def pgStrict (p : Bytes) : Bool := (pf p 0x09 1).testBit 0
def pgParkOk (p : Bytes) : Bool := (pf p 0x09 1).testBit 1
def pgFreqOk (p : Bytes) : Bool := (pf p 0x09 1).testBit 2
def pgLedgerFull (p : Bytes) : Bool := (pf p 0x09 1).testBit 3
def pgLocal (p : Bytes) : Bool := (pf p 0x09 1).testBit 4
def pgInflight (p : Bytes) : Nat := pf p 0x0A 1
def pgGroups (p : Bytes) : Nat := pf p 0x0B 1
def pgPredicates (p : Bytes) : Nat := pf p 0x0C 1
def pgChaff (p : Bytes) : Nat := pf p 0x0D 1
def pgMasks (p : Bytes) : Nat := pf p 0x0E 1
def pgCadence (p : Bytes) : Nat := pf p 0x10 8
def pgPhase (p : Bytes) : Nat := pf p 0x18 8
def pgLead (p : Bytes) : Nat := pf p 0x20 8
def pgGenTimeoutUs (p : Bytes) : Nat := pf p 0x28 4
def pgFormTimeoutS (p : Bytes) : Nat := pf p 0x2C 4
def pgSuspendTimeoutS (p : Bytes) : Nat := pf p 0x30 4
def pgPartialMax (p : Bytes) : Nat := pf p 0x34 4 % 2 ^ 19
def pgStragglerLimit (p : Bytes) : Nat := pf p 0x38 2
def pgPayGranules (p : Bytes) : Nat := pf p 0x3A 2
def pgResGranules (p : Bytes) : Nat := pf p 0x3C 2
def pgNoteLen (p : Bytes) : Nat := pf p 0x3E 2
def pgFireMask (p : Bytes) : Nat := pf p 0x40 8
/-- Where each section starts (R293). -/
def pgPredAt (p : Bytes) : Nat := 128 + 8 * pgGroups p
def pgChaffAt (p : Bytes) : Nat := pgPredAt p + 32 * pgPredicates p
def pgMaskAt (p : Bytes) : Nat := pgChaffAt p + 32 * pgChaff p
/-- The branch mask entries (R301): branch code and tap mask. -/
def pgMaskList (p : Bytes) : List (Nat × Nat) :=
  (List.range (pgMasks p)).map (fun i => (pf p (pgMaskAt p + 16 * i) 1, pf p (pgMaskAt p + 16 * i + 8) 8))
/-- The taps a launch with branch code `b` fires in (R301). -/
def pgTapsOf (p : Bytes) (b : Nat) : Nat :=
  match (pgMaskList p).find? (fun e => decide (e.1 = b)) with
  | some e => e.2
  | none => pgFireMask p
/-- The union of every mask of a program (R301). -/
def pgAllTaps (p : Bytes) : Nat := (pgMaskList p).foldl (fun a e => a ||| e.2) (pgFireMask p)
/-- Effectively strict at this unit (R302). -/
def effStrict (force : Bool) (p : Bytes) : Bool := pgStrict p || force
/-- `PARTIAL_MAX`, `STRAGGLER_LIMIT` and `LEDGER_FULL` under the effective strict flag (R302). -/
def effPartialMax (force : Bool) (p : Bytes) : Nat := if effStrict force p then 0 else pgPartialMax p
def effStraggler (force : Bool) (p : Bytes) : Nat := if effStrict force p then 0 else pgStragglerLimit p
def effLedgerFull (force : Bool) (p : Bytes) : Bool := effStrict force p || pgLedgerFull p

/-! ### Lane groups (R263, R264, R295, R297) -/
/-- A lane-table entry (R295). -/
structure Group where
  fmt  : Nat
  op   : Nat
  form : Nat
  pay  : Nat
  deriving DecidableEq, Repr
/-- Element width of a format in bits. -/
def fmtBits (f : Nat) : Nat :=
  match f with
  | 0 => 32 | 1 => 32 | 2 => 64 | 3 => 64 | 4 => 64 | 5 => 32 | 6 => 16 | 7 => 16 | 8 => 8 | 9 => 8 | 10 => 32 | 11 => 16 | _ => 256
/-- Lanes per granule. -/
def fmtLanes (f : Nat) : Nat := 256 / fmtBits f
/-- Is a format one of the float formats? -/
def fmtFloat (f : Nat) : Bool := decide (4 ≤ f ∧ f ≤ 9)
/-- Is a format signed? -/
def fmtSigned (f : Nat) : Bool := decide (f = 1 ∨ f = 3)
/-- The combinations that R264 permits: operations 0 `SUM` to 8 `XOR`, result forms 0 `OWN` to 4 `WIDE`. -/
def comboOk (f op form : Nat) : Bool :=
  let sums : List Nat :=
    match f with
    | 0 => [0, 4] | 1 => [0, 4] | 2 => [0, 4] | 3 => [0, 4]
    | 4 => [0, 1, 3] | 5 => [0, 2, 3]
    | 6 => [0, 1, 2, 3] | 7 => [0, 1, 2, 3] | 8 => [0, 1, 2, 3] | 9 => [0, 1, 2, 3]
    | 11 => [0, 4] | 12 => [0] | _ => []
  let others : List Nat :=
    match f with
    | 0 => [1, 2, 4, 5] | 2 => [1, 2, 4, 5]
    | 1 => [1, 2, 3, 4, 5] | 3 => [1, 2, 3, 4, 5] | 4 => [1, 2, 3, 4, 5] | 5 => [1, 2, 3, 4, 5]
    | 6 => [1, 2, 3] | 7 => [1, 2, 3] | 8 => [1, 2, 3] | 9 => [1, 2, 3]
    | 10 => [6, 7, 8] | _ => []
  if op = 0 then sums.contains form else others.contains op && decide (form = 0)
/-- Is the group an `ARG` group? -/
def isArg (op : Nat) : Bool := decide (op = 4 ∨ op = 5)
/-- Result element width (R297). -/
def resBits (f form : Nat) : Nat :=
  match form with
  | 1 => 32
  | 2 => 64
  | 3 => if f = 4 then 2240 else 384
  | 4 => if f = 2 ∨ f = 3 then 128 else 64
  | _ => fmtBits f
/-- Result granules of a group (R297). -/
def groupRes (g : Group) : Nat :=
  (g.pay * fmtLanes g.fmt * resBits g.fmt g.form + 255) / 256 * (if isArg g.op then 2 else 1)
/-- The lane table. -/
def pgGroupList (p : Bytes) : List Group :=
  (List.range (pgGroups p)).map (fun i =>
    let e := pf p (128 + 8 * i) 8
    { fmt := bitsOf e 3 0, op := bitsOf e 7 4, form := bitsOf e 10 8, pay := bitsOf e 22 16 })
/-- The kind of each payload granule in lane-table order: format and operation. -/
def payKinds (gs : List Group) : List (Nat × Nat) := gs.flatMap (fun g => List.replicate g.pay (g.fmt, g.op))
/-- The cost class of a format (R308): 0 two cycles, 1 four, 2 eight. -/
def costClass (f : Nat) : Nat := if f = 4 then 2 else if f = 2 ∨ f = 3 ∨ f = 12 then 1 else 0
/-- The cycles of an input granule (R308). -/
def costCycles (f : Nat) : Nat := 2 * 2 ^ costClass f
/-- The shadow granules of a program (R404): per lane class held, in class order, as `SUM` groups of FP32, U64 and FP64. -/
def shadowKinds (gs : List Group) : List (Nat × Nat) :=
  (if gs.any (fun g => decide (costClass g.fmt = 0)) then [(5, 0)] else []) ++
  (if gs.any (fun g => decide (costClass g.fmt = 1)) then [(2, 0)] else []) ++
  (if gs.any (fun g => decide (costClass g.fmt = 2)) then [(4, 0)] else [])
/-- Is generation g a shadow generation (R404)? -/
def isShadow (g : Nat) : Bool := decide (g % 32 = 31)
/-- The kinds of every granule of generation g's payload, shadow granules last. -/
def genKinds (p : Bytes) (g : Nat) : List (Nat × Nat) :=
  payKinds (pgGroupList p) ++ (if isShadow g then shadowKinds (pgGroupList p) else [])
/-- `PAYLOAD_COUNT` of a generation (R233). -/
def payCount (p : Bytes) (g : Nat) : Nat := (genKinds p g).length

/-! ### Predicates and chaff checks (R298, R300) -/
/-- A predicate entry (R298). -/
structure Pred where
  source  : Nat
  cmp     : Nat
  branch  : Nat
  select  : Nat
  lane    : Nat
  const   : Nat
  modulus : Nat
  deriving DecidableEq, Repr
/-- The predicates. -/
def pgPredList (p : Bytes) : List Pred :=
  (List.range (pgPredicates p)).map (fun i =>
    let o := pgPredAt p + 32 * i
    { source := pf p o 1, cmp := pf p (o + 1) 1, branch := pf p (o + 2) 1, select := pf p (o + 3) 1, lane := pf p (o + 4) 2,
      const := pf p (o + 8) 8, modulus := pf p (o + 0x10) 8 })
/-- A chaff-check entry (R300). -/
structure ChaffEnt where
  kind   : Nat
  group  : Nat
  lane   : Nat
  finite : Bool
  shift  : Nat
  k      : Nat
  lo     : Nat
  hi     : Nat
  warmup : Nat
  deriving DecidableEq, Repr
/-- The chaff-check entries. -/
def pgChaffList (p : Bytes) : List ChaffEnt :=
  (List.range (pgChaff p)).map (fun i =>
    let o := pgChaffAt p + 32 * i
    { kind := pf p o 1, group := pf p (o + 1) 1, lane := pf p (o + 2) 2, finite := (pf p (o + 4) 1).testBit 0, shift := pf p (o + 5) 1,
      k := pf p (o + 6) 2, lo := pf p (o + 8) 8, hi := pf p (o + 0x10) 8, warmup := pf p (o + 0x18) 4 })

/-! ### Real values of FP64 patterns -/
/-- A value as the predicates and chaff checks read it: a NaN, an infinity (negative?), or a real in units of 2^-1074 (every format of
R264 is exact in them). -/
inductive Rl where
  | nan
  | inf (neg : Bool)
  | fin (v : Int)
  deriving DecidableEq, Repr
/-- A float of `eb` exponent and `fb` fraction bits with this bias; `e4m3` has no infinity (R266, R267). -/
structure FloatFmt where
  eb   : Nat
  fb   : Nat
  bias : Nat
  e4m3 : Bool := false
  deriving DecidableEq, Repr
/-- The float formats of R267. -/
def floatFmt (f : Nat) : FloatFmt :=
  match f with
  | 4 => ⟨11, 52, 1023, false⟩
  | 5 => ⟨8, 23, 127, false⟩
  | 6 => ⟨8, 7, 127, false⟩
  | 7 => ⟨5, 10, 15, false⟩
  | 8 => ⟨4, 3, 7, true⟩
  | _ => ⟨5, 2, 15, false⟩
/-- Sign, biased exponent and fraction of a pattern. -/
def fSign (t : FloatFmt) (x : Nat) : Bool := x.testBit (t.eb + t.fb)
def fExp (t : FloatFmt) (x : Nat) : Nat := bitsOf x (t.eb + t.fb - 1) t.fb
def fFrac (t : FloatFmt) (x : Nat) : Nat := x % 2 ^ t.fb
/-- Is a pattern a NaN, or an infinity? -/
def fNan (t : FloatFmt) (x : Nat) : Bool :=
  decide (fExp t x = 2 ^ t.eb - 1) && (if t.e4m3 then decide (fFrac t x = 2 ^ t.fb - 1) else decide (fFrac t x ≠ 0))
def fInf (t : FloatFmt) (x : Nat) : Bool := !t.e4m3 && decide (fExp t x = 2 ^ t.eb - 1) && decide (fFrac t x = 0)
/-- The significand M of R268. -/
def fMant (t : FloatFmt) (x : Nat) : Nat := fFrac t x + (if fExp t x = 0 then 0 else 2 ^ t.fb)
/-- The real value of a pattern. -/
def fReal (t : FloatFmt) (x : Nat) : Rl :=
  if fNan t x then .nan
  else if fInf t x then .inf (fSign t x)
  else
    let m : Int := (fMant t x : Int) * 2 ^ (max (fExp t x) 1 + 1074 - t.bias - t.fb)
    .fin (if fSign t x then -m else m)
/-- An FP64 pattern's real value. -/
def fp64Real (x : Nat) : Rl := fReal (floatFmt 4) x
/-- Real comparison: `none` when a NaN is involved. -/
def rlLe (a b : Rl) : Option Bool :=
  match a, b with
  | .nan, _ => none
  | _, .nan => none
  | .inf true, _ => some true
  | _, .inf false => some true
  | .inf false, _ => some false
  | _, .inf true => some false
  | .fin x, .fin y => some (decide (x ≤ y))

/-! ### The nine checks (R303) -/
/-- Could a predicate read this group's lanes as float or integer lanes (R299, R300)? -/
def readable (g : Group) : Bool := decide (g.fmt ≠ 12) && decide (g.fmt ≠ 10) && decide (g.form ≠ 3)
/-- Lanes of a group (R296). -/
def groupLanes (g : Group) : Nat := g.pay * fmtLanes g.fmt
/-- Does a predicate meet check 7? -/
def predOk (gs : List Group) (q : Pred) : Bool :=
  decide (1 ≤ q.branch ∧ q.branch ≤ 15) &&
  (match q.source with
   | 0 =>
     match gs[q.select]? with
     | none => false
     | some g =>
       decide (q.lane < groupLanes g) && decide (g.fmt ≠ 12) && decide (g.form ≠ 3) &&
       (if g.fmt = 10 then decide (q.cmp = 0 ∨ q.cmp = 1 ∨ q.cmp = 6 ∨ q.cmp = 7)
        else decide (q.cmp ≤ 5) && !(fmtFloat g.fmt && decide (fp64Real q.const = .nan)))
   | 1 => decide (q.select ≤ 6) && decide (q.lane = 0) && decide (q.cmp ≤ 5)
   | 2 => decide (q.select = 0) && decide (q.lane = 0) && decide (q.cmp = 0 ∨ q.cmp = 1 ∨ q.cmp = 6 ∨ q.cmp = 7)
   | 3 => decide (q.select = 0) && decide (q.lane = 0) && decide (q.cmp ≤ 5) && decide (1 ≤ q.modulus)
   | _ => false)
/-- Does a chaff-check entry meet check 8? -/
def chaffOk (gs : List Group) (c : ChaffEnt) : Bool :=
  match gs[c.group]? with
  | none => false
  | some g =>
    decide (c.kind ≤ 3) && readable g && (decide (c.lane = 0xFFFF) || decide (c.lane < groupLanes g)) &&
    (decide (c.kind ≠ 0) || fmtFloat g.fmt) &&
    (if c.kind = 2 then decide (1 ≤ c.shift ∧ c.shift ≤ 16) else decide (c.shift = 0)) &&
    (if c.kind = 2 ∨ c.kind = 3 then decide (1 ≤ c.k) else decide (c.k = 0)) &&
    (decide (c.kind ≠ 1) || decide (rlLe (fp64Real c.lo) (fp64Real c.hi) = some true))
/-- The length check 1 asks for (R293, R303). -/
def pgLenWant (p : Bytes) : Nat := (pgMaskAt p + 16 * pgMasks p + pgNoteLen p + 31) / 32 * 32
/-- Is every header field in its range (check 4)? -/
def headerOk (p : Bytes) : Bool :=
  decide (1 ≤ pgInflight p ∧ pgInflight p ≤ 4) && decide (pgGroups p ≤ 64) && decide (pgPredicates p ≤ 4) && decide (pgChaff p ≤ 16) &&
  decide (pgMasks p ≤ 4) && decide (pgCadence p ≤ 1000000000000) &&
  (if pgCadence p = 0 then decide (pgPhase p = 0) else decide (pgPhase p < pgCadence p)) && decide (pgLead p ≤ 1000000000) &&
  decide (10 ≤ pgGenTimeoutUs p ∧ pgGenTimeoutUs p ≤ 60000000) && decide (1 ≤ pgFormTimeoutS p ∧ pgFormTimeoutS p ≤ 86400) &&
  decide (1 ≤ pgSuspendTimeoutS p ∧ pgSuspendTimeoutS p ≤ 604800) && decide (pgPayGranules p ≤ 64) && decide (pgResGranules p ≤ 255)
/-- Do all codes of a list differ? -/
def distinctNat : List Nat → Bool
  | [] => true
  | a :: t => !t.contains a && distinctNat t
/-- Is check 1 met by the bytes present (R303)? -/
def lengthOk (p : Bytes) : Bool :=
  decide (128 ≤ pgLen p ∧ pgLen p ≤ 4000) && decide (pgLen p % 32 = 0) && decide (pgLen p = pgLenWant p) && decide (p.length = pgLen p)
/-- The first check of R303 that a program fails; 0 when it passes all. `sem` is the semantics version the unit implements. -/
def progCheck (sem : Nat) (p : Bytes) : Nat :=
  let gs := pgGroupList p
  if pf p 0 4 ≠ 0x4D525053 ∨ pf p 4 2 ≠ 1 ∨ !lengthOk p then 1
  else if pf p 8 1 ≠ sem then 2
  else if (if pgLocal p then pgGroups p ≠ 0 ∨ pgPredicates p ≠ 0 ∨ pgChaff p ≠ 0 else pgGroups p = 0) then 3
  else if !headerOk p then 4
  else if !gs.all (fun g => comboOk g.fmt g.op g.form && decide (1 ≤ g.pay ∧ g.pay ≤ 64)) ∨ pgPayGranules p ≠ (gs.map Group.pay).sum ∨
      pgResGranules p ≠ (gs.map groupRes).sum then 5
  else if pgStrict p ∧ (pgCadence p = 0 ∨ pgPartialMax p ≠ 0 ∨ pgStragglerLimit p ≠ 0 ∨ !pgLedgerFull p) then 6
  else if !(pgPredList p).all (predOk gs) then 7
  else if !(pgChaffList p).all (chaffOk gs) then 8
  else if !((pgMaskList p).all (fun e => decide (1 ≤ e.1 ∧ e.1 ≤ 15)) && distinctNat ((pgMaskList p).map Prod.fst)) then 9
  else 0

end Sys2Proof.Machine
end

