-- ==== Sys2Proof/Machine/LaneOps.lean ====
section
/-! DEFINITION. Exact reduction (chapter Threshing): lane accumulators, raw payload granules, crumb and plain blocks of partials, glazing and
integer conversion, result granules, and the values of shadow lanes (R263 to R285, R404). -/
namespace Sys2Proof.Machine

/-- One lane's accumulator (R267, R268): for `SUM` the exact value in units of 2^-B; for the other operations the running value's bits.
`has` says that something was contributed, `rank` is an `ARG` lane's rank. -/
structure Lane where
  v      : Int := 0
  nan    : Bool := false
  pinf   : Bool := false
  ninf   : Bool := false
  poison : Bool := false
  negz   : Bool := true
  has    : Bool := false
  rank   : Nat := 0
  deriving DecidableEq, Repr
/-- A block: the lanes of one payload granule. -/
abbrev Block := List Lane

/-- B of a format's accumulator (R267). -/
def accB (f : Nat) : Nat := if f = 4 then 1074 else if fmtFloat f then 149 else 0
/-- Limbs of a format's accumulator (R267). -/
def accLimbs (f : Nat) : Nat := if f = 4 then 34 else if fmtFloat f then 5 else 2
/-- The canonical quiet NaN (R266). -/
def canonNan (f : Nat) : Nat :=
  match f with
  | 4 => 0x7FF8000000000000 | 5 => 0x7FC00000 | 6 => 0x7FC0 | 7 => 0x7E00 | 8 => 0x7F | _ => 0x7E
/-- Element i of a granule at a width (R5). -/
def elemAt (w : Nat) (g : Gran) (i : Nat) : Nat := bitsOf g.toNat (w * i + w - 1) (w * i)
/-- The elements of a granule in a format. -/
def elems (f : Nat) (g : Gran) : List Nat := (List.range (fmtLanes f)).map (elemAt (fmtBits f) g)
/-- Lay elements of width w into a granule. -/
def layElems (w : Nat) (l : List Nat) : Gran := lay (l.zipIdx.map (fun x => ⟨w * x.2, w, x.1⟩))

/-! ### Adding a contribution (R265, R268) -/
/-- The order of two float patterns that are no NaN: −0 below +0 (R265). -/
def fKey (t : FloatFmt) (x : Nat) : Int := if fSign t x then -((x % 2 ^ (t.eb + t.fb) : Nat) : Int) - 1 else (x % 2 ^ (t.eb + t.fb) : Nat)
/-- The key by which an operation compares a format's patterns. -/
def cmpKey (f : Nat) (x : Nat) : Int := if fmtFloat f then fKey (floatFmt f) x else if fmtSigned f then toSigned (fmtBits f) x else x
/-- The magnitude pattern of an `AMAX` contribution (R265). -/
def amaxOf (f : Nat) (x : Nat) : Nat :=
  if fmtFloat f then x % 2 ^ (fmtBits f - 1) else (toSigned (fmtBits f) x).natAbs
/-- One running value meets another (R265): `r` the rank of the new one. -/
def opMerge (f op : Nat) (a : Lane) (x : Nat) (nan : Bool) (r : Nat) : Lane :=
  if nan then
    if a.nan then { a with rank := min a.rank r } else { a with v := canonNan f, nan := true, has := true, rank := r, negz := false }
  else if a.nan then a
  else if !a.has then { a with v := x, has := true, rank := r, negz := false }
  else
    let y := a.v.toNat
    match op with
    | 1 => if cmpKey f x < cmpKey f y then { a with v := x } else a
    | 2 => if cmpKey f y < cmpKey f x then { a with v := x } else a
    | 3 => if y < x then { a with v := x } else a
    | 4 => if cmpKey f x < cmpKey f y then { a with v := x, rank := r } else if x = y ∧ r < a.rank then { a with rank := r } else a
    | 5 => if cmpKey f y < cmpKey f x then { a with v := x, rank := r } else if x = y ∧ r < a.rank then { a with rank := r } else a
    | 6 => { a with v := Nat.land y x }
    | 7 => { a with v := Nat.lor y x }
    | _ => { a with v := Nat.xor y x }
/-- The term a raw contribution adds to a `SUM` register (R268). -/
def sumTerm (f : Nat) (x : Nat) : Int :=
  if fmtFloat f then
    let t := floatFmt f
    let m : Int := ((fMant t x * 2 ^ (max (fExp t x) 1 + accB f - t.bias - t.fb) : Nat) : Int)
    if fSign t x then -m else m
  else if fmtSigned f then toSigned (fmtBits f) x
  else x
/-- Is a pattern −0? -/
def isNegZero (f x : Nat) : Bool := fmtFloat f && decide (x = 2 ^ (fmtBits f - 1))
/-- A raw contribution reaches a lane (R265, R268). -/
def laneAdd (f op r : Nat) (a : Lane) (x : Nat) : Lane :=
  let t := floatFmt f
  if op = 0 then
    if f = 12 then { a with v := ((a.v.toNat + x) % 2 ^ 256 : Nat), has := true, negz := false }
    else if fmtFloat f && fNan t x then { a with nan := true, has := true }
    else if fmtFloat f && fInf t x then
      if fSign t x then { a with ninf := true, has := true } else { a with pinf := true, has := true }
    else { a with v := a.v + sumTerm f x, negz := a.negz && isNegZero f x, has := true }
  else opMerge f op a (if op = 3 then amaxOf f x else x) (fmtFloat f && fNan t x) r
/-- An empty block of a format. -/
def emptyBlock (f : Nat) : Block := List.replicate (fmtLanes f) {}
/-- A member's payload granule reaches a block (R283: a poisoned one poisons every lane). -/
def blockAdd (f op r : Nat) (b : Block) (g : Granule) : Block :=
  if g.poison then b.map (fun a => { a with poison := true, has := true })
  else List.zipWith (laneAdd f op r) b (elems f g.data)
/-- NaN, +Inf and −Inf contributions in a raw granule (R272). -/
def specials (f : Nat) (g : Granule) : Nat × Nat × Nat :=
  if fmtFloat f && !g.poison then
    let t := floatFmt f
    let l := elems f g.data
    ((l.filter (fNan t)).length, (l.filter (fun x => fInf t x && !fSign t x)).length, (l.filter (fun x => fInf t x && fSign t x)).length)
  else (0, 0, 0)
/-- Two lanes are merged, as a block of a partial meets the accumulator (R276). -/
def laneMerge (f op : Nat) (a b : Lane) : Lane :=
  let fl := { a with nan := a.nan || b.nan, pinf := a.pinf || b.pinf, ninf := a.ninf || b.ninf, poison := a.poison || b.poison,
                     has := a.has || b.has }
  if op = 0 then
    if f = 12 then { fl with v := ((a.v.toNat + b.v.toNat) % 2 ^ 256 : Nat), negz := false }
    else { fl with v := a.v + b.v, negz := a.negz && b.negz }
  else if b.poison || !b.has then { a with poison := a.poison || b.poison, has := a.has || b.has }
  else { opMerge f op a b.v.toNat b.nan b.rank with poison := a.poison || b.poison }
/-- Two blocks are merged. -/
def blockMerge (f op : Nat) (a b : Block) : Block := List.zipWith (laneMerge f op) a b

/-! ### Blocks of a reduced partial (R273, R275, R276) -/
/-- The four words of a granule. -/
def granWords (g : Gran) : List Nat := (List.range 4).map (elemAt 64 g)
/-- Words packed into granules, padded with zero words (R275). -/
def wordGrans (ws : List Nat) : List Gran := (chunks 4 ws.length ws).map (layElems 64)
/-- Limb j of a magnitude. -/
def limb (m j : Nat) : Nat := bitsOf m (64 * j + 63) (64 * j)
/-- The mask of non-zero limbs. -/
def limbMask (f m : Nat) : Nat := layNat ((List.range (accLimbs f)).map (fun j => (⟨j, 1, b2n (decide (limb m j ≠ 0))⟩ : Fld)))
/-- The crumb header of a lane (R276). -/
def crumbHead (f : Nat) (mask : Nat) (a : Lane) : Nat :=
  layNat [⟨0, 34, if a.poison then 0 else mask⟩, ⟨34, 1, b2n (!a.poison && decide (a.v < 0))⟩, ⟨35, 1, b2n a.nan⟩, ⟨36, 1, b2n a.pinf⟩,
          ⟨37, 1, b2n a.ninf⟩, ⟨38, 1, b2n a.poison⟩, ⟨39, 1, b2n a.negz⟩, ⟨40, 24, 0 * f⟩]
/-- The words of a lane's crumb; none when its header would be all zero. -/
def crumbWords (f : Nat) (a : Lane) : List Nat :=
  let m := a.v.natAbs
  let h := crumbHead f (limbMask f m) a
  if h = 0 then []
  else h :: (if a.poison then [] else ((List.range (accLimbs f)).map (limb m)).filter (fun x => decide (x ≠ 0)))
/-- A crumb block (R275). -/
def crumbBlock (f : Nat) (b : Block) : List Granule :=
  let cs := b.map (crumbWords f)
  let mask := layNat (cs.zipIdx.map (fun x => (⟨x.2, 1, b2n (!x.1.isEmpty)⟩ : Fld)))
  let body := cs.flatten
  ((wordGrans (layNat [⟨0, 32, mask⟩, ⟨32, 16, body.length + 1⟩] :: body))).map (fun g => { data := g })
/-- Is a group's block a crumb block? -/
def isCrumb (f op : Nat) : Bool := decide (op = 0) && decide (f ≠ 12)
/-- The block a level sends for a payload granule of this kind (R273, R283). -/
def blockOut (f op : Nat) (b : Block) : List Granule :=
  if isCrumb f op then crumbBlock f b
  else
    let vg : Granule := { data := layElems (fmtBits f) (b.map (fun a => a.v.toNat)), poison := b.any Lane.poison }
    if isArg op then [vg, { data := layElems 32 (b.map Lane.rank), poison := b.any Lane.poison }] else [vg]
/-- Read the limbs of a crumb. -/
def takeLimbs : Nat → Nat → Nat → List Nat → Nat → Option (Nat × List Nat)
  | 0, _, _, ws, acc => some (acc, ws)
  | n + 1, j, mask, ws, acc =>
    if mask.testBit j then
      match ws with
      | [] => none
      | w :: t => takeLimbs n (j + 1) mask t (acc + w * 2 ^ (64 * j))
    else takeLimbs n (j + 1) mask ws acc
/-- Read the lanes of a crumb block. -/
def takeCrumbs (f mask : Nat) : Nat → Nat → List Nat → Option (List Lane × List Nat)
  | 0, _, ws => some ([], ws)
  | n + 1, i, ws =>
    if mask.testBit i then
      match ws with
      | [] => none
      | h :: t =>
        match takeLimbs (accLimbs f) 0 (h % 2 ^ 34) t 0 with
        | none => none
        | some (m, t2) =>
          match takeCrumbs f mask n (i + 1) t2 with
          | none => none
          | some (ls, t3) =>
            some ({ v := if h.testBit 34 then -(m : Int) else m, nan := h.testBit 35, pinf := h.testBit 36, ninf := h.testBit 37,
                    poison := h.testBit 38, negz := h.testBit 39, has := true } :: ls, t3)
    else
      match takeCrumbs f mask n (i + 1) ws with
      | none => none
      | some (ls, t) => some ({ negz := false, has := true } :: ls, t)
/-- A lane of a plain block. -/
def plainLane (f : Nat) (poison : Bool) (v : Nat) : Lane :=
  { v := v, nan := fmtFloat f && fNan (floatFmt f) v, poison := poison, negz := false, has := true }
/-- Read one block from the granules of a body (R273, R274): none where the body disagrees with its header. -/
def blockIn (f op : Nat) (gs : List Granule) : Option (Block × List Granule) :=
  if isCrumb f op then
    match gs with
    | [] => none
    | g :: _ =>
      let n := bitsOf g.data.toNat 47 32
      let k := (n + 3) / 4
      let part := gs.take k
      if n = 0 ∨ part.length < k ∨ part.any Granule.poison then none
      else
        match takeCrumbs f (g.data.toNat % 2 ^ 32) (fmtLanes f) 0 (((part.flatMap (fun x => granWords x.data)).take n).drop 1) with
        | some (ls, []) => some (ls, gs.drop k)
        | _ => none
  else
    match gs with
    | [] => none
    | g :: t =>
      let vals := elems f g.data
      if isArg op then
        match t with
        | [] => none
        | r :: t2 =>
          let ranks := (List.range (fmtLanes f)).map (elemAt 32 r.data)
          some (List.zipWith (fun (v k : Nat) => { plainLane f (g.poison || r.poison) v with rank := k % 2 ^ 18 }) vals ranks, t2)
      else some (vals.map (plainLane f g.poison), t)
/-- Read the body of a reduced partial: the blocks of these kinds, and the granules after them. -/
def blocksIn : List (Nat × Nat) → List Granule → Option (List Block × List Granule)
  | [], gs => some ([], gs)
  | k :: ks, gs =>
    match blockIn k.1 k.2 gs with
    | none => none
    | some (b, t) =>
      match blocksIn ks t with
      | none => none
      | some (bs, u) => some (b :: bs, u)
/-- The body a level sends for blocks of these kinds. -/
def blocksOut (ks : List (Nat × Nat)) (bs : List Block) : List Granule := (List.zipWith (fun k b => blockOut k.1 k.2 b) ks bs).flatten
/-- Blocks with nothing in them. -/
def emptyBlocks (ks : List (Nat × Nat)) : List Block := ks.map (fun k => emptyBlock k.1)
/-- A member's payload reaches the blocks. -/
def blocksAdd (ks : List (Nat × Nat)) (r : Nat) (bs : List Block) (gs : List Granule) : List Block :=
  List.zipWith (fun (kb : (Nat × Nat) × Block) g => blockAdd kb.1.1 kb.1.2 r kb.2 g) (ks.zip bs) gs
/-- Blocks are merged. -/
def blocksMerge (ks : List (Nat × Nat)) (a b : List Block) : List Block :=
  List.zipWith (fun (kb : (Nat × Nat) × Block) c => blockMerge kb.1.1 kb.1.2 kb.2 c) (ks.zip a) b

/-! ### Glazing and conversion (R277 to R279, R285) -/
/-- A result lane: its bits, whether it overflowed or saturated, whether it is poisoned. -/
structure ResLane where
  bits   : Nat
  ovf    : Bool := false
  poison : Bool := false
  deriving DecidableEq, Repr
/-- Round m / 2^k to nearest, ties to even. -/
def rhe (m k : Nat) : Nat :=
  let keep := m / 2 ^ k
  let rem := m % 2 ^ k
  if 2 ^ k < 2 * rem ∨ (2 * rem = 2 ^ k ∧ keep % 2 = 1) then keep + 1 else keep
/-- An infinity in a format, or ±448 with overflow for E4M3 (R277). -/
def infOf (f : Nat) (neg : Bool) : ResLane :=
  let t := floatFmt f
  let s := if neg then 2 ^ (t.eb + t.fb) else 0
  if t.e4m3 then { bits := s + 0x7E, ovf := true } else { bits := s + (2 ^ t.eb - 1) * 2 ^ t.fb }
/-- Glazing (R277) of an accumulator with B = `b` into format `f`. -/
def glaze (b f : Nat) (a : Lane) : ResLane :=
  let t := floatFmt f
  if a.poison then { bits := 0, poison := true }
  else if a.nan ∨ (a.pinf ∧ a.ninf) then { bits := canonNan f }
  else if a.pinf then infOf f false
  else if a.ninf then infOf f true
  else if a.v = 0 then { bits := if a.negz then 2 ^ (t.eb + t.fb) else 0 }
  else
    let neg := decide (a.v < 0)
    let m := a.v.natAbs
    let emin : Int := 1 - t.bias
    let e : Int := (Nat.log2 m : Nat) - b
    let q : Int := max e emin - t.fb
    let k : Int := q + b
    let keep0 := if 0 < k then rhe m k.toNat else m * 2 ^ (-k).toNat
    let keep := if keep0 = 2 ^ (t.fb + 1) then 2 ^ t.fb else keep0
    let q1 := if keep0 = 2 ^ (t.fb + 1) then q + 1 else q
    let ee : Int := q1 + t.fb + t.bias
    let s := if neg then 2 ^ (t.eb + t.fb) else 0
    if keep < 2 ^ t.fb then { bits := s + keep }
    else if (if t.e4m3 then decide (15 < ee) || (decide (ee = 15) && decide (keep - 2 ^ t.fb = 7)) else decide ((2 : Int) ^ t.eb - 1 ≤ ee)) then
      { infOf f neg with ovf := true }
    else { bits := s + ee.toNat * 2 ^ t.fb + (keep - 2 ^ t.fb) }
/-- The greatest and least value of a format (R279). -/
def intMax (f : Nat) : Int := if fmtSigned f then 2 ^ (fmtBits f - 1) - 1 else 2 ^ fmtBits f - 1
def intMin (f : Nat) : Int := if fmtSigned f then -(2 ^ (fmtBits f - 1)) else 0
/-- The unrounded form of a lane (R278). -/
def exactLane (f : Nat) (a : Lane) : Nat :=
  let n := accLimbs f
  crumbHead f (2 ^ n - 1) a + (a.v.natAbs % 2 ^ (64 * n)) * 2 ^ 64
/-- The result of a `SUM` lane in its form (R277 to R279). -/
def sumResult (f form : Nat) (a : Lane) : ResLane :=
  if a.poison then { bits := 0, poison := true }
  else if fmtFloat f then
    match form with
    | 1 => glaze (accB f) 5 a
    | 2 => glaze (accB f) 4 a
    | 3 => { bits := exactLane f a }
    | _ => glaze (accB f) f a
  else if form = 4 then { bits := ofSigned (resBits f 4) a.v }
  else if intMax f < a.v then { bits := ofSigned (fmtBits f) (intMax f), ovf := true }
  else if a.v < intMin f then { bits := ofSigned (fmtBits f) (intMin f), ovf := true }
  else { bits := ofSigned (fmtBits f) a.v }
/-- The finished digest lane (R285). -/
def digestResult (prog : Gran) (g : Nat) (a : Lane) : ResLane :=
  if a.poison then { bits := 0, poison := true }
  else { bits := leNat (sha256 (granBytes prog ++ leBytes 8 g ++ leBytes 32 a.v.toNat)) }
/-- A lane's result; with no contributor every lane is zero (R269). -/
def laneResult (none_ : Bool) (prog : Gran) (gen : Nat) (k : Group) (a : Lane) : ResLane :=
  if none_ then { bits := 0, poison := a.poison }
  else if k.op = 0 then (if k.fmt = 12 then digestResult prog gen a else sumResult k.fmt k.form a)
  else { bits := a.v.toNat, poison := a.poison }
/-- One group's result: its lanes and, for `ARG`, its ranks. -/
structure GroupRes where
  group : Group
  lanes : List ResLane
  ranks : List Nat
  deriving DecidableEq, Repr
/-- The results of every group, its blocks taken in order. -/
def groupResults (none_ : Bool) (prog : Gran) (gen : Nat) : List Group → List Block → List GroupRes
  | [], _ => []
  | k :: ks, bs =>
    let mine := (bs.take k.pay).flatten
    { group := k, lanes := mine.map (laneResult none_ prog gen k), ranks := mine.map (fun a => if none_ then 0 else a.rank) } ::
      groupResults none_ prog gen ks (bs.drop k.pay)
/-- Pack lanes of width w one behind the other, padded to whole granules (R280). -/
def packLanes (w : Nat) (l : List Nat) : List Gran :=
  let n := (l.length * w + 255) / 256
  let v := layNat (l.zipIdx.map (fun x => (⟨w * x.2, w, x.1⟩ : Fld)))
  (List.range n).map (fun i => BitVec.ofNat 256 (bitsOf v (256 * i + 255) (256 * i)))
/-- The result granules of a group (R280). -/
def groupGrans (r : GroupRes) : List Gran :=
  let vals := packLanes (resBits r.group.fmt r.group.form) (r.lanes.map ResLane.bits)
  if isArg r.group.op then
    let n := fmtLanes r.group.fmt
    (vals.zipIdx.map (fun x => [x.1, layElems 32 ((r.ranks.drop (n * x.2)).take n)])).flatten
  else vals

/-! ### Shadow lanes (R404) -/
/-- The factor of a shadow lane (R404), per format: FP32 and FP64 in accumulator units, U64 as it is. -/
def shadowFactor (f q j : Nat) : Int :=
  if f = 5 then (if j % 2 = 0 then 1 else -1) * (2 : Int) ^ ((7 * q + 37 * j) % 259)
  else if f = 4 then (if j % 2 = 0 then 1 else -1) * (2 : Int) ^ ((131 * q + 521 * j) % 2080)
  else
    let n := (q + 16 * j) % 64
    (((0x9E3779B97F4A7C15 * 2 ^ n) % 2 ^ 64 + 0x9E3779B97F4A7C15 / 2 ^ (64 - n)) % 2 ^ 64 : Nat)
/-- The pattern of a shadow lane for rank r. -/
def shadowLane (f r q j : Nat) : Nat :=
  let x := shadowFactor f q j * (r + 1)
  if f = 2 then x.toNat % 2 ^ 64 else (glaze (accB f) f { v := x, negz := false, has := true }).bits
/-- A member's shadow granule of a format. -/
def shadowGran (f r gen : Nat) : Gran :=
  layElems (fmtBits f) ((List.range (fmtLanes f)).map (shadowLane f r (gen / 32)))
/-- The shadow granules a leaf appends (R404). -/
def shadowGrans (gs : List Group) (r gen : Nat) : List Gran := (shadowKinds gs).map (fun k => shadowGran k.1 r gen)
/-- Does a shadow block differ from its expected value for R = Σ (r + 1), or hold poison (R406)? -/
def shadowBad (gen rsum : Nat) (k : Nat × Nat) (b : Block) : Bool :=
  b.zipIdx.any (fun x =>
    let want := shadowFactor k.1 (gen / 32) x.2 * rsum
    x.1.poison || (if k.1 = 2 then decide (x.1.v % 2 ^ 64 ≠ want % 2 ^ 64)
                   else decide (x.1.v ≠ want) || x.1.nan || x.1.pinf || x.1.ninf))
/-- A leaf's digest lane (R284). -/
def digestLane (r : Nat) (d : Gran) : Gran := granOf (sha256 (leBytes 4 r ++ granBytes d))

end Sys2Proof.Machine
end

