-- ==== Sys2Proof/Machine/ServoOps.lean ====
section
/-! DEFINITION. The servo law and the source loop of one domain (R158 to R167): block statistics, the proportional-integral law in
fixed point, acquisition, qualification and coasting. Frequencies are in parts of 10^18 (DESIGN CHOICE, assumption 12: the spec gives
no rounding for the loop arithmetic; every division here rounds down). -/
namespace Sys2Proof.Machine

/-- The constants of a loop (R161): Kp in 10^-7/s, Ki in 10^-11/s², T in ns, pull range in 10^-18, bandwidth in 10^-4 Hz. -/
structure LoopK where
  kp : Int
  ki : Int
  t  : Int
  p  : Int
  bw : Nat
  deriving DecidableEq, Repr
/-- Leaf from barn. -/
def loopLeaf : LoopK := ⟨12442000000, 1548000000000000, 51200, 200000000000000, 2000000⟩
/-- Barn from yard. -/
def loopBarn : LoopK := ⟨1244200000, 15480000000000, 51200, 2000000000000, 200000⟩
/-- Yard from mill. -/
def loopYard : LoopK := ⟨311050000, 967500000000, 51200, 2000000000000, 50000⟩
/-- Mill from GNSS 1PPS. -/
def loopGnss : LoopK := ⟨62210, 38700, 1000000000, 2000000000000, 10⟩
/-- Mill from external 1PPS and 10 MHz. -/
def loopExt : LoopK := ⟨6221000, 387000000, 1000000, 2000000000000, 1000⟩
/-- Mill from PTP. -/
def loopPtp : LoopK := ⟨31105, 9675, 1000000000, 2000000000000, 5⟩
/-- Barley mill from time-line reports. -/
def loopFollower : LoopK := ⟨622100, 3870000, 1000000000, 2000000000000, 100⟩

/-- I after an update with phase error `e` in 1/65,536 ns at gear `g` (R160, R163). -/
def loopI (k : LoopK) (g : Nat) (i e : Int) : Int := clampI k.p (i + Int.fdiv (k.ki * 4 ^ g * k.t * e) (100000000000 * 65536))
/-- y for phase error `e` and integral `i` (R160). -/
def loopY (k : LoopK) (g : Nat) (i e : Int) : Int := clampI k.p (Int.fdiv (k.kp * 2 ^ g * e * 100) 65536 + i)
/-- The rate word for y (R160): 51,200 × (1 − y) with 24 fraction bits. -/
def rateOf (y : Int) : Nat := (51200 * 2 ^ 24 - Int.fdiv (51200 * 2 ^ 24 * y) 1000000000000000000).toNat
/-- How long gear g is held, in ns: 4 / (2^g × bandwidth) s (R163). -/
def gearHold (k : LoopK) (g : Nat) : Nat := 4 * 10000 * 1000000000 / (2 ^ g * k.bw)
/-- The slope of a straight-line fit to (instant, phase error) points, both in 1/65,536 ns, in 10^-18 (R163). -/
def fitSlope (l : List (Nat × Int)) : Int :=
  let n : Int := l.length
  let st := (l.map (fun x => (x.1 : Int))).sum
  let sy := (l.map Prod.snd).sum
  let stt := (l.map (fun x => (x.1 : Int) * x.1)).sum
  let sty := (l.map (fun x => (x.1 : Int) * x.2)).sum
  Int.fdiv ((n * sty - st * sy) * 1000000000000000000) (n * stt - st * st)

/-- A released block's values (R158). -/
structure BlockVal where
  theta : Int
  rho   : Int
  sigma : Nat
  ref   : Nat
  deriving DecidableEq, Repr
/-- The block values over its usable pairs (t2, 2θ, ρ); none under 32 pairs (R158). `adj` is what R159 adds to every t1 and t4. -/
def blockValue (adj : Int) (ps : List (Nat × Int × Int)) : Option BlockVal :=
  if ps.length < 32 then none
  else
    let n : Nat := ps.length
    let s2 := (ps.map (fun x => x.2.1)).sum - 2 * n * adj
    let m2 := Int.fdiv s2 n
    let dev := (ps.map (fun x => (x.2.1 - 2 * adj - m2) * (x.2.1 - 2 * adj - m2))).sum
    some { theta := Int.fdiv s2 (2 * n), rho := Int.fdiv ((ps.map (fun x => x.2.2)).sum) n,
           sigma := isqrt (Int.fdiv dev n).toNat / 2, ref := (ps.map Prod.fst).sum / n }
/-- May a block be used, by the counts it was stamped under (R159)? The correction to add: none if not usable. -/
def countRule (own src : BitVec 16) (mixed prevMixed : Bool) (applied : List Notice) : Option Int :=
  if mixed || prevMixed then none
  else if own = src then some 0
  else if serBelow src own = 1 ∧ !serHigher src own then
    match applied.find? (fun n => decide (n.count = own)) with
    | some n => some (if n.target = .podTime ∧ 0 < n.delta then n.delta else 0)
    | none => some 0
  else none

/-- 150, 30 and 200 ps (R164) against a value in 1/65,536 ns. -/
def withinPs (x : Int) (ps : Nat) : Bool := decide (x.natAbs * 1000 ≤ ps * 65536)
/-- Does a block meet the limits of R164 that a block can meet, on a source that sends 0b000 or 0b001 (R176)? `e` is its phase error. -/
def qualifies (p : Port) (b : BlockVal) (e : Int) : Bool :=
  decide (p.state = .up) && !p.calDegraded && (!usesA p.mode || decide (8 ≤ p.cal.resA.length)) &&
  (!usesB p.mode || decide (8 ≤ p.cal.resB.length)) && decide (p.beat.srcState ≤ 1) && withinPs b.rho 150 && withinPs b.sigma 30 &&
  withinPs e 200
/-- The loop leaves LOCKED for COASTING with a cause (R165, R184). -/
def loopCoast (c : Nat) (d : DomLoop) : DomLoop :=
  { d with state := .coasting, cause := c, coastCtr := ctrInc d.coastCtr, qual := 0, noRel := 0, rttBad := 0, noisy := 0, seeded := false,
           fit := [], gear := 3 }
/-- No estimate is held (R167): what is left of a domain is its last cause, its source's last word and its counter. -/
def loopEmpty (s : DomState) (d : DomLoop) : DomLoop :=
  { state := s, srcState := d.srcState, cause := d.cause, coastCtr := d.coastCtr, srcCount := d.srcCount }
/-- The counter moves by `k` (R54, R176): offsets, and instants on the counter's scale, move with it. -/
def loopMoved (k : Int) (d : DomLoop) : DomLoop :=
  { d with theta := d.theta + k, refAt := ((d.refAt : Int) + k).toNat, fit := d.fit.map (fun x => (((x.1 : Int) + k).toNat, x.2 + k)) }
/-- What a port has stamped and sent moves with the counter, so that a block stamped before the move is used on the new scale. DESIGN CHOICE
(assumption 19): the spec does not say what becomes of such a block. -/
def portMoved (k : Int) (p : Port) : Port :=
  let f := fun (x : Nat × Int × Int) => (((x.1 : Int) + k).toNat, x.2.1 + 2 * k, x.2.2)
  { p with beat := { p.beat with pairs := p.beat.pairs.map f, waitPairs := p.beat.waitPairs.map f,
                                 sent := p.beat.sent.map (fun x => (x.1, ((x.2 : Int) + k).toNat)),
                                 lastRxTime := ((p.beat.lastRxTime : Int) + k).toNat } }
/-- The loop starts to acquire (R163, R167). -/
def loopAcquire (d : DomLoop) : DomLoop :=
  { d with fromCoast := decide (d.state = .coasting), state := .acquiring, gear := 3, fit := [], seeded := false, qual := 0, noRel := 0,
           rttBad := 0, noisy := 0 }
/-- A usable block while acquiring (R163): the first 16 are fitted to a line that seeds I; then the law runs in its gear. `e` is the
phase error, `steer` whether the result steers (a channel) or models (a leaf). DEDUCED (assumption 12): the slope that a loop finds which already
runs on an I is that of the error left over, so it adds to that I. -/
def loopBlock (k : LoopK) (steer : Bool) (b : BlockVal) (e : Int) (d : DomLoop) : DomLoop :=
  let d1 := { d with rho := b.rho, sigma := b.sigma, noRel := 0, rttBad := if withinPs b.rho 150 then 0 else d.rttBad + 1,
                     noisy := if withinPs b.sigma 30 then 0 else d.noisy + 1 }
  if d.state = .acquiring && !d.seeded then
    let f := (b.ref, b.theta) :: d.fit
    if 16 ≤ f.length then
      let s := clampI k.p ((if steer then d.integ else 0) + fitSlope f)
      { d1 with fit := f.take 16, seeded := true, integ := s, freq := s, theta := b.theta, gear := 3 }
    else { d1 with fit := f, theta := b.theta }
  else
    let i := loopI k d.gear d.integ e
    let y := loopY k d.gear i e
    if steer then { d1 with integ := i, freq := i, theta := b.theta }
    else
      -- the model: θ̂ advances by y over one update and meets the measured offset (R168 text before R169)
      { d1 with integ := i, freq := y, theta := d.theta + Int.fdiv (y * k.t * 65536) 1000000000000000000 }
/-- Codes of the domain states (R184). -/
def domStateCode : DomState → Nat
  | .absent => 0
  | .training => 1
  | .calibrating => 2
  | .acquiring => 3
  | .locked => 4
  | .coasting => 5
  | .faulted => 6
/-- `DOM_STATUS_d` (R184). -/
def domStatusWord (selected : Bool) (d : DomLoop) : Word :=
  layW [⟨0, 3, domStateCode d.state⟩, ⟨3, 3, d.srcState⟩, ⟨6, 1, b2n selected⟩, ⟨7, 2, d.gear⟩, ⟨16, 8, d.cause⟩]
/-- 1/65,536 ns to ps, rounding down. -/
def toPs (x : Int) : Int := Int.fdiv (x * 1000) 65536
/-- `DOM_OFFSET_d` (R184): offset in ps saturating, frequency in parts of 10^12. -/
def domOffsetWord (d : DomLoop) : Word :=
  layW [⟨0, 32, ofSigned 32 (satS 32 (toPs d.theta))⟩, ⟨32, 32, ofSigned 32 (satS 32 (Int.fdiv d.freq 1000000))⟩]
/-- `DOM_RTT_d` (R184). -/
def domRttWord (d : DomLoop) : Word :=
  layW [⟨0, 16, ofSigned 16 (satS 16 (toPs d.rho))⟩, ⟨16, 16, satN 65535 (toPs d.sigma).toNat⟩]

end Sys2Proof.Machine
end

