-- ==== Sys2Proof/Machine/StateLeaf.lean ====
section
/-! DEFINITION. The state of a leaf (chapters Inside the Host Die, Time Transfer, Sheaves, The Granary, Faults, Leaf Register Map and
Integrating the Leaf). Every field's default is its value at reset. -/
namespace Sys2Proof.Machine

/-! ### Interrupts -/
/-- An entry of the interrupt queue (R522). -/
structure IntEntry where
  cause  : Nat
  index  : Nat
  detail : Nat
  time   : Nat
  deriving DecidableEq, Repr
/-- The interrupt registers (R521 to R523); the queue oldest first. -/
structure Ints where
  status0  : Word := 0#64
  status1  : Word := 0#64
  enable0  : Word := 0#64
  enable1  : Word := 0#64
  fifo     : List IntEntry := []
  globalEn : Bool := false
  ovf      : Bool := false
  lost     : Ctr := {}
  deriving DecidableEq, Repr

/-! ### Time -/
/-- A snapshot context (R66). -/
structure SnapCtx where
  lo  : Word := 0#64
  hi  : Word := 0#64
  utc : Word := 0#64
  seq : Nat := 0
  deriving DecidableEq, Repr
/-- Selection between the domains (R168 to R173, R184). -/
structure TimeSel where
  /-- `SEL_DOMAIN`: 0 none, 1 Wheat, 2 Barley -/
  sel       : Nat := 0
  /-- the residual still to remove, in 2^-40 ns, and what one block removes of it (R170) -/
  resid     : Int := 0
  step      : Nat := 0
  lastResid : Int := 0
  /-- the I on which the counter runs, in 10^-18 (R162, R169, R170) -/
  held      : Int := 0
  apart     : Bool := false
  apartRun  : Nat := 0
  /-- the time-clock edge on which a first lock set the counter (R168) -/
  setEdge   : Option Nat := none
  /-- the time-clock edge of the last switch under rule 4 (R169) -/
  rule4At   : Option Nat := none
  switches  : Ctr := {}
  deriving DecidableEq, Repr

/-- The mapping of pod time that a domain's `TIME_INFO` gave last (R139, R177). -/
structure TimeMap where
  epochBase : Nat := 0
  utcOffset : Int := 0
  leap      : BitVec 16 := 0#16
  utcValid  : Bool := false
  deriving DecidableEq, Repr
/-- A standing `WIRING_SHARED_MODULE` alarm (R24): the shared module serial, and the two FPAs involved. -/
structure WiringAlarm where
  module_ : Nat
  fpaW    : Nat
  fpaB    : Nat
  deriving DecidableEq, Repr

/-! ### Taps -/
/-- A launch held at a tap (R75, R82, R84). -/
structure TapFire where
  at_     : Nat
  slot    : Nat
  branch  : Nat
  commit  : Bool
  skipped : Bool
  /-- the word came with its fire time already past (R84) -/
  past    : Bool := false
  deriving DecidableEq, Repr
/-- A strobe as driven to the region (R82). -/
structure Strobe where
  slot   : Nat
  branch : Nat
  commit : Bool
  skipped : Bool
  late   : Bool
  deriving DecidableEq, Repr
/-- One region tap (R73 to R102). -/
structure Tap where
  present    : Bool := false
  locked     : Bool := false
  fault      : Bool := false
  clkStopped : Bool := false
  marginLow  : Bool := false
  fireLate   : Bool := false
  cfgBad     : Bool := false
  /-- words the hub has sent down, and the tap has sent up, oldest first (R74) -/
  dn         : List Word := []
  up         : List Word := []
  /-- the tap's copy of pod time in 2^-40 ns at the reload, the time-clock edge of it, and its RATE, 16.20 (R77) -/
  copy       : Nat := 0
  copyEdge   : Nat := 0
  rate       : Nat := 51200 * 2 ^ 20
  /-- a step pair held: T_s in ns and Δ -/
  step       : Option (Nat × Int) := none
  fires      : List TapFire := []
  strobe     : Option Strobe := none
  freqCommit : Bool := false
  periodNom  : Nat := 400000
  periodNext : Nat := 400000
  stretchThr : Nat := 0x20
  freqArm    : Bool := false
  freqReq    : Bool := false
  replicaSel : Nat := 0
  delayPs    : Nat := 0
  delayKnown : Bool := false
  lateLast   : Nat := 0
  lateMax    : Nat := 0
  stretchCount : Ctr := {}
  stretchPs  : Ctr := {}
  stretchMax : Nat := 0
  slipLast   : Int := 0
  slipTotal  : Int := 0
  regionCount : Nat := 0
  /-- the stamp of the last region edge in 1/65,536 ns -/
  lastStamp  : Option Nat := none
  /-- where the present launch interval is measured from, and edges left out of it (R88) -/
  fireStamp  : Option Nat := none
  fireSkip   : Nat := 0
  /-- the `FIRED` words on their way up, oldest first, each with the `PERIOD_NOM` of its fire edge, against which its lateness is judged (R83) -/
  noms       : List (Word × Nat) := []
  /-- edges still excluded from R87 after a commit (R97) -/
  exclude    : Nat := 0
  nbrSel     : Nat := 0
  nbrEn      : Nat := 0
  phaseBusy  : Bool := false
  /-- what a phase measurement has stamped, latest first: the tap's own edges, each neighbour's, and whether a stretched one was among them
  (R95) -/
  ownStamps  : List Nat := []
  nbrStamps  : Tab (List Nat) := []
  unclean    : Nat := 0
  phaseDone  : Bool := false
  phase      : Nat := 0
  phaseValid : Nat := 0
  margin     : Nat := 0
  marginMin  : Nat := 0xFFFF
  marginWarn : Nat := 0x32
  /-- the margin has not recovered since `MARGIN_LOW` was raised (R100) -/
  marginHeld : Bool := false
  /-- region edges since the replica's last launch edge, and the capturing edge of a sample not yet reported: was it stretched (R99)? -/
  repEdges   : Nat := 0
  repReady   : Option Bool := none
  resync     : Ctr := {}
  badWord    : Ctr := {}
  /-- local-barrier toggles the tap holds for its region, and those it has passed on (R92): per channel, AND and OR; with those held, whether a
  frequency commit comes with the release (R98) -/
  lbDn       : Tab (List (Bool × Bool × Bool)) := []
  lbRel      : Tab (Nat × Bool × Bool) := []
  /-- the hub's copies for the summary block (R519): `TAP_STATUS`[5:0], the margin and the slip -/
  hubStatus  : Nat := 0
  hubMargin  : Nat := 0
  hubSlip    : Int := 0
  deriving DecidableEq, Repr
/-- A local channel (R91 to R93). -/
structure LocalChan where
  slot     : Option Nat := none
  mask     : Nat := 0
  /-- arrivals held per tap, oldest first, with their flags -/
  arrivals : Tab (List Bool) := []
  gen      : Nat := 0
  /-- the pod time in ns from which the deadline of the open generation counts (R93, R236) -/
  openAt   : Nat := 0
  deriving DecidableEq, Repr

/-! ### Slots -/
/-- A launch word as held (R240, R242). -/
structure LaunchWord where
  gen    : Nat
  rc     : BitVec 16
  fire   : Nat
  branch : Nat
  domain : Nat
  freqCommit : Bool
  part   : Bool
  forced : Bool
  digest : Nat
  count  : Nat
  deriving DecidableEq, Repr
/-- A generation unresolved at the leaf (R232, R235, R242 to R245). -/
structure SlotGen where
  gen     : Nat
  token   : Gran
  payload : List Granule
  freqReq : Bool := false
  heldW   : Option LaunchWord := none
  heldB   : Option LaunchWord := none
  lateW   : Option Nat := none
  lateB   : Option Nat := none
  failW   : Bool := false
  failB   : Bool := false
  /-- the unit clock in ns at which its last failure word landed (R243) -/
  failAt  : Nat := 0
  cause   : Nat := 0
  /-- the member has arrived for it; a word may reach a member that has not (R242) -/
  arrived : Bool := true
  deriving DecidableEq, Repr
/-- A result as it lands from one domain (R244), under the resumption count it carries (R235): granules by index, the status granule. -/
structure ResBuf where
  gen    : Nat
  domain : Nat
  rc     : BitVec 16
  grans  : Tab Granule := []
  status : Option Granule := none
  deriving DecidableEq, Repr
/-- A fired generation whose result the leaf holds (R244, R512). -/
structure Fired where
  gen     : Nat
  word    : LaunchWord
  /-- the member had arrived, asking for a frequency commit (R98) -/
  freqReq : Bool := false
  both    : Bool
  /-- the other domain's word, when both were held and differ (R400) -/
  other   : Option LaunchWord := none
  missing : Bool := false
  ready   : Bool := false
  classified : Bool := false
  deriving DecidableEq, Repr
/-- One of the 32 sheaf slots (R222 to R261, R505 to R513). -/
structure Slot where
  wState      : Nat := 0
  bState      : Nat := 0
  member      : Nat := 0
  isLocal     : Bool := false
  strict      : Bool := false
  lastOutcome : Nat := 0
  closeCause  : Nat := 0
  resumeCount : BitVec 16 := 0#16
  level       : Nat := 0
  nextGen     : Nat := 0
  -- the join registers (R506)
  jTag        : Nat := 0
  jRank       : Nat := 0
  jN          : Nat := 0
  jResume     : Nat := 0
  jResumeValid : Bool := false
  jTapMask    : Nat := 0
  jDigest     : Gran := 0#256
  -- what the last JOIN_GO latched
  tag         : Nat := 0
  rank        : Nat := 0
  n           : Nat := 0
  resumeGen   : Nat := 0
  resumeValid : Bool := false
  tapMask     : Nat := 0
  digest      : Gran := 0#256
  program     : Bytes := []
  joinTime    : Nat := 0
  fpFw        : Word := 0#64
  fpDum       : Word := 0#64
  /-- a join or unpark of this domain awaits its answer -/
  waitW       : Bool := false
  waitB       : Bool := false
  ansW        : Option Nat := none
  ansB        : Option Nat := none
  /-- the binding stands in that domain -/
  boundW      : Bool := false
  boundB      : Bool := false
  /-- domains (bit d) in which an `AUTO` join awaits its answer, and in which one is due after a re-form notice (R252, R253) -/
  auto        : Nat := 0
  reform      : Nat := 0
  /-- the outcome of the slot's join has been reported, and the run's first `NEXT_GEN` is in (R38, R232) -/
  reported    : Bool := false
  genSet      : Bool := false
  /-- the leaf has sent its fence notice and shows the slot fenced (R430) -/
  fenced      : Bool := false
  split       : Bool := false
  apexW       : Nat := 0xFFFFFFFF
  apexB       : Nat := 0xFFFFFFFF
  levelW      : Nat := 0
  levelB      : Nat := 0
  runStart    : Nat := 0
  gens        : List SlotGen := []
  /-- generations of the present run that have failed at the leaf, latest first, the last eight (R235, R245) -/
  failed      : List Nat := []
  fired       : List Fired := []
  results     : List ResBuf := []
  lastFire    : Nat := 0
  paySeq      : Nat := 0
  arriveGen   : Nat := 0
  arriveOutcome : Nat := 0
  -- LAUNCH_STATUS_s, LAUNCH_TIME_s, FAIL_INFO_s
  lGen        : Nat := 0
  lBranch     : Nat := 0
  lFrom       : Nat := 0
  lBoth       : Bool := false
  lMismatch   : Bool := false
  lSkipped    : Bool := false
  lTapFault   : Bool := false
  lPartial    : Bool := false
  lForced     : Bool := false
  lFreq       : Bool := false
  lUnaligned  : Bool := false
  lReady      : Bool := false
  lFailed     : Bool := false
  launchTime  : Nat := 0
  failCause   : Nat := 0
  mmGen       : Nat := 0
  mmClass     : Nat := 0
  mmAttrib    : Bool := false
  mmDomain    : Nat := 0
  wordLate    : Ctr := {}
  domGenFailed : Ctr := {}
  staleDrop   : Ctr := {}
  -- windows
  progWindow  : Tab Byte := []
  /-- granules of the window, and of the held program, that the host's poison mark poisoned (R371) -/
  progPoison  : List Nat := []
  heldPoison  : List Nat := []
  arrWindow   : Tab Granule := []
  ctxWindow   : Tab Byte := []
  /-- `NEXT_SEQ` (R502) and each domain's silo mode is descriptor-only (R350) -/
  capSeq      : Nat := 0
  descW       : Bool := false
  descB       : Bool := false
  /-- the local channel a local sheaf holds -/
  channel     : Nat := 0
  deriving DecidableEq, Repr
/-- A result aperture (R512). -/
structure Aperture where
  slot : Nat := 0
  prev : Bool := false
  gen  : Nat := 0
  none_ : Bool := true
  stale : Bool := false
  deriving DecidableEq, Repr

/-! ### Triggers and captures -/
/-- A trigger (R496 to R499). -/
structure Trigger where
  enable  : Bool := false
  mode    : Nat := 0
  invert  : Bool := false
  slot    : Nat := 0
  branchMask : Nat := 0xFFFF
  widthNs : Nat := 0x64
  time    : Nat := 0
  periodNs : Nat := 0
  armed   : Bool := false
  active  : Bool := false
  lateSeen : Bool := false
  skippedSeen : Bool := false
  cfgBad  : Bool := false
  lastEdge : Nat := 0
  /-- instants of launches still to come, mode 2 -/
  due     : List Nat := []
  /-- modes 0 and 1: the instant scheduled next -/
  next    : Nat := 0
  /-- the instant was past when the trigger armed (R498) -/
  lateArm : Bool := false
  pulseEnd : Nat := 0
  /-- the edge on which the trigger armed: an instant past then fires on the next one (R498) -/
  armEdge : Nat := 0
  deriving DecidableEq, Repr
/-- A capture queue entry (R500, R501). -/
structure CapEntry where
  w0    : Word
  w1    : Word
  input : Nat
  deriving DecidableEq, Repr
/-- The capture inputs and queue (R500, R501). -/
structure Captures where
  /-- `CAP_CFG_k`: enable in bit 0, falling in bit 1 -/
  cfg     : Tab Nat := []
  queue   : List CapEntry := []
  pop1    : Word := 0#64
  popInput : Nat := 0
  popEmpty : Bool := true
  popLeft : Nat := 0
  armed   : Bool := true
  overrun : Ctr := {}
  deriving DecidableEq, Repr
/-- An open record of the capture port (R343, R578). -/
structure CapRec where
  hdl     : Nat
  slot    : Nat
  tag     : Nat
  rank    : Nat
  seq     : Nat
  genTag  : Nat
  source  : Nat
  hostRef : Nat
  length  : Nat
  time    : Nat
  bytes   : Nat := 0
  /-- the bytes accepted, for the SHA-256 of the close (R343) -/
  data    : Bytes := []
  fullW   : Bool
  fullB   : Bool
  /-- the time-clock edge of its last byte (R346) -/
  lastAt  : Nat
  deriving DecidableEq, Repr
/-- A replay record as it arrives or waits (R354). -/
structure RepRec where
  slot    : Nat
  tag     : Nat
  rank    : Nat
  incomplete : Bool
  source  : Nat
  hostRef : Nat
  length  : Nat
  genTag  : Nat
  seq     : Nat
  time    : Nat
  data    : List Granule
  bytes   : Nat
  deriving DecidableEq, Repr
/-- A beat of `cap_out` (R579). -/
structure CapBeat where
  data   : Gran
  sop    : Bool
  eop    : Bool
  nbytes : Nat
  pois   : Bool
  deriving DecidableEq, Repr
/-- The capture port (R343 to R346, R354, R502, R503, R578, R579). -/
structure CapPort where
  open_    : List CapRec := []
  /-- handles whose present record was refused, or closed TORN by the leaf: their beats are accepted and discarded -/
  refused  : List Nat := []
  torn     : List Nat := []
  bucket   : Nat := 10000000
  bucketAt : Nat := 0
  throttled : Bool := false
  lastRefusal : Nat := 0
  throttledCtr : Ctr := {}
  refusedCtr : Ctr := {}
  out      : List CapBeat := []
  err      : List (Nat × Nat) := []
  -- replay (R354)
  active   : Bool := false
  domain   : Nat := 0
  gapSeen  : Bool := false
  incompleteSeen : Bool := false
  delivered : Nat := 0
  /-- the sequence number to deliver next in the stream, and records held back -/
  nextSeq  : Option Nat := none
  waiting  : Option RepRec := none
  /-- the time-clock edge on which its fetch was sent -/
  waitEdge : Nat := 0
  held     : List RepRec := []
  repSlot  : Nat := 0
  /-- `REPLAY_END` has come while a fetch was awaited -/
  ended    : Bool := false
  deriving DecidableEq, Repr

/-! ### Fence, tests -/
/-- The fence and heartbeat (R428 to R434, R445). -/
structure Fence where
  fenced    : Bool := false
  draining  : Bool := false
  causes    : Nat := 0
  first     : Nat := 0
  fencedAt  : Nat := 0
  hbArmed   : Bool := false
  hbTimeout : Nat := 10000
  /-- the time-clock edge from which the timer runs (R429) -/
  hbStart   : Nat := 0
  /-- levels of host_rst_n (asserted) and host_fence -/
  pinReset  : Bool := false
  pinFence  : Bool := false
  /-- the time-clock edges of the fence and of its last cause (R428, R434) -/
  fencedEdge : Nat := 0
  causeEdge : Option Nat := none
  /-- an `INJECT` fence, whose reports carry the injected flag (R441) -/
  injected  : Bool := false
  count     : Ctr := {}
  refusals  : Ctr := {}
  unfenceRefused : Ctr := {}
  hbBad     : Ctr := {}
  deriving DecidableEq, Repr
/-- A pack item (R418). -/
structure PackItem where
  site    : Nat
  timeout : Nat
  stim    : Bytes
  expect  : Gran
  deriving DecidableEq, Repr
/-- A test order (R419). -/
structure TestOrder where
  id      : Nat
  pack    : Nat
  reps    : Nat
  fence   : Bool
  items   : List PackItem
  deriving DecidableEq, Repr
/-- On-demand tests at the leaf (R418 to R422, R580). -/
structure Tests where
  allow    : Bool := false
  active   : Bool := false
  packId   : Nat := 0
  run      : Nat := 0
  failed   : Nat := 0
  firstFail : Nat := 0
  outcome  : Nat := 0
  waiting  : Option TestOrder := none
  order    : Option TestOrder := none
  item     : Nat := 0
  rep      : Nat := 0
  itemRuns : Bool := false
  /-- sites that have failed in this request, each counted once (R420) -/
  sites    : List Nat := []
  /-- stimulus driven at the test port, oldest first: site, bytes (R580) -/
  driven   : List (Nat × Bytes) := []
  aborts   : Nat := 0
  /-- the time-clock edges on which an order began to wait, the running item was driven, and the last period ended (R419 to R421) -/
  waitEdge : Nat := 0
  itemEdge : Nat := 0
  periodEdge : Nat := 0
  /-- the last eighth of a period that a SUSPECT host-die site asks for (R421), and orders of a period that are still to run, with the reason that
  refuses them (0: none) -/
  eighthEdge : Nat := 0
  queue    : List (TestOrder × Nat) := []
  /-- reports of failing items made while pod time was not VALID (R413) -/
  unsent   : List (List Granule) := []
  doneIds  : List Nat := []
  deriving DecidableEq, Repr
/-- The summary block (R518 to R520): its words as assembled. -/
structure SumBlock where
  busy  : Bool := false
  valid : Bool := false
  seq   : Nat := 0
  words : Tab Word := []
  deriving DecidableEq, Repr
/-- The flash window (R514 to R517). -/
structure FlashWin where
  page   : Nat := 0
  busy   : Bool := false
  /-- the operation running: 0 READ, 1 PROGRAM, 2 TRIM_ADD, 3 STAGE_DONE, with its page -/
  op     : Nat := 0
  opPage : Nat := 0
  result : Nat := 0
  window : Tab Byte := []
  deriving DecidableEq, Repr

/-! ### The leaf -/
/-- A leaf. -/
structure Leaf where
  inReset   : Bool := false
  clkFail   : Bool := false
  /-- transmitters dark (R435, R567) -/
  dark      : Bool := false
  serial    : Nat := 0
  version   : Nat := 0x10
  hostType  : Nat := 0
  tapsSeen  : Nat := 0
  fpaW      : Nat := 0xFFFFFFFF
  fpaB      : Nat := 0xFFFFFFFF
  hostFw    : Word := 0#64
  hostDum   : Word := 0#64
  lockedWrite : Ctr := {}
  slotCmdBad : Ctr := {}
  ints      : Ints := {}
  time      : TimeCore := {}
  snaps     : Tab SnapCtx := []
  tsel      : TimeSel := {}
  domW      : DomLoop := {}
  domB      : DomLoop := {}
  port0     : Port := {}
  port1     : Port := {}
  /-- module serials found on both paths since their port last trained, and every alarm raised for one (R24) -/
  sharedMods : List Nat := []
  wiring    : List WiringAlarm := []
  /-- the mapping each domain gives (R177) -/
  mapW      : TimeMap := {}
  mapB      : TimeMap := {}
  /-- TDC 0 to 3 (R118) -/
  tdcs      : Tab Tdc := []
  taps      : Tab Tap := []
  chans     : Tab LocalChan := []
  slots     : Tab Slot := []
  progSel   : Nat := 0
  apertures : Tab Aperture := []
  triggers  : Tab Trigger := []
  trigLate  : Ctr := {}
  trigDropped : Ctr := {}
  caps      : Captures := {}
  /-- delays from the capture inputs to the reference plane, in 1/65,536 ns (R107) -/
  capDelay  : Tab Nat := []
  capp      : CapPort := {}
  fence     : Fence := {}
  tests     : Tests := {}
  mmCount   : Ctr := {}
  history   : History := {}
  histSel   : Nat := 0
  histEntry : HistEntry := {}
  code      : CodeRegs := {}
  /-- the window encoder failed its self-test: joins are refused NO_DOMAIN (R375) -/
  encoderBad : Bool := false
  start     : Startup := {}
  sec       : Security := {}
  sum       : SumBlock := {}
  mgmtSum   : SumBlock := {}
  fwin      : FlashWin := {}
  answers   : List MgmtAnswer := []
  sensors   : Tab Sensor := []
  /-- the register port's answer to the last access: `reg_rdata`, `reg_resp` (R488, R570) -/
  rdata     : Word := 0#64
  resp      : Nat := 0
  free      : Nat := 0
  deriving DecidableEq, Repr

end Sys2Proof.Machine
end

