-- ==== Sys2Proof/Machine/LeafBase.lean ====
section
/-! DEFINITION. Shared operations of a leaf: raising interrupts, its two domains and ports, its time, tap words, and sending packets. -/
namespace Sys2Proof.Machine

/-! ### Interrupts (R521 to R523) -/
/-- Set one bit of a register word. -/
def setBit (w : Word) (n : Nat) : Word := w ||| BitVec.ofNat 64 (2 ^ n)
/-- A cause is raised (R523): its status bit sets; when enabled it joins the queue, or is lost to a full one. -/
def intRaise (now n ix dt : Nat) (i : Ints) : Ints :=
  let i1 := if n < 64 then { i with status0 := setBit i.status0 n } else { i with status1 := setBit i.status1 (n - 64) }
  let en := if n < 64 then wbit i.enable0 n else wbit i.enable1 (n - 64)
  if en then
    if i1.fifo.length < 64 then
      { i1 with fifo := i1.fifo ++ [({ cause := n, index := ix % 256, detail := dt % 256, time := now % 2 ^ 40 } : IntEntry)] }
    else { i1 with lost := ctrInc i1.lost, ovf := true }
  else i1
/-- Pod time as it reads at the leaf: zero until the first lock after reset (R54). The counter itself runs, for the servos' models. -/
def leafPod (l : Leaf) : Nat := if l.time.valid then l.time.pod else 0
/-- As it reads in ns. -/
def leafNs (l : Leaf) : Nat := leafPod l / 65536
/-- Raise an event at the leaf, when it is one of the leaf's causes. -/
def leafRaise (l : Leaf) (e : EvRec) : Leaf :=
  match e.ev.cause with
  | none => l
  | some n => { l with ints := intRaise (leafNs l) n e.index e.detail l.ints }
/-- Raise several events in order. -/
def leafRaiseAll (l : Leaf) (es : List EvRec) : Leaf := es.foldl leafRaise l
/-- Raise one event by name. -/
def leafEv (l : Leaf) (e : Ev) (ix dt : Nat) : Leaf := leafRaise l { ev := e, index := ix, detail := dt }
/-- `leaf_int` (R523). -/
def leafInt (l : Leaf) : Bool :=
  l.ints.globalEn && (l.ints.status0 &&& l.ints.enable0 != 0#64 || l.ints.status1 &&& l.ints.enable1 != 0#64)
/-- `INT_FIFO`: a read removes the oldest entry (R522). -/
def intFifoRead (l : Leaf) : Leaf :=
  match l.ints.fifo with
  | [] => { l with rdata := 0#64, resp := 0 }
  | e :: es => { l with ints := { l.ints with fifo := es }, resp := 0,
                        rdata := layW [⟨0, 7, e.cause⟩, ⟨7, 1, 1⟩, ⟨8, 8, e.index⟩, ⟨16, 8, e.detail⟩, ⟨24, 40, e.time⟩] }
/-- Answer a read on the register port. -/
def leafAnswer (l : Leaf) (w : Word) (r : Nat) : Leaf := { l with rdata := w, resp := r }
/-- Response codes of R488. -/
def respOk : Nat := 0
def respPending : Nat := 1
def respError : Nat := 2
def respPoison : Nat := 3

/-! ### Ports and domains -/
/-- Port d of the leaf: 0 Wheat, 1 Barley (R19). -/
def leafPort (l : Leaf) (d : Nat) : Port := if d = 0 then l.port0 else l.port1
/-- Replace port d. -/
def setLeafPort (l : Leaf) (d : Nat) (p : Port) : Leaf := if d = 0 then { l with port0 := p } else { l with port1 := p }
/-- Domain d of the leaf. -/
def leafDom (l : Leaf) (d : Nat) : DomLoop := if d = 0 then l.domW else l.domB
/-- Replace domain d. -/
def setLeafDom (l : Leaf) (d : Nat) (x : DomLoop) : Leaf := if d = 0 then { l with domW := x } else { l with domB := x }
/-- Is domain d `LOCKED`? -/
def domLocked (l : Leaf) (d : Nat) : Bool := decide ((leafDom l d).state = .locked)
/-- The overall state (R168): the number of domains `LOCKED`. -/
def overall (l : Leaf) : Nat := b2n (domLocked l 0) + b2n (domLocked l 1)
/-- `TIME_UNALIGNED` (R172, R455): FREE, or removing a residual of more than 400 ps, or in QUARANTINE. -/
def timeUnaligned (l : Leaf) : Bool :=
  decide (overall l = 0) || decide (400 * 2 ^ 40 < l.tsel.resid.natAbs * 1000) || decide (l.start.phase = 4)
/-- Send a packet on port d; the queue holds it only while the link is UP (R149). -/
def leafSend (l : Leaf) (d vc : Nat) (gs : List Granule) : Leaf := setLeafPort l d (portSend { vc := vc, grans := gs } (leafPort l d))
/-- A granule of plain data. -/
def plain (g : Gran) : Granule := { data := g }
/-- Send a one-granule packet. -/
def leafSolo (l : Leaf) (d vc : Nat) (g : Gran) : Leaf := leafSend l d vc [plain g]
/-- Send a one-granule packet up both domains. -/
def leafSoloBoth (l : Leaf) (vc : Nat) (g : Gran) : Leaf := leafSolo (leafSolo l 0 vc g) 1 vc g
/-- Run a port operation at port d and raise what it raises. -/
def leafOnPort (l : Leaf) (d : Nat) (f : Port → Evd Port) : Leaf :=
  let r := f (leafPort l d)
  leafRaiseAll (setLeafPort l d r.1) r.2

/-! ### Taps: words (R74) -/
/-- Tap t. -/
def leafTap (l : Leaf) (t : Nat) : Tap := tabGet {} l.taps t
/-- Replace tap t. -/
def setTap (l : Leaf) (t : Nat) (x : Tap) : Leaf := { l with taps := tabSet {} l.taps t x }
/-- What one edge adds to pod time now (R72). -/
def edgeStep (tm : TimeCore) : Nat := tm.rate - slewTake tm
/-- The `TIME_A` and `TIME_B` words that refer to an edge `k` edges on (R74): pod time there at the present step, and what the hub adds per edge,
rounded to 20 fraction bits. -/
def timePair (tm : TimeCore) (k : Nat) : List Word :=
  let pod := (tm.acc + k * edgeStep tm) / 2 ^ 24
  [layW [⟨60, 4, 1⟩, ⟨0, 56, pod / 2 ^ 24⟩], layW [⟨60, 4, 2⟩, ⟨24, 36, (edgeStep tm + 8) / 16⟩, ⟨0, 24, pod⟩]]
/-- The `STEP_A` and `STEP_B` words of a pod-time notice (R74). -/
def stepPair (n : Notice) : List Word :=
  [layW [⟨60, 4, 3⟩, ⟨0, 48, n.at_⟩], layW [⟨60, 4, 4⟩, ⟨0, 37, ofSigned 37 n.delta⟩]]
/-- The type of a serial word (R74). -/
def wordType (w : Word) : Nat := wf w 63 60
/-- Does the hub send this word ahead of every other type (R74): `STEP_A`, `STEP_B`, `FIRE`? -/
def wordFirst (w : Word) : Bool := decide (3 ≤ wordType w) && decide (wordType w ≤ 5)
/-- Queue words to a tap that is there (R74): those that go ahead stand behind the ones like them and before all others. -/
def tapDn (ws : List Word) (t : Tap) : Tap :=
  if t.present then { t with dn := t.dn.takeWhile wordFirst ++ (ws.filter wordFirst ++ (t.dn.dropWhile wordFirst ++ ws.filter (fun w => !wordFirst w))) }
  else t
/-- Queue words to every tap present. -/
def tapsDn (l : Leaf) (ws : List Word) : Leaf := { l with taps := tabMap {} (fun _ t => tapDn ws t) l.taps }
/-- Queue a time pair (R74): it refers to the edge that carries the last bit of its `TIME_B`, 64 edges a word, behind the words that wait. -/
def tapPair (tm : TimeCore) (t : Tap) : Tap := tapDn (timePair tm (64 * (t.dn.length + 2))) t
/-- Queue a time pair to every tap present. -/
def tapsPair (l : Leaf) : Leaf := { l with taps := tabMap {} (fun _ t => tapPair l.time t) l.taps }

/-! ### Time -/
/-- Periodic instants from `next` on that lie below `b`, counted, and the first at or after it. -/
def trigPast (b : Nat) (t : Trigger) : Nat :=
  if t.next < b ∧ 0 < t.periodNs then (b - t.next + t.periodNs - 1) / t.periodNs else 0
/-- A trigger's periodic instants inside a skipped interval `[a, b)` in ns (R499): none of them is emitted. -/
def trigSkips (a b : Nat) (t : Trigger) : Nat :=
  if t.enable ∧ t.mode = 1 ∧ t.armed then trigPast b t - trigPast a t else 0
/-- Does an instant of the trigger lie in `[a, b)`? Single and on-launch instants there fire at the step instant (R499). -/
def trigHit (a b : Nat) (t : Trigger) : Bool :=
  t.enable && t.armed && (match t.mode with
    | 0 => decide (a ≤ t.next ∧ t.next < b)
    | 1 => decide (0 < trigSkips a b t)
    | _ => t.due.any (fun x => decide (a ≤ x ∧ x < b)))
/-- A trigger meets a skipped interval; a pulse in progress keeps its width (R497). -/
def trigMeets (a b : Nat) (t : Trigger) : Trigger :=
  let u := { t with pulseEnd := t.pulseEnd + (b - a) }
  if trigHit a b t then { u with skippedSeen := true, next := if t.mode = 1 then t.next + trigPast b t * t.periodNs else t.next } else u
/-- The first periodic instant not yet past at `now` (R498). -/
def periodicNext (now : Nat) (t : Trigger) : Nat :=
  if now ≤ t.time then t.time else t.time + (now - t.time + t.periodNs - 1) / t.periodNs * t.periodNs
/-- The set at first lock reaches the triggers (R54, R498): the periodic instants still to come are those of the new time. DEDUCED (assumption 37):
those that the set passes over never fell due. -/
def trigSet (now : Nat) (t : Trigger) : Trigger := if t.mode = 1 ∧ t.armed then { t with next := periodicNext now t } else t
/-- A forward step reaches the triggers (R499): the periodic instants skipped are counted, and seen. -/
def trigStep (l : Leaf) (a b : Nat) : Leaf :=
  let n := ((List.range 8).map (fun k => trigSkips a b (tabGet {} l.triggers k))).sum
  { l with triggers := tabMap {} (fun _ t => trigMeets a b t) l.triggers, trigDropped := ctrAdd l.trigDropped n }
/-- Send a report up both domains. -/
def leafReport (l : Leaf) (gs : List Granule) : Leaf := leafSend (leafSend l 0 3 gs) 1 3 gs
/-- Stamp a report of a failing item (R413). -/
def stampItem (ns : Nat) : List Granule → List Granule
  | [] => []
  | g :: t => { g with data := g.data ||| lay [⟨80, 64, ns⟩] } :: t
/-- Pod time has become VALID: the reports held are stamped and sent (R413). -/
def leafStampAll (l : Leaf) : Leaf :=
  l.tests.unsent.foldl (fun a gs => leafReport a (stampItem (leafNs l) gs)) { l with tests := { l.tests with unsent := [] } }
/-- What a change of the time core brings about at the leaf: its events, the interval a forward step skips at the triggers (R499), a held step to
every tap (R75), and after a write of `RATE`, a slew's start or end, or a first lock a new pair (R74). `old` is the core before. -/
def leafTimed (old : TimeCore) (evs : List EvRec) (l : Leaf) : Leaf :=
  let new := l.time
  let l0 := leafRaiseAll l evs
  let j := forwardJump old new
  let l1 := if j = 0 then l0 else trigStep l0 ((new.pod - j + 65535) / 65536) ((new.pod + 65535) / 65536)
  let l1 := if new.valid = old.valid then l1 else leafStampAll { l1 with triggers := tabMap {} (fun _ t => trigSet new.ns t) l1.triggers }
  let l2 := match new.pendPod with
    | some n => if old.pendPod = some n then l1 else tapsDn l1 (stepPair n)
    | none => l1
  if new.rate ≠ old.rate ∨ new.slewing ≠ old.slewing ∨ new.valid ≠ old.valid then tapsPair l2 else l2
/-- Run an operation of the time core. -/
def leafTime (l : Leaf) (f : TimeCore → TimeCore × List EvRec) : Leaf :=
  let r := f l.time
  leafTimed l.time r.2 { l with time := r.1 }
/-- Does the held step skip this fire time (R57)? -/
def inSkipped (at_ : Nat) (delta : Int) (f : Nat) : Bool :=
  decide (0 < delta) && decide (at_ ≤ f) && decide (f * 65536 < at_ * 65536 + delta.toNat)
/-- A step notice reaches the leaf (R58, R590): it is held or applied. -/
def leafNotice (l : Leaf) (n : Notice) : Leaf := leafTime l (fun t => receiveNotice t n)
/-- `SEQ` and the status of a snapshot (R66). -/
def snapHi (l : Leaf) (seq : Nat) : Word :=
  layW [⟨0, 16, leafPod l / 2 ^ 64⟩, ⟨16, 8, seq⟩, ⟨24, 2, l.tsel.sel⟩, ⟨26, 1, b2n l.time.valid⟩,
        ⟨27, 1, b2n (decide (0 < overall l))⟩, ⟨28, 1, b2n l.time.slewing⟩, ⟨29, 1, b2n (stepPending l.time)⟩,
        ⟨30, 1, b2n l.time.utcValid⟩, ⟨31, 1, b2n l.time.saturated⟩]
/-- A read of `TIME_SNAP_LO_c` latches context c (R66). -/
def snapRead (l : Leaf) (c : Nat) : Leaf :=
  let old := tabGet {} l.snaps c
  let seq := (old.seq + 1) % 256
  let lo := BitVec.ofNat 64 (leafPod l)
  leafAnswer { l with snaps := tabSet {} l.snaps c { lo := lo, hi := snapHi l seq, utc := utcWord l.time, seq := seq } } lo respOk

/-! ### Domain registers (R184) -/
/-- `TIME_SEL`. -/
def timeSelWord (l : Leaf) : Word :=
  layW [⟨0, 2, overall l⟩, ⟨2, 2, l.tsel.sel⟩, ⟨4, 1, b2n (decide (l.tsel.resid ≠ 0))⟩, ⟨5, 1, b2n l.tsel.apart⟩,
        ⟨6, 1, b2n (timeUnaligned l)⟩, ⟨16, 32, ofSigned 32 l.tsel.lastResid⟩]

/-! ### Slots -/
/-- Slot s. -/
def leafSlot (l : Leaf) (s : Nat) : Slot := tabGet {} l.slots s
/-- Replace slot s. -/
def setSlot (l : Leaf) (s : Nat) (x : Slot) : Leaf := { l with slots := tabSet {} l.slots s x }
/-- Change slot s. -/
def updSlot (l : Leaf) (s : Nat) (f : Slot → Slot) : Leaf := setSlot l s (f (leafSlot l s))
/-- State of the slot's sheaf in domain d (R260): 0 none, 1 FORMING, 2 READY, 3 RUNNING, 4 SUSPENDED, 5 CLOSING, 6 CLOSED. -/
def slotState (x : Slot) (d : Nat) : Nat := if d = 0 then x.wState else x.bState
/-- Does the slot hold a sheaf that is not CLOSED (R222)? -/
def slotOpen (x : Slot) : Bool :=
  decide (1 ≤ x.wState ∧ x.wState ≤ 5) || decide (1 ≤ x.bState ∧ x.bState ≤ 5) || x.waitW || x.waitB
/-- Is the slot's sheaf READY or RUNNING in some domain (R232)? -/
def slotRuns (x : Slot) : Bool := decide (x.wState = 2 ∨ x.wState = 3) || decide (x.bState = 2 ∨ x.bState = 3)
/-- Is the slot bound in domain d: its traffic goes there (R232)? -/
def slotBound (x : Slot) (d : Nat) : Bool := if d = 0 then x.boundW else x.boundB
/-- The token fields SLOT, TAG, RANK at their positions (R233). -/
def tokenFlds (s : Nat) (x : Slot) : List Fld := [⟨8, 5, s⟩, ⟨16, 32, x.tag⟩, ⟨48, 18, x.rank⟩]
/-- A fence notice (R249, R430), a withdraw notice (R38) or another slot notice: `PKT_TYPE` and extra fields. -/
def slotNotice (ty s : Nat) (x : Slot) (more : List Fld) : Gran := lay (⟨0, 8, ty⟩ :: tokenFlds s x ++ more)
/-- The member fingerprint of a slot (R385). -/
def memberFp (l : Leaf) (s : Nat) (x : Slot) (fw dum : Word) : Gran :=
  lay (⟨0, 8, 0x4D⟩ :: tokenFlds s x ++ [⟨66, 8, l.version⟩, ⟨74, 4, l.start.semVersion⟩, ⟨80, 64, fw.toNat⟩, ⟨144, 64, dum.toNat⟩])

end Sys2Proof.Machine
end

