-- ==== Sys2Proof/Machine/LeafTaps.lean ====
section
/-! DEFINITION. The region taps of a leaf (R73 to R102): their words, their copy of pod time, firing, stretch and slip, phase, frequency
commits, margins, register accesses, and the local barrier (R91 to R94). -/
namespace Sys2Proof.Machine

/-! ### The tap's copy of pod time (R75, R77) -/
/-- A delay in ps in 1/65,536 ns. -/
def psUnits (ps : Nat) : Nat := ps * 65536 / 1000
/-- The running copy at a time-clock edge, in 2^-40 ns. -/
def tapNow (edges : Nat) (t : Tap) : Nat := t.copy + (edges - t.copyEdge) * (t.rate * 16)
/-- The running copy in ns. -/
def tapNs (edges : Nat) (t : Tap) : Nat := tapNow edges t / 2 ^ 40
/-- The value nearest to `own` with these low 48 bits (R75). -/
def nearest48 (own x : Nat) : Nat :=
  let c := own - own % 2 ^ 48 + x % 2 ^ 48
  if own + 2 ^ 47 < c ∧ 2 ^ 48 ≤ c then c - 2 ^ 48 else if c + 2 ^ 47 < own then c + 2 ^ 48 else c
/-- A word leaves the queue to the tap; a reserved type is counted (R74). -/
def tapTake (w : Word) (t : Tap) : Tap :=
  let t1 := { t with dn := t.dn.erase w }
  if 8 ≤ wordType w then { t1 with badWord := ctrInc t1.badWord } else t1
/-- A `TIME_A`/`TIME_B` pair reaches the tap (R77): the copy is reloaded, compensated by d_t; a difference of a unit or more is counted. -/
def tapReload (edges : Nat) (a b : Word) (t : Tap) : Tap :=
  let t1 := tapTake b (tapTake a t)
  if wordType a = 1 ∧ wordType b = 2 then
    let v := (wf a 55 0 * 2 ^ 24 + wf b 23 0 + psUnits t.delayPs) * 2 ^ 24
    let now := tapNow edges t
    let diff := if v ≤ now then now - v else v - now
    { t1 with copy := v, copyEdge := edges, rate := wf b 59 24,
              resync := if 2 ^ 24 ≤ diff then ctrInc t1.resync else t1.resync }
  else t1
/-- Insert a launch in the order in which launches due on one edge fire (R59, R84): by slot, and within one slot by generation, which is the
order of the fire times an apex gives (R237). -/
def insFire (f : TapFire) : List TapFire → List TapFire
  | [] => [f]
  | g :: gs => if f.slot < g.slot ∨ (f.slot = g.slot ∧ f.at_ < g.at_) then f :: g :: gs else g :: insFire f gs
/-- A `FIRE` word reaches the tap (R75, R84, R86): a tap under `TAP_FAULT` takes no launch. One whose fire time is past came late, unless a
step skipped it (R59). -/
def tapFireWord (edges : Nat) (w : Word) (t : Tap) : Tap :=
  let t1 := tapTake w t
  if wordType w = 5 && !t.fault then
    let f := nearest48 (tapNs edges t) (wf w 47 0)
    { t1 with fires := insFire { at_ := f, slot := wf w 52 48, branch := wf w 56 53, commit := wbit w 57, skipped := wbit w 58,
                                 past := decide (f * 2 ^ 40 < tapNow edges t) && !wbit w 58 } t1.fires }
  else t1
/-- A `STEP_A`/`STEP_B` pair reaches the tap (R75). -/
def tapStepWord (edges : Nat) (a b : Word) (t : Tap) : Tap :=
  let t1 := tapTake b (tapTake a t)
  if wordType a = 3 ∧ wordType b = 4 then
    { t1 with step := some (nearest48 (tapNs edges t) (wf a 47 0), toSigned 37 (wf b 36 0)) }
  else t1
/-- Has the tap's compensated time reached T_s of the step it holds (R75)? -/
def tapStepDue (edges : Nat) (t : Tap) : Bool := match t.step with | none => false | some x => decide (x.1 * 2 ^ 40 ≤ tapNow edges t)
/-- The tap's compensated time reaches T_s (R75, as R57): a forward step moves the copy; a slew reaches the tap as a `RATE` only. -/
def tapStepApply (edges : Nat) (t : Tap) : Tap :=
  match t.step with
  | none => t
  | some (ts, d) =>
    if !tapStepDue edges t then t
    else { t with step := none, copy := tapNow edges t + d.toNat * 2 ^ 24, copyEdge := edges,
                  fires := t.fires.map (fun f => if inSkipped ts d f.at_ then { f with skipped := true } else f) }

/-! ### Region edges (R78, R82 to R89, R97) -/
/-- The stamp of a region edge (R78): the compensated copy at the last `tap_clk` edge, and the part of a period since, which the detector's 64
stages show. DEDUCED (assumption 76): the sample counts 64ths of the period since that edge. -/
def edgeStamp (edges sample : Nat) (t : Tap) : Nat := (tapNow edges t + satN 63 sample * (t.rate * 16) / 64) / 2 ^ 24
/-- A duration in 1/65,536 ns against one in fs. -/
def unitsFs (u : Nat) : Nat := u * 1000000
/-- How much an edge is stretched, in ps (R87), when it is. -/
def stretchOf (t : Tap) (stamp : Nat) : Option Nat :=
  match t.lastStamp with
  | none => none
  | some p =>
    if t.exclude = 0 ∧ 65536 * t.periodNom * (256 + t.stretchThr) < unitsFs (stamp - p) * 256 then
      some ((unitsFs (stamp - p) - 65536 * t.periodNom) / 65536000)
    else none
/-- The replica at a region edge (R99): on every 1,024th edge a transition is launched, and the next edge captures it. -/
def tapReplica (stretched : Bool) (t : Tap) : Tap :=
  if t.repEdges = 1024 then { t with repEdges := 1, repReady := some stretched } else { t with repEdges := t.repEdges + 1 }
/-- The edge's part that no launch has (R87 to R89, R97, R99): stretch, REGION_COUNT, the exclusion after a commit, the replica. What stretching
took is counted and not made good: nothing here moves a launch, a count or a period (R89). -/
def tapCount (stamp : Nat) (t0 : Tap) : Tap :=
  let t := tapReplica (stretchOf t0 stamp).isSome t0
  let t1 :=
    match stretchOf t stamp with
    | none => t
    | some x => { t with stretchCount := ctrInc t.stretchCount, stretchPs := ctrAdd t.stretchPs x,
                         stretchMax := max t.stretchMax (satN 65535 x) }
  let e := t.exclude - 1
  { t1 with lastStamp := some stamp, regionCount := satN 0xFFFFFFFF (t.regionCount + 1), exclude := e, strobe := none, freqCommit := false,
            fireStamp := if t.exclude = 1 ∧ t.fireStamp = none then some stamp else t.fireStamp,
            fireSkip := if t.exclude = 1 ∧ t.fireStamp = none then 2 else t.fireSkip }
/-- Lateness in ps (R83). -/
def latenessPs (stamp f : Nat) : Nat := satN 65535 ((stamp - f * 65536) * 1000 / 65536)
/-- Does the lateness exceed two nominal periods (R83)? -/
def isLate (t : Tap) (stamp f : Nat) : Bool := decide (2 * t.periodNom < latenessPs stamp f * 1000)
/-- `SLIP` at a fire edge (R88), when the interval has a start. -/
def slipOf (t : Tap) (stamp : Nat) : Option Int :=
  match t.fireStamp with
  | none => none
  | some b => some (roundHalfEven (unitsFs (stamp - b)) (65536 * t.periodNom) - ((t.regionCount : Int) - t.fireSkip))
/-- The `FIRED` word (R74). -/
def firedWord (late slot : Nat) (slip : Int) : Word := layW [⟨60, 4, 9⟩, ⟨0, 16, late⟩, ⟨16, 5, slot⟩, ⟨21, 32, ofSigned 32 slip⟩]
/-- A launch fires on this edge (R82 to R84, R88, R97). Whatever was counted since the last fire edge, the region's schedule starts anew from
this one (R89): `REGION_COUNT` restarts at 0. -/
def tapLaunch (stamp : Nat) (f : TapFire) (t : Tap) : Tap :=
  let late := isLate t stamp f.at_ || f.past
  let word := firedWord (latenessPs stamp f.at_) f.slot ((slipOf t stamp).getD 0)
  let slip := slipOf t stamp
  let commits := f.commit && t.freqArm
  { t with fires := t.fires.erase f,
           strobe := some { slot := f.slot, branch := f.branch, commit := f.commit, skipped := f.skipped, late := late },
           freqCommit := commits, periodNom := if commits then t.periodNext else t.periodNom,
           freqArm := t.freqArm && !commits, exclude := if commits then 2 else t.exclude,
           slipLast := slip.getD t.slipLast, slipTotal := satS 32 (t.slipTotal + slip.getD 0),
           fireStamp := if commits then none else some stamp, fireSkip := 0, regionCount := 0, noms := t.noms ++ [(word, t.periodNom)],
           up := t.up ++ [word] }
/-- The launch due on an edge, the first in slot order whose fire time the stamp has reached (R82, R84). -/
def dueFire (stamp : Nat) (t : Tap) : Option TapFire := t.fires.find? (fun f => decide (f.at_ * 65536 ≤ stamp))
/-- The launches as an edge finds them: every one that fell due while the clock was stopped counts as past (R84, R86). -/
def edgeFires (stamp : Nat) (t : Tap) : List TapFire :=
  if t.clkStopped then t.fires.map (fun f => { f with past := f.past || decide (f.at_ * 65536 ≤ stamp) }) else t.fires
/-- A region edge stamped at the tap (R78, R87, R88): it is counted, and fires at most one launch that is due (R84). -/
def tapEdge (stamp : Nat) (t : Tap) : Tap :=
  let u := { tapCount stamp t with clkStopped := false, fires := edgeFires stamp t }
  match dueFire stamp u with
  | none => u
  | some f => tapLaunch stamp f u
/-- `tap_time` (R79): the prediction of the next edge's stamp, bits [79:8] of pod time. -/
def tapTime (t : Tap) : Nat := ((t.lastStamp.getD 0) + t.periodNom * 65536 / 1000000) / 256
/-- `TAP_STATUS` (R101). -/
def tapStatusWord (t : Tap) : Word :=
  layW [⟨0, 1, b2n t.present⟩, ⟨1, 1, b2n t.locked⟩, ⟨2, 1, b2n t.fault⟩, ⟨3, 1, b2n t.clkStopped⟩, ⟨4, 1, b2n t.marginLow⟩,
        ⟨5, 1, b2n t.fireLate⟩, ⟨6, 1, b2n t.cfgBad⟩]
/-- The hub refreshes its copies of the tap's status, margin and slip (R519): from every `FIRED` and `ALERT` word, and every 10 µs. -/
def hubRefresh (t : Tap) : Tap := { t with hubStatus := (tapStatusWord t).toNat % 64, hubMargin := t.margin, hubSlip := t.slipLast }
/-- A `FIRED` word reaches the hub (R83, R519): last and largest lateness, the hub's copies, and `FIRE_LATE`, by the nominal period of the edge
that the word reports. -/
def hubFired (w : Word) (t : Tap) : Tap × Bool :=
  let late := wf w 15 0
  let nom := (t.noms.find? (fun x => decide (x.1 = w))).map Prod.snd |>.getD t.periodNom
  let t1 := { t with up := t.up.erase w, noms := t.noms.erase (w, nom) }
  if wordType w = 9 then
    let l := decide (2 * nom < late * 1000)
    ({ hubRefresh { t1 with lateLast := late, lateMax := max t.lateMax late, fireLate := t.fireLate || l } with
         hubSlip := toSigned 32 (wf w 52 21) }, l)
  else (t1, false)

/-! ### Delay, faults, phase, margin -/
/-- The hub has measured a round trip (R76): d_t is half of it; a change of more than 50 ps is reported, the first measurement is not. -/
def tapDelay (roundTripPs : Nat) (t : Tap) : Tap × Bool :=
  let d := roundTripPs / 2
  let jump := t.delayKnown && (decide (t.delayPs + 50 < d) || decide (d + 50 < t.delayPs))
  ({ t with delayPs := satN 65535 d, delayKnown := true, locked := true }, jump)
/-- `TAP_FAULT` (R86): the tap leaves service and fires nothing. DESIGN CHOICE (assumption 76): the spec does not say when a tap's fault ends, so
it lasts until the leaf is reset, `FAULT` shows it, and accesses to the tap are answered `ERROR` meanwhile. -/
def tapFail (t : Tap) : Tap := { t with fault := true, locked := false, fires := [] }
/-- A phase measurement starts (R96). -/
def phaseStart (t : Tap) : Tap := { t with phaseBusy := true, phaseDone := false, ownStamps := [], nbrStamps := [], unclean := 0 }
/-- The tap that neighbour `i` names (R95). -/
def nbrOf (t : Tap) (i : Nat) : Nat := bitsOf t.nbrSel (6 * i + 5) (6 * i)
/-- Tap `m`, measuring, takes the stamp of a region edge of tap `n`, its own or an enabled neighbour's, 256 of each (R95); the bits of `unclean`
are the neighbours' and, bit 4, its own. -/
def phaseSample (n m stamp : Nat) (stretched : Bool) (t : Tap) : Tap :=
  if !t.phaseBusy then t
  else
    let t1 := if n = m ∧ t.ownStamps.length < 256 then
        { t with ownStamps := stamp :: t.ownStamps, unclean := if stretched then t.unclean ||| 16 else t.unclean } else t
    (List.range 4).foldl (fun a i =>
      let q := tabGet [] a.nbrStamps i
      if a.nbrEn.testBit i ∧ nbrOf a i = n ∧ q.length < 256 then
        { a with nbrStamps := tabSet [] a.nbrStamps i (stamp :: q), unclean := if stretched then a.unclean ||| 2 ^ i else a.unclean }
      else a) t1
/-- Has the measurement all its stamps (R96)? -/
def phaseFull (t : Tap) : Bool :=
  t.phaseBusy && decide (t.ownStamps.length = 256) &&
  (List.range 4).all (fun i => !t.nbrEn.testBit i || decide ((tabGet [] t.nbrStamps i).length = 256))
/-- The mean of neighbour less own over 256 pairs of stamps, modulo the nominal period, in ps (R95). -/
def phaseMean256 (nbr own : List Nat) (nom : Nat) : Nat :=
  let d : Int := (nbr.sum : Int) - own.sum
  ((d * 1000000).emod ((256 * 65536 * nom : Nat) : Int)).toNat / (256 * 65536 * 1000)
/-- A measurement ends (R95, R96), when it has all its stamps: per enabled neighbour the phase, and whether it is valid. `nbrPeriod` gives the
neighbours' `PERIOD_NOM`; a neighbour not enabled is not valid. -/
def phaseEnd (nbrPeriod : List Nat) (t : Tap) : Tap :=
  if phaseFull t then
    let vals := (List.range 4).map (fun i =>
      if t.nbrEn.testBit i then phaseMean256 (tabGet [] t.nbrStamps i) t.ownStamps t.periodNom % 65536 else bitsOf t.phase (16 * i + 15) (16 * i))
    let ok := (List.range 4).map (fun i =>
      t.nbrEn.testBit i && !t.unclean.testBit 4 && !t.unclean.testBit i && decide (nbrPeriod.getD i 0 = t.periodNom))
    { t with phaseBusy := false, phaseDone := true, ownStamps := [], nbrStamps := [], unclean := 0,
             phase := layNat ((List.range 4).map (fun n => (⟨16 * n, 16, vals.getD n 0⟩ : Fld))),
             phaseValid := layNat ((List.range 4).map (fun n => (⟨n, 1, b2n (ok.getD n false)⟩ : Fld))) }
  else t
/-- A replica sample is reported (R99, R100, R575), of the last capturing edge: one on a stretched edge is discarded. -/
def replicaSample (slackPs : Nat) (t : Tap) : Tap × Bool :=
  match t.repReady with
  | none => (t, false)
  | some true => ({ t with repReady := none }, false)
  | some false =>
    let m := satN 65535 slackPs
    let low := decide (m < t.marginWarn)
    ({ t with repReady := none, margin := m, marginMin := min t.marginMin m, marginLow := t.marginLow || (low && !t.marginHeld),
              marginHeld := if low then true else if t.marginWarn + 20 < m then false else t.marginHeld }, low && !t.marginHeld)

/-! ### Register accesses (R101, R490, R504) -/
/-- The tap registers by offset. DESIGN CHOICE (assumption 76): `PHASE_START` reads 0, while a measurement runs too. -/
def tapRegWord (t : Tap) (off : Nat) : Option Word :=
  match off with
  | 0x00 => some (layW [⟨0, 32, t.periodNom⟩, ⟨32, 8, t.stretchThr⟩, ⟨40, 1, b2n t.freqArm⟩, ⟨41, 1, b2n t.freqReq⟩, ⟨42, 2, t.replicaSel⟩])
  | 0x08 => some (layW [⟨0, 32, t.periodNext⟩])
  | 0x10 => some (tapStatusWord t)
  | 0x18 => some (layW [⟨0, 16, t.delayPs⟩])
  | 0x20 => some (layW [⟨0, 16, t.lateLast⟩, ⟨16, 16, t.lateMax⟩])
  | 0x28 => some (ctrWord t.stretchCount)
  | 0x30 => some (ctrWord t.stretchPs)
  | 0x38 => some (layW [⟨0, 16, t.stretchMax⟩])
  | 0x40 => some (layW [⟨0, 32, ofSigned 32 t.slipLast⟩, ⟨32, 32, ofSigned 32 t.slipTotal⟩])
  | 0x48 => some (layW [⟨0, 32, t.regionCount⟩])
  | 0x50 => some (layW [⟨0, 24, t.nbrSel⟩, ⟨24, 4, t.nbrEn⟩, ⟨29, 1, b2n t.phaseDone⟩])
  | 0x58 => some (layW [⟨0, 64, t.phase⟩])
  | 0x60 => some (layW [⟨0, 4, t.phaseValid⟩])
  | 0x68 => some (layW [⟨0, 16, t.margin⟩, ⟨16, 16, t.marginMin⟩, ⟨32, 16, t.marginWarn⟩])
  | 0x70 => some (ctrWord t.resync)
  | 0x78 => some (ctrWord t.badWord)
  | _ => none
/-- What a read clears at the tap (R490). -/
def tapReadClear (t : Tap) (off : Nat) : Tap :=
  match off with
  | 0x20 => { t with lateMax := 0 }
  | 0x28 => { t with stretchCount := {} }
  | 0x30 => { t with stretchPs := {} }
  | 0x38 => { t with stretchMax := 0 }
  | 0x40 => { t with slipTotal := 0 }
  | 0x68 => { t with marginMin := 0xFFFF }
  | 0x70 => { t with resync := {} }
  | 0x78 => { t with badWord := {} }
  | _ => t
/-- Is a period in range (R101)? -/
def periodOk (p : Nat) : Bool := decide (400000 ≤ p) && decide (p ≤ 20000000)
/-- A write of a tap register (R12, R101); `locked`: start-up has completed for RWL fields. Second: a locked field was written. -/
def tapWrite (locked : Bool) (off : Nat) (w : Word) (t : Tap) : Tap × Bool :=
  match off with
  | 0x00 =>
    let ok := periodOk (wf w 31 0)
    ({ t with periodNom := if ok then wf w 31 0 else t.periodNom, cfgBad := t.cfgBad || !ok, stretchThr := wf w 39 32,
              freqArm := wbit w 40, freqReq := wbit w 41, replicaSel := if locked then t.replicaSel else wf w 43 42 }, locked)
  | 0x08 =>
    let ok := periodOk (wf w 31 0)
    ({ t with periodNext := if ok then wf w 31 0 else t.periodNext, cfgBad := t.cfgBad || !ok }, false)
  | 0x10 =>
    ({ t with fault := t.fault && !wbit w 2, marginLow := t.marginLow && !wbit w 4, fireLate := t.fireLate && !wbit w 5,
              cfgBad := t.cfgBad && !wbit w 6 }, false)
  | 0x50 =>
    let t1 := { t with nbrSel := wf w 23 0, nbrEn := wf w 27 24 }
    (if wbit w 28 then phaseStart t1 else t1, false)
  | 0x68 => ({ t with marginWarn := wf w 47 32 }, false)
  | _ => (t, false)
/-- The word of an access (R74): `CFG_WR` or `CFG_RD`, its offset, and what a write writes. -/
def cfgWord (off : Nat) (wr : Bool) (w : Word) : Word := layW [⟨60, 4, if wr then 6 else 7⟩, ⟨48, 12, off⟩, ⟨0, 48, if wr then wf w 47 0 else 0⟩]
/-- The `RD_DATA` words of a register (R74): 48 bits a word. DESIGN CHOICE (assumption 76): the high bits of a 64-bit register come in a second
word. -/
def rdWords (v : Word) : List Word := [layW [⟨60, 4, 10⟩, ⟨0, 48, wf v 47 0⟩], layW [⟨60, 4, 10⟩, ⟨0, 48, wf v 63 48⟩]]
/-- The tap serves an access word (R74, R490): a write changes a register, second component a locked field; a read is answered on `tap_up`, and
clears what a read clears. -/
def tapServe (locked : Bool) (c : Word) (t : Tap) : Tap × Bool :=
  let off := wf c 59 48
  let t1 := tapTake c t
  if wordType c = 6 then tapWrite locked off (BitVec.ofNat 64 (wf c 47 0)) t1
  else
    match tapRegWord t1 off with
    | none => (t1, false)
    | some v => ({ tapReadClear t1 off with up := t1.up ++ rdWords v }, false)
/-- The hub takes the `RD_DATA` words of an access (R74): the register they carry. -/
def hubRead (t : Tap) : Tap × Word :=
  match t.up.filter (fun w => decide (wordType w = 10)) with
  | a :: b :: _ => ({ t with up := (t.up.erase a).erase b }, layW [⟨0, 48, wf a 47 0⟩, ⟨48, 16, wf b 15 0⟩])
  | _ => (t, 0#64)
/-- An access to tap t's block (R74, R490): a word goes down, the tap serves it, and what it answers comes up. An absent or faulted tap answers
ERROR, and so does an offset without a register. -/
def tapAccess (n off : Nat) (wr : Bool) (w : Word) (l : Leaf) : Leaf :=
  let t := leafTap l n
  if !t.present || t.fault || (tapRegWord t off).isNone then leafAnswer l 0#64 respError
  else
    let c := cfgWord off wr w
    let r := tapServe l.start.cfgLocked c (tapDn [c] t)
    if wr then leafAnswer { setTap l n r.1 with lockedWrite := if r.2 then ctrInc l.lockedWrite else l.lockedWrite } 0#64 respOk
    else leafAnswer (setTap l n (hubRead r.1).1) (hubRead r.1).2 respOk

/-! ### Operations at the leaf -/
/-- The hub sends tap t a time pair (R74). -/
def hubPair (n : Nat) (l : Leaf) : Leaf := setTap l n (tapPair l.time (leafTap l n))
/-- A tap operation that only changes the tap. -/
def onTap (n : Nat) (f : Tap → Tap) (l : Leaf) : Leaf := setTap l n (f (leafTap l n))
/-- A tap operation that may raise one event carrying the tap, of which an `ALERT` word tells the hub (R74, R519). -/
def onTapEv (n : Nat) (e : Ev) (f : Tap → Tap × Bool) (l : Leaf) : Leaf :=
  let r := f (leafTap l n)
  if r.2 then leafEv (setTap l n (hubRefresh r.1)) e n 0 else setTap l n r.1
/-- A region edge at tap n, sampled by its detector (R78): the tap's part, and the measurements of taps that stamp it (R95). -/
def leafEdge (n sample : Nat) (l : Leaf) : Leaf :=
  let t := leafTap l n
  let stamp := edgeStamp l.time.edges sample t
  let st := (stretchOf t stamp).isSome
  let l1 := onTap n (tapEdge stamp) l
  { l1 with taps := tabMap {} (fun m x => phaseSample n m stamp st x) l1.taps }
/-- The edge on which a held launch is due (R82); with none due this is no launch edge. -/
def leafTapFire (n sample : Nat) (l : Leaf) : Leaf :=
  let t := leafTap l n
  let stamp := edgeStamp l.time.edges sample t
  match dueFire stamp t with
  | none => l
  | some _ => leafEdge n sample l
/-- Does a launch of slot s that tap n is to fire, and has not, stand in its launch status (R86)? -/
def tapOwes (s : Nat) (x : Slot) (t : Tap) : Bool :=
  let low := x.launchTime % 2 ^ 48
  t.fires.any (fun f => decide (f.slot = s) && decide (f.at_ % 2 ^ 48 = low)) ||
  t.dn.any (fun w => decide (wordType w = 5) && decide (wf w 52 48 = s) && decide (wf w 47 0 = low))
/-- `TAP_FAULT` (R86): the tap is excluded from firing, and the status of every launch that it was still to fire shows it. -/
def leafTapFault (n : Nat) (l : Leaf) : Leaf :=
  let t := leafTap l n
  let l1 := { l with slots := tabMap {} (fun s x => if tapOwes s x t then { x with lTapFault := true } else x) l.slots }
  leafEv (setTap l1 n (tapFail t)) .tapFault n 0
/-- A region clock shows no edge for 1 µs (R86). -/
def clockStop (t : Tap) : Tap × Bool := ({ t with clkStopped := true }, !t.clkStopped)
/-- A phase measurement at tap n ends (R95, R96): its neighbours are those that `NBR_SEL` names. -/
def leafPhaseDone (n : Nat) (l : Leaf) : Leaf :=
  let t := leafTap l n
  setTap l n (phaseEnd ((List.range 4).map (fun i => (leafTap l (nbrOf t i)).periodNom)) t)

/-! ### The local barrier (R91 to R93, R98) -/
/-- Local channel c. -/
def leafChan (l : Leaf) (c : Nat) : LocalChan := tabGet {} l.chans c
/-- Every member's first flag, when all have arrived. -/
def allArrived (ch : LocalChan) : Option (List Bool) :=
  let ms := onesOf 64 ch.mask
  if ms.all (fun t => !(tabGet [] ch.arrivals t).isEmpty) then some (ms.map (fun t => (tabGet [] ch.arrivals t).headD false)) else none
/-- Do the member taps ask for a commit that the program permits (R98)? -/
def localFreq (l : Leaf) (x : Slot) (ch : LocalChan) : Bool × Bool :=
  let ms := onesOf 64 ch.mask
  let asks := ms.filter (fun t => (leafTap l t).freqReq)
  (pgFreqOk x.program && decide (asks.length = ms.length) && !ms.isEmpty, !asks.isEmpty)
/-- A commit asserted with the local release (R98): each armed member tap takes its next period. -/
def tapLocalCommit (t : Tap) : Tap :=
  if t.freqArm then { t with freqCommit := true, periodNom := t.periodNext, freqArm := false, exclude := 2, fireStamp := none, regionCount := 0 } else t
/-- One release of local channel c when every member has arrived (R92, R93): AND and OR go to every member tap, the generation's branch
code is 2×AND + OR, and the slot shows it launched. -/
def localRelease (c : Nat) (l : Leaf) : Leaf :=
  let ch := leafChan l c
  match ch.slot, allArrived ch with
  | some s, some flags =>
    let a := flags.all id
    let o := flags.any id
    let x := leafSlot l s
    let fr := localFreq l x ch
    let ms := onesOf 64 ch.mask
    let ch1 := { ch with arrivals := tabMap [] (fun _ q => q.tail) ch.arrivals, gen := ch.gen + 1, openAt := leafNs l }
    let x1 := { x with wState := 3, bState := 0, member := 1, lGen := ch.gen, lBranch := 2 * b2n a + b2n o, lFailed := false, lFreq := fr.1,
                       launchTime := leafNs l, nextGen := ch.gen + 1, lFrom := 0, lBoth := false, lMismatch := false, lSkipped := false,
                       lTapFault := false, lPartial := false, lForced := false, lUnaligned := timeUnaligned l, lReady := false,
                       lastFire := leafNs l }
    let l1 := { setSlot l s x1 with chans := tabSet {} l.chans c ch1 }
    let l2 := ms.foldl (fun a' t => onTap t (fun tp =>
      { tp with lbDn := tabUpd [] tp.lbDn c (fun q => q ++ [(a, o, fr.1)]) }) a') l1
    let l3 := if fr.2 && !fr.1 then
        (ms.filter (fun t => (leafTap l t).freqReq)).foldl (fun a' t => leafEv a' .freqDeferred t 0) l2
      else l2
    leafEv l3 .launch s (2 * b2n a + b2n o)
  | _, _ => l
/-- Releases follow one another while every member has arrived; at most `n`. -/
def localReleases (c : Nat) : Nat → Leaf → Leaf
  | 0, l => l
  | n + 1, l => if (leafChan l c).slot.isSome && (allArrived (leafChan l c)).isSome then localReleases c n (localRelease c l) else l
/-- A member tap toggles `lb_up[c]` (R92, R93). -/
def localArrive (n c : Nat) (flag : Bool) (l : Leaf) : Leaf :=
  let ch := leafChan l c
  match ch.slot with
  | none => l
  | some s =>
    if !ch.mask.testBit n || (leafTap l n).fault || !slotRuns (leafSlot l s) then l
    else
      let q := tabGet [] ch.arrivals n
      if max 1 (pgInflight (leafSlot l s).program) ≤ q.length then leafEv l .lbOverrun n 0
      else
        let l1 := { l with chans := tabSet {} l.chans c { ch with arrivals := tabSet [] ch.arrivals n (q ++ [flag]) } }
        localReleases c 4 (updSlot l1 s (fun x => { x with wState := if x.wState = 2 then 3 else x.wState }))
/-- The tap passes a release on to its region, on a region edge (R92), on which a commit that came with it takes effect (R98). -/
def tapRelease (c : Nat) (t : Tap) : Tap :=
  match tabGet [] t.lbDn c with
  | [] => t
  | (a, o, commit) :: rest =>
    let t1 := { t with lbDn := tabSet [] t.lbDn c rest, lbRel := tabUpd (0, false, false) t.lbRel c (fun r => ((r.1 + 1) % 2, a, o)) }
    if commit then tapLocalCommit t1 else t1
/-- The pod time in ns at which the open generation of local channel c fails without a release (R93, R236). -/
def localDeadline (c : Nat) (l : Leaf) : Nat :=
  let ch := leafChan l c
  match ch.slot with
  | none => ch.openAt
  | some s => ch.openAt + 1000 * pgGenTimeoutUs (leafSlot l s).program
/-- One generation of a local sheaf fails (R93, R241). -/
def localGenFail (s gen cause : Nat) (l : Leaf) : Leaf :=
  leafEv (updSlot l s (fun x => { x with lGen := gen, lFailed := true, failCause := cause, lBranch := 0 })) .genFailed s cause
/-- A local generation has no release by the program's timeout (R93): it fails, and with it every later one for which an arrival is held
(R241); the sheaf is suspended and the arrivals go. -/
def localTimeout (c : Nat) (l : Leaf) : Leaf :=
  let ch := leafChan l c
  match ch.slot with
  | none => l
  | some s =>
    if (allArrived ch).isSome || !slotRuns (leafSlot l s) || decide (leafNs l < localDeadline c l) then l
    else
      let open_ := max 1 ((ch.arrivals.map (fun e => e.2.length)).foldl max 0)
      let l1 := (List.range (open_ - 1)).foldl (fun a i => localGenFail s (ch.gen + 1 + i) 3 a) (localGenFail s ch.gen 1 l)
      let l2 := { updSlot l1 s (fun x => { x with wState := 4 }) with
        chans := tabSet {} l1.chans c { ch with arrivals := [], gen := ch.gen + open_, openAt := leafNs l } }
      leafEv l2 .sheafSuspended s 0

end Sys2Proof.Machine
end

