-- ==== Sys2Proof/Machine/SrcOps.lean ====
section
/-! DEFINITION. A domain's source machine, as a leaf runs it for each domain and a channel for its source (R158 to R167): what a released
block does, and what a change of the link does. -/
namespace Sys2Proof.Machine

/-- Causes of R184. -/
def domLinkLost : Nat := 0x01
def domNoBlocks : Nat := 0x02
def domRtt : Nat := 0x03
def domNoisy : Nat := 0x04
def domSourceFree : Nat := 0x05
def domLinkFaulted : Nat := 0x10
def domCalDegraded : Nat := 0x11
def domTdcFault : Nat := 0x12
def domTimeLost : Nat := 0x13

/-- What a released block brought about. -/
inductive BlockOut where
  | none
  | used (b : BlockVal) (e : Int)
  | coasted (cause : Nat)
  | locked (b : BlockVal)
  deriving DecidableEq, Repr

/-- θ̂ extrapolated with f̂ to a pod time (R170). -/
def thetaAt (pod : Nat) (d : DomLoop) : Int := d.theta + Int.fdiv (d.freq * ((pod : Int) - d.refAt)) 1000000000000000000
/-- A block gives no usable release (R165): the third in a row takes a LOCKED domain to COASTING. -/
def noBlock (d : DomLoop) : DomLoop × BlockOut :=
  let d1 := { d with noRel := d.noRel + 1, qual := 0 }
  if d.state = .locked && decide (3 ≤ d1.noRel) then (loopCoast domNoBlocks d1, .coasted domNoBlocks) else (d1, .none)
/-- The phase error a block gives (R160, R170): θ less the target for the loop that steers, θ less the model for one that does not. -/
def phaseErr (steer : Bool) (target : Int) (b : BlockVal) (d : DomLoop) : Int := if steer then b.theta - target else b.theta - d.theta
/-- A usable block reaches the loop (R160 to R165), on a time-clock edge. -/
def useBlock (k : LoopK) (steer : Bool) (target : Int) (edges : Nat) (p : Port) (b : BlockVal) (d : DomLoop) : DomLoop × BlockOut :=
  let e := phaseErr steer target b d
  let d0 := { loopBlock k steer b e d with refAt := b.ref, srcCount := p.beat.waitCount }
  let d1 := if d0.seeded && !d.seeded then { d0 with gearAt := edges } else d0
  if d.state = .locked then
    if p.beat.srcState = 2 then (loopCoast domSourceFree d1, .coasted domSourceFree)
    else if 3 ≤ d1.rttBad then (loopCoast domRtt d1, .coasted domRtt)
    else if 3 ≤ d1.noisy then (loopCoast domNoisy d1, .coasted domNoisy)
    else (d1, .used b e)
  else
    let q := if d1.seeded && decide (d1.gear = 0) && qualifies p b e then d.qual + 1 else 0
    if 16 ≤ q then ({ d1 with qual := 0, state := .locked, fromCoast := false, rttBad := 0, noisy := 0 }, .locked b)
    else ({ d1 with qual := q }, .used b e)
/-- A block's release reaches the domain (R138, R158, R159, R165, R167). `p` is the port before the release. -/
def domBlock (k : LoopK) (steer : Bool) (target : Int) (edges : Nat) (applied : List Notice) (f : BlockFate) (p : Port)
    (d : DomLoop) : DomLoop × BlockOut :=
  match f with
  | .nothing => (d, .none)
  | .dropped => if d.state = .acquiring ∨ d.state = .locked then noBlock d else (d, .none)
  | .tagFailed => if d.state = .acquiring ∨ d.state = .locked then noBlock d else (d, .none)
  | .released =>
    let d0 := if d.state = .coasting then loopAcquire d else d
    if d0.state = .acquiring ∨ d0.state = .locked then
      match countRule p.beat.waitOwn p.beat.waitCount p.beat.waitMixed p.beat.prevMixed applied with
      | .none => noBlock { d0 with srcCount := p.beat.waitCount }
      | some adj =>
        match blockValue adj p.beat.waitPairs with
        | .none => noBlock { d0 with srcCount := p.beat.waitCount }
        | some b => useBlock k steer target edges p b d0
    else (d, .none)
/-- May the loop still change gear (R163)? -/
def gearRuns (d : DomLoop) : Bool := decide (d.state = .acquiring) && d.seeded && decide (d.gear ≠ 0)
/-- The time-clock edge on which the hold time of the gear ends (R163). -/
def gearEnd (k : LoopK) (d : DomLoop) : Nat := d.gearAt + edgeAt (gearHold k d.gear)
/-- The hold time of a gear expires (R163): the loop goes to the next gear down. -/
def gearAdvance (edges : Nat) (d : DomLoop) : DomLoop := if gearRuns d then { d with gear := d.gear - 1, gearAt := edges } else d
/-- The domain must wait for a unit reset (R167). -/
def domStuck (d : DomLoop) : Bool := decide (d.state = .faulted) && decide (d.cause = domTdcFault ∨ d.cause = domTimeLost)
/-- A beat of the domain's source is heard (R165, R169, R184): its source state is shown, and one that is free takes a LOCKED domain to COASTING. -/
def srcHeard (edges st : Nat) (d : DomLoop) : DomLoop × Option Nat :=
  let d1 := { d with srcState := st, oneSince := if st = 1 then some (d.oneSince.getD edges) else none }
  if d.state = .locked ∧ st = 2 then (loopCoast domSourceFree d1, some domSourceFree) else (d1, none)
/-- The domain goes FAULTED. -/
def domFault (c : Nat) (d : DomLoop) : DomLoop := { d with state := .faulted, cause := c, qual := 0, seeded := false, fit := [] }
/-- A link no longer UP, down or training again, as the domain sees it (R165, R167). Second: the cause with which it goes COASTING. -/
def domDown (dark : Bool) (d : DomLoop) : DomLoop × Option Nat :=
  match d.state with
  | .locked => (loopCoast domLinkLost d, some domLinkLost)
  | .coasting => (d, none)
  | .acquiring => if d.fromCoast then (loopCoast domLinkLost d, some domLinkLost) else (loopEmpty .absent d, none)
  | .faulted => (if dark && !domStuck d then loopEmpty .absent d else d, none)
  | _ => (loopEmpty .absent d, none)
/-- The domain follows its link (R167). Second: the cause with which it newly coasts; third: with which it newly faults. -/
def domLink (p : Port) (d : DomLoop) : DomLoop × Option Nat × Option Nat :=
  match p.state with
  | .down => let r := domDown (decide (p.trn.light = 0)) d; (r.1, r.2, none)
  | .training =>
    let r := if d.state = .locked ∨ d.state = .acquiring then domDown false d else (d, none)
    (if domStuck d || decide (r.1.state = .coasting) then r.1 else { r.1 with state := .training }, r.2, none)
  | .calibrating => (if d.state = .training then { d with state := .calibrating } else d, none, none)
  | .up =>
    if domStuck d then (d, none, none)
    else if p.calDegraded then (domFault domCalDegraded d, none, if d.state = .faulted then none else some domCalDegraded)
    else if d.state = .training ∨ d.state = .calibrating then (loopAcquire d, none, none) else (d, none, none)
  | .faulted => if domStuck d then (d, none, none)
    else (domFault domLinkFaulted d, none, if d.state = .faulted then none else some domLinkFaulted)

end Sys2Proof.Machine
end

