-- ==== Sys2Proof/Machine/LeafTime.lean ====
section
/-! DEFINITION. A leaf's two domains (R168 to R173): released blocks, first lock, selection, the seamless switch, and what a change of a link
does to its domain. -/
namespace Sys2Proof.Machine

/-- 1/65,536 ns in 2^-40 ns. -/
def subUnits (x : Int) : Int := x * 2 ^ 24
/-- Residual removal per block (R170) in 2^-40 ns: 5.12 ps, or 5.12 ns. -/
def stepSlow : Nat := 512 * 2 ^ 40 / 100000
def stepFast : Nat := 512 * 2 ^ 40 / 100
/-- A domain that stays LOCKED while the other is selected (R169 rule 4) is modelled from now on: its offset moves by what the counter's
frequency changed. -/
def leafModelled (l : Leaf) (f : Int) (d : Nat) : Leaf :=
  if domLocked l d then setLeafDom l d { leafDom l d with integ := -f, freq := -f } else l
/-- The switch to domain d (R169, R170). `free` says whether the leaf was FREE, `cause` the detail of the interrupt. -/
def leafSwitch (l : Leaf) (d : Nat) (free : Bool) (cause : Nat) : Leaf :=
  let x := leafDom l d
  let r := thetaAt l.time.pod x
  let i := l.tsel.held + x.freq
  let fast := free && decide (65536000 < r.natAbs)
  let l0 := if l.tsel.sel = 2 - d then leafModelled l x.freq (1 - d) else l
  let l1 := setLeafDom l0 d { x with integ := i, freq := i }
  let l2 := { l1 with tsel := { l.tsel with sel := d + 1, resid := subUnits r, step := if fast then stepFast else stepSlow, held := i,
                                            lastResid := satS 32 (toPs r), switches := ctrInc l.tsel.switches } }
  leafRaise l2 { ev := .domainSwitch, index := d, detail := cause, vals := [l.tsel.sel, d + 1, ofSigned 64 r] }
/-- The counter moves by `k` (R54): every estimate and every stamp held moves with it. -/
def leafMoved (k : Int) (l : Leaf) : Leaf :=
  { l with domW := loopMoved k l.domW, domB := loopMoved k l.domB, port0 := portMoved k l.port0, port1 := portMoved k l.port1 }
/-- Domain d sets the counter at the first lock (R54, R168, R169): pod time, step count, frequency; and it is selected. -/
def leafFirstSet (l : Leaf) (d : Nat) : Leaf :=
  let x := leafDom l d
  let pod := ((l.time.pod : Int) - thetaAt l.time.pod x).toNat
  let l1 := leafTime { leafMoved ((pod : Int) - l.time.pod) l with
      tsel := { l.tsel with sel := d + 1, resid := 0, held := x.freq, setEdge := some l.time.edges } }
    (fun t => let r := firstLock t pod x.srcCount; ({ r.1 with rate := rateOf x.freq }, r.2))
  setLeafDom l1 d { leafDom l1 d with integ := x.freq }
/-- A domain that is now LOCKED while the leaf was FREE (R54, R168, R172): the first lock sets the counter; later it is selected by a switch,
or is TIME_LOST beyond 2 ms. -/
def leafLockFree (l : Leaf) (d : Nat) : Leaf :=
  let x := leafDom l d
  if !l.time.valid then leafFirstSet l d
  else if 2000000 * 65536 < (thetaAt l.time.pod x).natAbs then
    leafEv (leafEv (setLeafDom l d (domFault domTimeLost x)) .timeLost d domTimeLost) .domainFaulted d domTimeLost
  else
    let cause := if l.tsel.sel = 0 then 0 else (leafDom l (l.tsel.sel - 1)).cause
    leafSwitch l d true cause
/-- A domain is newly LOCKED (R54, R168). Wheat sets the counter too when Barley has set it on the same edge, that of one block release. -/
def leafLocked (l : Leaf) (was d : Nat) : Leaf :=
  if was = 0 then leafLockFree l d
  else if d = 0 ∧ l.tsel.sel = 2 ∧ l.tsel.setEdge = some l.time.edges then leafFirstSet l 0
  else l
/-- Selection after a domain changed (R169 rules 3 and 5). `was` is the overall state before. -/
def leafSelect (l : Leaf) (was : Nat) : Leaf :=
  let s := l.tsel.sel
  if overall l = 0 then
    if 0 < was then leafEv l .timeFree (s - 1) (if s = 0 then 0 else (leafDom l (s - 1)).cause) else l
  else if s ≠ 0 ∧ ¬ domLocked l (s - 1) ∧ domLocked l (2 - s) then leafSwitch l (2 - s) false (leafDom l (s - 1)).cause
  else l
/-- What follows from a change of the domains since `old` (R162, R169): a selected domain that has left LOCKED leaves the counter on its held I,
and the selection is made anew. -/
def leafDomains (old l : Leaf) : Leaf :=
  let s := l.tsel.sel
  let l1 := if s ≠ 0 ∧ domLocked old (s - 1) ∧ ¬ domLocked l (s - 1) then leafTime l (fun t => ({ t with rate := rateOf l.tsel.held }, [])) else l
  leafSelect l1 (overall old)
/-- A domain coasts since `old` (R165): the event, and what follows. -/
def leafCoasted (old l : Leaf) (d cause : Nat) : Leaf := leafDomains old (leafEv l .domainCoasting d cause)
/-- A beat of domain d has been heard (R165, R184): its source's state is kept, and a free source takes a LOCKED domain to COASTING. -/
def leafHeard (l : Leaf) (d st : Nat) : Leaf :=
  let r := srcHeard l.time.edges st (leafDom l d)
  match r.2 with
  | some c => leafCoasted l (setLeafDom l d r.1) d c
  | none => setLeafDom l d r.1
/-- Both domains compared after a release of the selected one (R173). -/
def leafApart (l : Leaf) (d : Nat) : Leaf :=
  if l.tsel.sel ≠ d + 1 then l
  else if overall l = 2 then
    let diff := (l.domW.theta - l.domB.theta).natAbs
    if 65536000 < diff then
      let n := satN 16 (l.tsel.apartRun + 1)
      let l1 := { l with tsel := { l.tsel with apartRun := n } }
      if n = 16 ∧ l.tsel.apartRun < 16 then leafEv { l1 with tsel := { l1.tsel with apart := true } } .domainsApart d (leafDom l d).cause else l1
    else { l with tsel := { l.tsel with apartRun := 0 } }
  else { l with tsel := { l.tsel with apartRun := 0 } }
/-- Remove one block's worth of the residual (R170). -/
def residNext (r : Int) (step : Nat) : Int := r - r.sign * (min r.natAbs step : Nat)
/-- Does domain d steer the counter: selected, and LOCKED (R160, R167)? -/
def leafSteers (l : Leaf) (d : Nat) : Bool := decide (l.tsel.sel = d + 1) && domLocked l d
/-- A block of domain d is released (R138, R158 to R173). -/
def leafBlockRelease (l : Leaf) (d : Nat) : Leaf :=
  let p := leafPort l d
  let r := blockRelease true p
  let steer := leafSteers l d
  let b := domBlock loopLeaf steer (Int.fdiv l.tsel.resid (2 ^ 24)) l.time.edges l.time.applied r.1 p (leafDom l d)
  let l0 := setLeafDom (setLeafPort l d r.2) d b.1
  -- a higher count of the source makes the leaf apply the step at once (R58, R159)
  let l1 := if r.1 = .released then leafTime l0 (fun t => hearCount t p.beat.waitCount) else l0
  match b.2 with
  | .none => leafApart l1 d
  | .coasted c => leafCoasted l l1 d c
  | .used _ e =>
    if steer then
      let l2 := leafTime l1 (fun t => ({ t with rate := rateOf (loopY loopLeaf b.1.gear b.1.integ e) }, []))
      leafApart { l2 with tsel := { l2.tsel with resid := residNext l2.tsel.resid l2.tsel.step, held := b.1.integ } } d
    else leafApart l1 d
  | .locked _ => leafLocked (leafEv l1 .domainLocked d b.1.cause) (overall l) d
/-- The domain to which rule 4 may lead (R169): the other one, LOCKED at 0b000, while the selected domain's source sends 0b001, and neither
rule 4 has acted within 10 s nor the domains are apart (R173). -/
def leafRule4To (l : Leaf) : Option Nat :=
  let s := l.tsel.sel
  let recent := match l.tsel.rule4At with | some t => decide (l.time.edges < t + 10 * edgesPerSec) | none => false
  if s ≠ 0 && domLocked l (s - 1) && domLocked l (2 - s) && decide ((leafDom l (s - 1)).srcState = 1) && decide ((leafDom l (2 - s)).srcState = 0) &&
     !recent && decide (l.tsel.apartRun < 16) then some (2 - s) else none
/-- Rule 4 (R169): the selected source has sent 0b001 for 1 s. -/
def leafRule4 (l : Leaf) : Leaf :=
  match leafRule4To l, (leafDom l (l.tsel.sel - 1)).oneSince with
  | some b, some t =>
    if l.time.edges < t + edgesPerSec then l
    else
      let l1 := leafSwitch l b false 0
      { l1 with tsel := { l1.tsel with rule4At := some l.time.edges } }
  | _, _ => l
/-- Domain d follows its link (R167), with the events and the selection that follow. -/
def leafLinkChanged (l : Leaf) (d : Nat) : Leaf :=
  let r := domLink (leafPort l d) (leafDom l d)
  let l1 := setLeafDom l d r.1
  let l2 := match r.2.2 with | some c => leafEv l1 .domainFaulted d c | none => l1
  match r.2.1 with
  | some c => leafCoasted l l2 d c
  | none => leafDomains l l2
/-- The leaf's FPA in domain d (R29, R30): the one it learned in training while the link is UP, else none. -/
def leafFpa (l : Leaf) (d : Nat) : Leaf :=
  let a := if (leafPort l d).state = .up then (leafPort l d).far.fpa else 0xFFFFFFFF
  if d = 0 then { l with fpaW := a } else { l with fpaB := a }
/-- TDC n of the leaf. -/
def leafTdc (l : Leaf) (n : Nat) : Tdc := tabGet {} l.tdcs n
/-- Replace TDC n. -/
def setLeafTdc (l : Leaf) (n : Nat) (t : Tdc) : Leaf := { l with tdcs := tabSet {} l.tdcs n t }
/-- Port d sets the mode of its TDC (R105, R118): interval while a burst of its own is timed, else stamps, armed while the link carries beats. -/
def leafOwnTdc (d : Nat) (l : Leaf) : Leaf :=
  let p := leafPort l d
  setLeafTdc l d (tdcOwner (!p.cal.echoOn) (!p.cal.echoOn && decide (p.state = .calibrating ∨ p.state = .up)) (leafTdc l d))
/-- Is a generation at the leaf unresolved: neither launched by a held word nor failed (R245)? -/
def genOpen (g : SlotGen) : Bool := g.heldW.isNone && g.heldB.isNone
/-- The granules a generation resends when a link returns (R235): token and payload. -/
def resendGen (l : Leaf) (d : Nat) (g : SlotGen) : Leaf := leafSend (leafSolo l d 1 g.token) d 1 g.payload
/-- When the link of domain d is UP again, every unresolved generation's token and payload go out on it (R235). -/
def leafResend (l : Leaf) (d : Nat) : Leaf :=
  (List.range 32).foldl (fun a s =>
    let x := leafSlot a s
    if slotBound x d then (x.gens.filter (fun g => g.arrived && genOpen g)).foldl (fun b g => resendGen b d g) a else a) l
/-- What a change of port d's state brings about: the domain, the FPA, on training that wiring may be reported again (R24), on UP the resends,
and the end of a running test with the last link (R420). -/
def leafPortChanged (d : Nat) (l : Leaf) : Leaf :=
  let l2 := leafFpa (leafLinkChanged l d) d
  let l3 := if (leafPort l2 d).state = .training then { l2 with sharedMods := [] } else l2
  if (leafPort l3 d).state = .up then leafResend l3 d
  else if (leafPort l3 0).state ≠ .up ∧ (leafPort l3 1).state ≠ .up ∧ l3.tests.active then
    { l3 with tests := { l3.tests with active := false, itemRuns := false, aborts := l3.tests.aborts + 1 } }
  else l3
/-- Run a port operation at port d: the events, the TDC's mode, and what a change of its state brings about; a port that is DOWN and loses its
last light changes its domain too (R167). -/
def leafPortDo (d : Nat) (f : Port → Evd Port) (l : Leaf) : Leaf :=
  let p := leafPort l d
  let l0 := leafOnPort l d f
  let l1 := leafOwnTdc d (setLeafPort l0 d (portMark l.time.edges p (leafPort l0 d)))
  let q := leafPort l1 d
  if p.state ≠ q.state then leafPortChanged d l1
  else if q.state = .down ∧ p.trn.light ≠ 0 ∧ q.trn.light = 0 then leafLinkChanged l1 d
  else l1

end Sys2Proof.Machine
end

