-- ==== Sys2Proof/Machine/LeafLink.lean ====
section
/-! DEFINITION. A leaf's links (chapter The Skellet Link, R24, R30, R472 to R483): violations and their effect on ports, identity, ancestry,
keys, time messages, calibration, and the TDCs. -/
namespace Sys2Proof.Machine

/-! ### Violations (R479 to R483) -/
/-- The blocks not yet released are discarded at ERASE (R483). -/
def portErase (p : Port) : Port :=
  if p.beat.waitAny then { p with blockDrop := ctrInc p.blockDrop, beat := { p.beat with waitAny := false, waitBeats := [], waitPairs := [] },
                                  key := { p.key with rekeying := false, newKey := none, switchAt := none } }
  else { p with key := { p.key with rekeying := false, newKey := none, switchAt := none } }
/-- A port after ERASE (R482): held FAULTED with KEY_FAILED, or trained again open. -/
def portKeyless (open_ : Bool) (ix : Nat) (p : Port) : Evd Port :=
  if open_ then (portTrain p.trn.light (portErase p), []) else portFault ix causeKey (portErase p)
/-- A violation at the leaf: what `violate` does, its interrupts, a cancelled `ARM`, and the ports at ERASE. -/
def leafViolate (src : Nat) (l : Leaf) : Leaf :=
  let r := violate src l.sec
  let evs := if l.sec.histEn.testBit (src - 1) then r.evs else r.evs.filter (fun e => decide (e.ev ≠ .secViolation))
  let l1 := leafRaiseAll { l with sec := blowSince l.time.clock l.sec r.sec, start := if 0 < r.level then { l.start with armed := none } else l.start } evs
  if r.level = 2 then
    leafPortDo 1 (portKeyless l.sec.policyOpen 1) (leafPortDo 0 (portKeyless l.sec.policyOpen 0) l1)
  else l1
/-- Several violations of one source. -/
def leafViolates (src : Nat) : Nat → Leaf → Leaf
  | 0, l => l
  | n + 1, l => leafViolates src n (leafViolate src l)

/-! ### Identity and keys -/
/-- The leaf's end of the key exchange on port d: it is always the lower end. -/
def leafKeyCtx (l : Leaf) (d : Nat) : KeyCtx :=
  { upper := false, ownSerial := l.serial, port := bitsOf (leafPort l d).far.fpa 18 11, adm := if d = 0 then l.sec.admW else l.sec.admB,
    fabric := none, policyOpen := l.sec.policyOpen || decide (l.start.phase = 4),
    keyless := decide (l.start.phase = 4) || (l.sec.keyless && l.sec.policyOpen) }
/-- The leaf's own `IDENT` (R139). -/
def leafIdentMsg (l : Leaf) (d : Nat) : Gran :=
  lay [⟨0, 8, 2⟩, ⟨8, 64, l.serial⟩, ⟨72, 2, 0⟩, ⟨74, 1, d⟩, ⟨75, 32, if d = 0 then l.fpaW else l.fpaB⟩, ⟨107, 8, l.version⟩,
       ⟨115, 4, l.start.semVersion⟩]
/-- The leaf's `LINK_PARAMS` (R131, R139). -/
def leafParamsMsg (l : Leaf) (d : Nat) : Gran :=
  lay [⟨0, 8, 4⟩, ⟨8, 16, (leafPort l d).cal.loopNear⟩, ⟨24, 16, bufSize 0⟩, ⟨40, 16, bufSize 0⟩, ⟨56, 16, bufSize 0⟩,
       ⟨72, 1, b2n (leafPort l d).fallback⟩]
/-- An `IDENT` from the barn (R29, R31, R475): the leaf learns its FPA, answers with its own, and opens the key exchange. On a link that runs it tells
a new position of the same barn. -/
def leafIdent (d : Nat) (g : Gran) (l : Leaf) : Leaf :=
  let p := leafPort l d
  let f := identFar g p.far
  if p.state ≠ .training then
    if ctrlLive p && p.far.known && decide (f.serial = p.far.serial) then leafFpa (setLeafPort l d { p with far := f }) d else l
  else
    let fresh := !p.far.known
    let p1 := { p with far := f }
    let p2 := if fresh then portCtrl (leafParamsMsg l d) (portCtrl (leafIdentMsg l d) p1) else p1
    let l1 := setLeafPort l d p2
    let l2 := if fresh then
        { setLeafPort l1 d (keyHello (leafKeyCtx l1 d) (Config.free .nonce l.free) (leafPort l1 d)) with free := l.free + 1 }
      else l1
    leafPortDo d (fun q => (portCalibrate q, [])) l2
/-- `ANCESTRY` (R24): the comparison with the other path. Each shared serial is reported once, and the alarm that names it and the two FPAs, as
the leaf has learned them in training, stands until reset. -/
def leafAncestry (d : Nat) (g : Gran) (l : Leaf) : Leaf :=
  let n := gf g 201 200
  let mods := ([gf g 71 8, gf g 135 72, gf g 199 136].take (1 + n))
  let p := leafPort l d
  let l1 := setLeafPort l d { p with trn := { p.trn with ancestry := mods, ancestryIn := true } }
  let o := (leafPort l1 (1 - d)).trn
  if o.ancestryIn then
    let shared := mods.filter (fun m => o.ancestry.contains m && !l.sharedMods.contains m)
    let new := shared.dedup.map (fun m => ({ module_ := m, fpaW := l.port0.far.fpa, fpaB := l.port1.far.fpa } : WiringAlarm))
    leafRaiseAll { l1 with sharedMods := l.sharedMods ++ shared.dedup, wiring := l.wiring ++ new }
      (new.map (fun a => ({ ev := .wiringSharedModule, index := d, detail := 0, vals := [a.module_, a.fpaW, a.fpaB] } : EvRec)))
  else l1
/-- Light on a receive lane-end of a DOWN port (R149): training starts. -/
def leafLight (d lane power : Nat) (l : Leaf) : Leaf :=
  leafPortDo d (fun q =>
    let p := portLit lane power q
    if p.state = .down then (portTrain (p.trn.light ||| 2 ^ (lane % 2)) p, [])
    else ({ p with trn := { p.trn with light := p.trn.light ||| 2 ^ (lane % 2) } }, [])) l
/-- Training again (R31, R149): after 50 ms, or from FAULTED. A port condemned, without its TDC (R121), or
without keys under DEGRADE_CLOSED, stays FAULTED. -/
def leafRetrain (d : Nat) (from_ : LinkState) (l : Leaf) : Leaf :=
  let p := leafPort l d
  let held := isDisabled l.history (unitPath 2 0x23 d) || isDisabled l.history (unitPath 2 0x0A d) || (l.sec.keyless && !l.sec.policyOpen && decide (l.start.phase ≠ 4)) || decide (p.cause = causeTdc)
  if p.state = from_ ∧ !(from_ = .faulted ∧ held) then
    let l1 := leafPortDo d (fun q => (portTrain q.trn.light q, [])) { l with sharedMods := [] }
    setLeafPort l1 d { leafPort l1 d with since := l1.time.edges }
  else l

/-! ### Data, beats, time messages -/
/-- A received granule's outcome reaches the code counters (R379). -/
def codeCount (o : CodeOutcome) (c : CodeRegs) : CodeRegs :=
  match o with
  | .clean => c
  | .corrected _ _ => { c with corrected := ctrInc c.corrected }
  | .misdirected => { c with misdirected := ctrInc c.misdirected }
  | .poisoned => { c with poisonSeen := ctrInc c.poisonSeen }
  | .poisonedCorrected _ _ => { c with poisonSeen := ctrInc c.poisonSeen, corrected := ctrInc c.corrected }
  | .uncorrectable => { c with uncorrectable := ctrInc c.uncorrectable }
/-- A TDC of the leaf leaves service (R115, R120, R417), once: a port's takes its domain FAULTED, and the port with it. -/
def leafTdcGone (n : Nat) (l : Leaf) : Leaf :=
  if (leafTdc l n).outOfService then l
  else
    let l1 := setLeafTdc l n (tdcFaulted (leafTdc l n))
    if n < 2 then
      let l2 := leafEv (setLeafDom l1 n (domFault domTdcFault (leafDom l1 n))) .domainFaulted n domTdcFault
      leafPortDo n (portFault n causeTdc) (leafDomains l1 l2)
    else l1
/-- A unit of the leaf is condemned (R417): a tap fires no more; a TDC leaves service, and that of a port takes its domain FAULTED (R120); a port is
held FAULTED, and its domain goes FAULTED with the cause of R120; other kinds are reported only. -/
def leafCondemn (path : Nat) (l : Leaf) : Leaf :=
  let ix := bitsOf path 51 40
  if bitsOf path 63 52 = 0x221 then onTap ix tapFail l
  else if bitsOf path 63 52 = 0x222 ∧ ix < 4 then leafTdcGone ix l
  else if (bitsOf path 63 52 = 0x223 ∨ bitsOf path 63 52 = 0x20A) ∧ ix < 2 then
    let l1 := leafEv (setLeafDom l ix (domFault domTdcFault (leafDom l ix))) .domainFaulted ix domTdcFault
    leafPortDo ix (portFault ix causeLos) (leafDomains l l1)
  else l
/-- Enter an error in the leaf's history (R414, R415); one that makes its unit PERMANENT condemns it at once (R417). -/
def leafError (path op : Nat) (l : Leaf) : Leaf :=
  let r := histEnter 512 path op (leafNs l) l.history
  let l1 := leafRaiseAll { l with history := r.1 } r.2.1
  if r.2.2 = 3 then leafCondemn path l1 else l1
/-- What a frame's granule came to reaches the code counters (R374, R379). -/
def codeSeen (parity : Bool) (o : Option CodeOutcome) (c : CodeRegs) : CodeRegs :=
  match o with
  | none => c
  | some .uncorrectable => let c1 := codeCount .uncorrectable c; if parity then { c1 with parityErr := ctrInc c1.parityErr } else c1
  | some x => codeCount x c
/-- A frame arrives (R124 to R133), with the code counters and an overflowing bucket's history entry (R376). -/
def leafFrame (d : Nat) (line : BitVec 320) (l : Leaf) : Leaf :=
  let p := leafPort l d
  let o := (frameIn d line p).2
  let full := decide (p.bucket.level = 32) && (match o with | some x => codeFeeds x | none => false)
  let l1 := leafPortDo d (fun q => (frameIn d line q).1) { l with code := codeSeen (linkParity p) o l.code }
  if full then leafError (unitPath 2 0x23 d) opBucket l1 else l1
/-- What a beat carries of the leaf (R136, R175): locked in some domain, coasting, or free. -/
def leafBeatCtx (l : Leaf) (d : Nat) : BeatCtx :=
  { pod := l.time.pod, domain := d, srcState := if !l.time.valid then 2 else if 0 < overall l then 0 else 1, stepCount := l.time.stepCount }
/-- The stamp of a beat whose leading edge port d's TDC samples now (R107, R137): none while the TDC times a burst, is within its dead time, or is
not locked. -/
def leafStamp (d : Nat) (e : EdgeIn) (l : Leaf) : Leaf × Option Nat :=
  let t := leafTdc l d
  if !t.stampMode then (l, none)
  else
    let t1 := tdcStop d l.time e t
    (setLeafTdc l d t1, if tdcYields l.time e t && t1.result.valid then some (t1.result.value - t.dStop) else none)
/-- A beat from above (R137, R138, R159), whose leading edge the port TDC samples now; a higher step count in it is heard (R58), and so is its
source's state (R165). -/
def leafBeatIn (d : Nat) (g : Gran) (ok : Bool) (e : EdgeIn) (l : Leaf) : Leaf :=
  let r := leafStamp d e l
  let l1 := leafPortDo d (fun p => (beatIn false g ok r.2 l.time.stepCount p, [])) r.1
  if ok && decide ((leafPort l d).state = .calibrating ∨ (leafPort l d).state = .up) then
    leafHeard (leafTime l1 (fun t => hearCount t (BitVec.ofNat 16 (gf g 111 96)))) d (gf g 83 81)
  else l1
/-- Count a tag failure of port d in its second (R479): does it exceed the limit? -/
def tagRate (now limit : Nat) (p : Port) : Port × Bool :=
  let s := now / nsSec
  let n := if p.beat.tagFailSec = s then p.beat.tagFails + 1 else 1
  ({ p with beat := { p.beat with tagFailSec := s, tagFails := n } }, decide (n = limit + 1))
/-- The release instant at the leaf, with the tag-rate source (R138, R479). -/
def leafRelease (d : Nat) (l : Leaf) : Leaf :=
  let f := blockFate true (leafPort l d)
  let l1 := leafBlockRelease l d
  if f = .tagFailed then
    let r := tagRate (leafNs l1) l1.sec.tagFailLimit (leafPort l1 d)
    let l2 := setLeafPort l1 d r.1
    if r.2 then leafViolate 7 l2 else l2
  else l1
/-- `TIME_INFO` (R139): epoch base, UTC offset and its validity, leap seconds. The UTC offset is taken while no step count has been applied
beyond the message's. -/
def timeInfo (g : Gran) (t : TimeCore) : TimeCore :=
  { t with epochBase := gf g 71 8, utcOffset := if serHigher t.stepCount (BitVec.ofNat 16 (gf g 168 153)) && t.valid then t.utcOffset else gsf g 135 72,
           leap := BitVec.ofNat 16 (gf g 151 136), utcValid := gbit g 152 }
/-- The mapping a `TIME_INFO` gives of its domain (R139, R177). -/
def timeMapOf (g : Gran) : TimeMap := { epochBase := gf g 71 8, utcOffset := gsf g 135 72, leap := BitVec.ofNat 16 (gf g 151 136), utcValid := gbit g 152 }
/-- A `TIME_INFO` at the leaf (R139): the unit's own mapping, and that of the domain. -/
def leafTimeInfo (d : Nat) (g : Gran) (l : Leaf) : Leaf :=
  let l1 := { l with time := timeInfo g l.time }
  if d = 0 then { l1 with mapW := timeMapOf g } else { l1 with mapB := timeMapOf g }
/-- The notice a `STEP_NOTICE` carries (R139). -/
def noticeOf (src : Nat) (g : Gran) : Notice :=
  { target := if gbit g 152 then .utc else .podTime, at_ := gf g 71 8, delta := gsf g 135 72, count := BitVec.ofNat 16 (gf g 151 136), src := src }
/-- A `STEP_RELAY` packet for an applied notice (R591). -/
def relayGran (n : Notice) : Gran :=
  lay [⟨0, 8, 0x58⟩, ⟨8, 64, n.at_⟩, ⟨72, 64, ofSigned 64 n.delta⟩, ⟨136, 16, n.count.toNat⟩, ⟨152, 1, match n.target with | .podTime => 0 | .utc => 1⟩]
/-- The whole-second check (R591): to each LOCKED domain whose source's count is lower, every kept notice above that count. -/
def leafRelayCheck (l : Leaf) : Leaf :=
  [0, 1].foldl (fun a d =>
    let x := leafDom a d
    if x.state = .locked ∧ serHigher a.time.stepCount x.srcCount then
      (a.time.applied.reverse.filter (fun n => serHigher n.count x.srcCount)).foldl (fun b n => leafSolo b d 3 (relayGran n)) a
    else a) l

/-- Does the leaf hold an estimate of a domain that a report may rest on (R177): `LOCKED`, or `ACQUIRING` with 16 usable blocks? -/
def lineFit (x : DomLoop) : Bool := decide (x.state = .locked) || (decide (x.state = .acquiring) && x.seeded)
/-- The data of a leaf's `TIME_LINE` report on port d (R177): the subject is the other domain. -/
def leafLine (l : Leaf) (d : Nat) : Gran :=
  let x := leafDom l d
  let y := leafDom l (1 - d)
  let m := if d = 0 then l.mapB else l.mapW
  let off := thetaAt l.time.pod x - thetaAt l.time.pod y
  lay [⟨0, 8, 0x54⟩, ⟨8, 1, b2n (decide (y.srcState ≠ 2))⟩, ⟨10, 1, b2n (decide (x.state = .locked ∧ y.state = .locked))⟩, ⟨11, 1, b2n m.utcValid⟩,
       ⟨12, 19, 1⟩, ⟨32, 64, ofSigned 64 off⟩, ⟨96, 64, m.epochBase⟩, ⟨160, 64, ofSigned 64 m.utcOffset⟩, ⟨224, 16, m.leap.toNat⟩,
       ⟨240, 16, y.srcCount.toNat⟩]
/-- At a whole second of its counter the leaf reports, on each port, the other domain as it sees it against the port's own (R177). -/
def leafLineSend (l : Leaf) : Leaf :=
  [0, 1].foldl (fun a d => if lineFit (leafDom a d) && lineFit (leafDom a (1 - d)) then leafSolo a d 3 (leafLine a d) else a) l

/-! ### Calibration -/
/-- The stored `FIBRE_DELAY` of a port (R462): A, B. -/
def storedDelay (s : Startup) (port : Nat) : Option (Nat × Nat) :=
  (s.user.find? (fun e => decide (e.typ = 3 ∧ e.key = port))).map (fun e => (bf e.data 0 8, bf e.data 8 8))
/-- The first filtered delay of a port since start against the stored one (R463). -/
def fibreChanged (ix : Nat) (p : Port) (s : Startup) : Startup × List EvRec :=
  if s.delaySeen.contains ix then (s, [])
  else
    let s1 := { s with delaySeen := ix :: s.delaySeen }
    match storedDelay s ix with
    | none => (s1, [])
    | some (a, b) =>
      let off := fun (x y : Nat) => decide (y + ps100 < x) || decide (x + ps100 < y)
      (s1, if (usesA p.mode && off p.delayA a) || (usesB p.mode && off p.delayB b) then [portEv .fibreChanged ix 0] else [])
/-- Does this leaf end time fibre A, or B (R145)? The lower end times the upward fibre: B, or the one fibre of a single mode. -/
def lowTimesA (m : LinkMode) : Bool := decide (m = .singleA)
def lowTimesB (m : LinkMode) : Bool := decide (m ≠ .singleA)
/-- After a result the span is classified (R26, R147), the first delays are compared, and the link may come UP. -/
def leafCalAfter (d : Nat) (l0 : Leaf) : Leaf :=
  let l := leafPortDo d (classifySpan d 0) l0
  let l1 := if delaysIn (leafPort l d) then
      let r := fibreChanged d (leafPort l d) l.start
      leafRaiseAll { l with start := r.1 } r.2
    else l
  leafPortDo d (calJudge d) l1
/-- The leaf's burst returns: its edge is sampled now, and the interval since the burst's start is the echo (R106, R145, R147). DESIGN CHOICE
(assumption 75): a result that is not valid gives no delay and is no missed burst. -/
def leafEcho (d : Nat) (e : EdgeIn) (l : Leaf) : Leaf :=
  let p := leafPort l d
  let t := leafTdc l d
  if !p.cal.echoOn then l
  else
    let t1 := tdcStop d l.time e t
    let l1 := setLeafTdc l d t1
    if !tdcYields l.time e t then l1
    else if !t1.result.valid then leafPortDo d (fun q => ({ q with cal := { q.cal with echoOn := false } }, [])) l1
    else leafCalAfter d (leafPortDo d (echoDone d (lowTimesA p.mode) (echoDelay (intervalOf l.time t1) p.cal.tNear p.cal.rNear p.far.loopback)) l1)
/-- The far end's results arrive (R147). -/
def leafCalResult (d : Nat) (g : Gran) (l : Leaf) : Leaf :=
  let p := leafPort l d
  leafCalAfter d (leafPortDo d (calResultIn d (lowTimesA p.mode) (lowTimesB p.mode) g) l)
/-- `TURN_SCHED` (R145): the slot's beat, and whether CALIBRATING slots are meant. -/
def turnSched (g : Gran) (p : Port) : Port := { p with cal := { p.cal with slotBeat := gf g 71 8, slotOpen := true, calFast := gbit g 72 } }

/-! ### TDCs (R118 to R122) -/
/-- A start edge at TDC n (R111). -/
def leafTdcStart (n : Nat) (e : EdgeIn) (l : Leaf) : Leaf := setLeafTdc l n (tdcStart l.time e (leafTdc l n))
/-- A stop edge at TDC n (R111). -/
def leafTdcStop (n : Nat) (e : EdgeIn) (l : Leaf) : Leaf := setLeafTdc l n (tdcStop n l.time e (leafTdc l n))
/-- A TDC of the leaf is faulted (R115, R120): it is reported and entered in history; a port's TDC takes its domain FAULTED. -/
def leafTdcFault (n : Nat) (l : Leaf) : Leaf :=
  leafError (unitPath 2 0x22 n) opTdc (leafTdcGone n (leafEv l .tdcFault n 0))
/-- An interpolator loses lock (R115). -/
def leafTdcLost (n : Nat) (start : Bool) (l : Leaf) : Leaf :=
  let r := tdcLost l.time start (leafTdc l n)
  let l1 := setLeafTdc l n r.1
  if r.2 then leafTdcFault n l1 else l1
/-- Not locked 100 µs after start (R115). -/
def leafTdcTimeout (n : Nat) (l : Leaf) : Leaf :=
  let t := leafTdc l n
  if (t.lockStart && t.lockStop) || t.fault then l else leafTdcFault n l
/-- A histogram completes (R116). -/
def leafHistogram (n : Nat) (start : Bool) (hist : List Nat) (l : Leaf) : Leaf :=
  let r := tdcHistogram (isSuspect l.history (unitPath 2 0x22 n)) start hist (leafTdc l n)
  let l1 := setLeafTdc l n r.1
  if r.2 then leafEv l1 .tdcLinSuspect n 0 else l1

end Sys2Proof.Machine
end

