-- ==== Sys2Proof/Machine/RefOps.lean ====
section
/-! DEFINITION. References, selection and switches, a mill's settling and steering, the OCXO and holdover (R175 to R210), over a channel's
clock. Phases and offsets are in 1/65,536 ns, frequencies of references in parts of 10^12, loop frequencies in parts of 10^18. -/
namespace Sys2Proof.Machine

/-- What an operation on the clock brings about: events, notices to issue down the tree, UTC-offset changes to pass to the follower, and
user-block entries that fall due. -/
structure ClockOut where
  clk  : ChanClock
  evs  : List EvRec := []
  down : List Notice := []
  pass : List Notice := []
  due  : List CalEntry := []
  deriving DecidableEq, Repr
/-- Nothing but a new clock. -/
def coIs (c : ChanClock) : ClockOut := { clk := c }
/-- A new clock and events. -/
def coEv (es : List EvRec) (c : ChanClock) : ClockOut := { clk := c, evs := es }
/-- One operation after another. -/
def coThen (o : ClockOut) (f : ChanClock → ClockOut) : ClockOut :=
  let r := f o.clk
  { clk := r.clk, evs := o.evs ++ r.evs, down := o.down ++ r.down, pass := o.pass ++ r.pass, due := o.due ++ r.due }

/-- 1 s, 1 ms and 16 s in ns. -/
def secNs : Nat := 1000000000
def msNs : Nat := 1000000
/-- 1 s in 1/65,536 ns. -/
def secUnits : Int := 65536 * 1000000000
/-- ps in 1/65,536 ns, rounding down. -/
def psSigned (x : Int) : Int := Int.fdiv (x * 65536) 1000

/-- Reference r, and its replacement. -/
def refAt (c : ChanClock) (r : Nat) : Ref := tabGet {} c.refs r
def setRef (c : ChanClock) (r : Nat) (x : Ref) : ChanClock := { c with refs := tabSet {} c.refs r x }
/-- Is the unit a mill, and the hall's time follower (R177)? -/
def isMill (c : ChanClock) : Bool := decide (c.role = 3)
def isFollower (c : ChanClock) : Bool := isMill c && decide (c.domain = 1)
/-- Does the follower steer to the lead (R180)? -/
def tracksLead (c : ChanClock) : Bool := isFollower c && c.mill.settled && !c.mill.leadLost
/-- The part of S that a running slew has yet to absorb (R182). -/
def slewRest (t : TimeCore) : Int := Int.ofNat ((t.slews.map Prod.snd).sum / 2 ^ 24)
/-- A channel's view at a pod time (R182, R187): a mill subtracts S. -/
def viewAt (c : ChanClock) (pod : Nat) : Int :=
  Int.ofNat (c.time.epochBase * 65536) + Int.ofNat pod + c.time.utcOffset - (if isMill c then c.mill.sSum + slewRest c.time else 0)
/-- φ̄_r (R187): the mean of the phases kept; zero with none. -/
def phaseMean (x : Ref) : Int := if x.phases.isEmpty then 0 else Int.fdiv x.phases.sum x.phases.length
/-- Is a reference's pulse a 1PPS alone, so that its phases come from its pulses (R187)? A paired `EXT` has its phases from its 10 MHz edges. -/
def isPaired (r : Nat) (x : Ref) : Bool := decide (r < 2) && x.pair
/-- The channel's view moves by `d`: the phases kept are those against the view as it now is. DEDUCED (assumption 44): a change of view that
the channel itself makes is no phase jump of its references. -/
def shiftPhases (d : Int) (c : ChanClock) : ChanClock :=
  { c with refs := tabMap {} (fun _ (x : Ref) => { x with phases := x.phases.map (fun p => p - d) }) c.refs }
/-- The priority in use: a barn or yard treats every one as 0 (R189). -/
def prioOf (c : ChanClock) (r : Nat) : Nat := if isMill c then (refAt c r).priority else 0
/-- The TDC of a reference's pulse, and of its 10 MHz edge (R186). -/
def refTdc (r : Nat) : Nat := if r < 2 then 40 + r else if r = 2 then 44 else 45
def edgeTdc (r : Nat) : Nat := 42 + r
/-- TDC n of the channel, and its replacement. -/
def clkTdc (c : ChanClock) (n : Nat) : Tdc := tabGet {} c.tdcs n
def setClkTdc (c : ChanClock) (n : Nat) (t : Tdc) : ChanClock := { c with tdcs := tabSet {} c.tdcs n t }
/-- The TDC that serves the role of TDC n (R120): TDC 63 for the one it has taken over. -/
def roleTdc (c : ChanClock) (n : Nat) : Nat := if c.spareOf = some n then 63 else n
/-- A TDC that measures: in service, its stop interpolator locked. -/
def tdcServes (d : Tdc) : Bool := !d.outOfService && d.lockStop
/-- Does the role of TDC n have a TDC that measures? -/
def roleServes (c : ChanClock) (n : Nat) : Bool := tdcServes (clkTdc c (roleTdc c n))
/-- The owners of TDCs 40 to 62 set their modes (R105, R118): the references in use and the outputs in use stamp, TDC 62 times intervals. -/
def clkOwnTdcs (c : ChanClock) : ChanClock :=
  let set := fun (a : ChanClock) (n : Nat) (stamp arm : Bool) =>
    setClkTdc a (roleTdc a n) (tdcOwner stamp arm (clkTdc a (roleTdc a n)))
  let c1 := (List.range 4).foldl (fun a r =>
    let on := decide ((refAt a r).state ≠ .disabled)
    let b := set a (refTdc r) true on
    if r < 2 then set b (edgeTdc r) true on else b) c
  (List.range 16).foldl (fun a n => set a (46 + n) true (tabGet {} a.outs n).now.enable) (set c1 62 false false)
/-- A stop edge at the role of TDC n: the stamp referred to the pin, when it yields one (R105, R107, R111). -/
def clkStamp (n : Nat) (e : EdgeIn) (c : ChanClock) : Option Nat × ChanClock :=
  let k := roleTdc c n
  let d := clkTdc c k
  (if tdcYields c.time e d then some (stampOf c.time d d.dStop e.ones) else none, setClkTdc c k (tdcStop k c.time e d))
/-- The instant of an edge on the OCXO's own time, in 1/65,536 ns of it since reset (R192). -/
def ocxoOf (c : ChanClock) (n : Nat) (e : EdgeIn) : Nat :=
  let d := clkTdc c (roleTdc c n)
  c.time.edges * 51200 - residual d.tabStop (fineCode e.ones) - d.dStop
/-- The time-clock edge on which the OCXO's time has reached `t`. -/
def ocxoEdge (t : Nat) : Nat := (t + 51199) / 51200

/-! ### Source state and validity -/
/-- What the channel sends as `SRC_STATE` (R175). DEDUCED (assumption 40): a barn or yard whose pod time is valid and which is neither
LOCKED nor COASTING, as while it acquires again, sends 0b001. -/
def chanSrcState (c : ChanClock) : Nat :=
  if isMill c then
    if !c.mill.settled then 2 else if tracksLead c || c.sel.selected.isSome || c.sel.switch.isSome then 0 else 1
  else if !c.time.valid then 2
  else if c.loop.state = .locked && !(decide (c.role = 1) && decide (c.loop.srcState = 1)) then 0
  else 1

/-! ### Reference states and history -/
/-- The mill's loop on its references has no input: it holds I, and y is I (R162). A follower that tracks the lead has its input from there
(R180, R189). -/
def holdI (c : ChanClock) : ChanClock := if tracksLead c then c else { c with time := { c.time with rate := rateOf c.loop.integ } }
/-- Codes of R218. -/
def refStateCode : RefState → Nat
  | .disabled => 0
  | .monitoring => 1
  | .qualifying => 2
  | .qualified => 3
  | .selected => 4
  | .rejected => 5
/-- Rejection causes (R218). -/
def rcLos : Nat := 1
def rcFreq : Nat := 2
def rcJump : Nat := 3
def rcDisagree : Nat := 4
def rcTdc : Nat := 5
def rcRange : Nat := 6
def rcGnss : Nat := 7
def rcAnt : Nat := 8
/-- History bits (R197). -/
def hbLos : Nat := 0
def hbFreq : Nat := 1
def hbJump : Nat := 2
def hbDisagree : Nat := 3
def hbQual : Nat := 4
/-- Set a history bit (R197): the event is raised when it goes from 0 to 1 while enabled. -/
def refHist (r b : Nat) (c : ChanClock) : ClockOut :=
  let x := refAt c r
  if x.hist.testBit b then coIs c
  else coEv (if x.histEn.testBit b then [{ ev := .refHistory, index := r, vals := [r, b] }] else [])
    (setRef c r { x with hist := x.hist + 2 ^ b })
/-- Is the reference `QUALIFIED` or `SELECTED`? -/
def refGood (x : Ref) : Bool := decide (x.state = .qualified) || decide (x.state = .selected)
/-- A standing disagreement between two references ends (R203). -/
def unfreeze (p : Apart) (c : ChanClock) : ClockOut :=
  let left := c.sel.frozen.filter (fun q => decide (q.a ≠ p.a ∨ q.b ≠ p.b))
  let still := fun (r : Nat) => left.any (fun q => decide (q.a = r ∨ q.b = r))
  let c1 := setRef c p.a { refAt c p.a with disagree := still p.a }
  let c2 := setRef c1 p.b { refAt c1 p.b with disagree := still p.b }
  coEv [{ ev := .disagreeCleared, index := p.a, vals := [p.a, p.b] }] { c2 with sel := { c2.sel with frozen := left } }
/-- A reference no longer counts for any disagreement, standing or beginning (R203). -/
def leavePairs (r : Nat) (c : ChanClock) : ClockOut :=
  let c1 := { c with sel := { c.sel with differed := c.sel.differed.filter (fun q => decide (q.1 ≠ r ∧ q.2 ≠ r)) } }
  (c1.sel.frozen.filter (fun q => decide (q.a = r ∨ q.b = r))).foldl (fun o p => coThen o (unfreeze p)) (coIs c1)
/-- A reference enters a state (R196, R221): the event with the last cause; one that leaves `QUALIFIED` or `SELECTED` ends its
disagreements (R203). DESIGN CHOICE (assumption 41): one that qualifies anew after a rejection starts its mean phase again, since what it held
before no longer measures it. -/
def refTo (r : Nat) (st : RefState) (c : ChanClock) : ClockOut :=
  let x := refAt c r
  if x.state = st then coIs c
  else
    let y := { x with state := st, qualFrom := if st = .qualifying then c.time.edges else x.qualFrom,
                      wtrFrom := if st = .qualified then c.time.edges else x.wtrFrom,
                      phases := if x.state = .rejected then [] else x.phases, discards := if x.state = .rejected then 0 else x.discards }
    coThen (coEv [{ ev := .refState, index := r, vals := [r, refStateCode st, y.cause] }] (setRef c r y))
      (fun c1 => if refGood x && !refGood y then leavePairs r c1 else coIs c1)
/-- A reference is rejected (R196, R197). The mean of the phases kept stands, since a switch away from it needs it (R201), and so does the last
stamp, on which outputs run on (R213). DESIGN CHOICE (assumption 41): its windows start again with its next pulse. -/
def refReject (r cause : Nat) (bit : Option Nat) (c : ChanClock) : ClockOut :=
  let x := refAt c r
  if x.state = .disabled ∨ (x.state = .monitoring ∧ cause ≠ rcTdc ∧ cause ≠ rcAnt) then coIs c
  else
    let y := { x with cause := cause, impPulse := false, impEdge := false, misses := 0, edgeMisses := [], lastAt := none, edgeAt := none,
                      edgeMeas := none, stuck := x.stuck || decide (cause = rcTdc) }
    let o := coThen (coIs (setRef c r y)) (refTo r .rejected)
    match bit with
    | some b => coThen o (refHist r b)
    | none => o
/-- The qualification time starts again (R194, R195). -/
def requalify (r : Nat) (c : ChanClock) : ChanClock :=
  if (refAt c r).state = .qualifying then setRef c r { refAt c r with qualFrom := c.time.edges } else c
/-- Every history bit whose enable has just been set while it is 1 is raised (R197). -/
def refHistEnabled (r was : Nat) (c : ChanClock) : ClockOut :=
  let x := refAt c r
  coEv (((List.range 5).filter (fun b => x.hist.testBit b && x.histEn.testBit b && !was.testBit b)).map
    (fun b => ({ ev := .refHistory, index := r, vals := [r, b] } : EvRec))) c

/-! ### Holdover -/
/-- The residue bin of a temperature, 0.5 °C each from 0 °C to 48 °C (R206). -/
def tempBin (t : Int) : Option Nat := if 0 ≤ t ∧ t < 192 then some (t.toNat / 2) else none
/-- C_fac at a temperature. -/
def cFacAt (h : Hold) (t : Int) : Int := match tempBin t with | some b => h.cFac.getD b 0 | none => 0
/-- The mean residual of a bin against the line now fitted (R206). -/
def binMean (h : Hold) (e : TempBin) : Int :=
  Int.fdiv (e.sum - h.ageBase * Int.ofNat e.count - Int.fdiv (h.ageing * Int.ofNat e.time) (86400 * secNs)) (Int.ofNat e.count)
/-- C_learn at a temperature; zero in class H0 (R206, R207). -/
def cLearnAt (h : Hold) (t : Int) : Int :=
  match tempBin t with
  | some b => let e := tabGet {} h.bins b; if h.classH1 && decide (0 < e.count) then binMean h e else 0
  | none => 0
/-- C(T) (R206). -/
def cAt (h : Hold) (t : Int) : Int := cFacAt h t + cLearnAt h t
/-- The ageing slope in use, parts of 10^18 per day (R207). -/
def ageingOf (h : Hold) : Int := if h.classH1 then h.ageing else h.aFac
/-- The OCXO's own error as the holdover model predicts it (R193, R205): from the entry state in holdover, else from the ageing line and the
temperature curve. -/
def modelY (c : ChanClock) : Int :=
  match c.hold.entered with
  | some t => c.hold.iEntry + Int.fdiv (ageingOf c.hold * Int.ofNat (c.time.clock - t)) (86400 * secNs) + cAt c.hold c.hold.ambient -
      cAt c.hold c.hold.tEntry
  | none => (if c.hold.classH1 then c.hold.ageBase else c.hold.fFac) + Int.fdiv (ageingOf c.hold * Int.ofNat c.time.ns) (86400 * secNs) +
      cAt c.hold c.hold.ambient
/-- The mean of I over the updates on the edges from `a` up to `b`, excluded (R206, R208); none without an update there. -/
def meanI (h : Hold) (a b : Nat) : Option Int :=
  let l := h.recentI.filter (fun x => decide (a ≤ x.1) && decide (x.1 < b))
  if l.isEmpty then none else some (Int.fdiv (l.map Prod.snd).sum l.length)
/-- Keep I after an update of the loop (R206, R208): the last 17 s are enough. -/
def keepI (c : ChanClock) : ChanClock :=
  let now := c.time.edges
  { c with hold := { c.hold with recentI := (now, c.loop.integ) :: c.hold.recentI.filter (fun x => decide (now < x.1 + 17 * edgesPerSec)),
                                 lastInput := now, own := c.loop.integ } }
/-- Holdover begins (R208): I_e over the 16 s that end 1 s before the last valid input. DEDUCED (assumption 42): with no update of the loop in
those 16 s, I_e is the frequency the unit runs on. A follower that tracks the lead has an input and enters none (R180). -/
def holdEnter (c : ChanClock) : ClockOut :=
  if c.hold.entered.isSome || tracksLead c then coIs c
  else
    let b := c.hold.lastInput - edgesPerSec
    let i := (meanI c.hold (b - 16 * edgesPerSec) b).getD c.hold.own
    coEv [{ ev := .holdoverEnter }]
      { c with hold := { c.hold with entered := some c.time.clock, iEntry := i, tEntry := c.hold.ambient }, time := { c.time with rate := rateOf i } }
/-- Holdover ends. DESIGN CHOICE (assumption 42): the loop's I goes on from the y that holdover drove last. -/
def holdExit (c : ChanClock) : ClockOut :=
  if c.hold.entered.isSome then
    coEv [{ ev := .holdoverExit }] { c with hold := { c.hold with entered := none, own := modelY c }, loop := { c.loop with integ := modelY c } }
  else coIs c
/-- A holdover update (R208): y from the entry state, the ageing and the temperature drives the rate word. -/
def holdUpdate (c : ChanClock) : ChanClock :=
  if c.hold.entered.isSome then { c with time := { c.time with rate := rateOf (modelY c) } } else c
/-- Is the channel disciplined with `WARM` = 1 (R206)? -/
def disciplined (c : ChanClock) : Bool :=
  c.hold.warm && (if isMill c then (c.sel.selected.any (fun r => decide ((refAt c r).state = .selected))) && c.sel.switch.isNone
    else decide (c.loop.state = .locked))
/-- Is a bin learned (R206)? -/
def binLearned (h : Hold) (b : Nat) : Bool := decide (225 ≤ (tabGet {} h.bins b).count)
/-- The class (R207): 72 h of fit, and the current bin and its neighbours learned; never H1 without the factory entry (R460). -/
def holdClass (h : Hold) : Bool :=
  h.facOcxo && decide (72 ≤ h.spanH) &&
  match tempBin h.ambient with
  | some b => binLearned h b && (decide (b = 0) || binLearned h (b - 1)) && (decide (b = 95) || binLearned h (b + 1))
  | none => false
/-- A holdover state with the class that it gives. -/
def classed (h : Hold) : Hold := { h with classH1 := holdClass h }
/-- A learning sample (R206): the mean of I over the last 16 s. -/
def holdSample (c : ChanClock) : ChanClock :=
  if disciplined c then
    match meanI c.hold (c.time.edges + 1 - 16 * edgesPerSec) (c.time.edges + 1) with
    | none => c
    | some i =>
      let bins := match tempBin c.hold.ambient with
        | some b => tabUpd {} c.hold.bins b (fun (e : TempBin) =>
            { sum := e.sum + i - cFacAt c.hold c.hold.ambient, time := e.time + c.time.ns, count := e.count + 1 })
        | none => c.hold.bins
      let week := 7 * 86400 * secNs
      let keep := ((c.time.ns, c.hold.ambient, i) :: c.hold.samples).filter (fun x => decide (c.time.ns < x.1 + week))
      { c with hold := classed { c.hold with bins := bins, samples := keep } }
  else c
/-- The least-squares line through (ns, value): slope per day, value at pod time 0 (R206). -/
def dayLine (l : List (Nat × Int)) : Int × Int :=
  let n : Int := l.length
  let st := (l.map (fun x => Int.ofNat x.1)).sum
  let sy := (l.map Prod.snd).sum
  let stt := (l.map (fun x => Int.ofNat x.1 * Int.ofNat x.1)).sum
  let sty := (l.map (fun x => Int.ofNat x.1 * x.2)).sum
  let num := n * sty - st * sy
  let den := n * stt - st * st
  (Int.fdiv (num * (86400 * secNs)) den, Int.fdiv (sy * den - num * st) (n * den))
/-- The `HOLDOVER` entry (R462). DESIGN CHOICE (assumption 25): a in 8 bytes, the span in 8, the fitted line's value at pod time 0 in 8, then 96
bins of an 8-byte sum, a 16-byte sum of times and an 8-byte count. -/
def holdEntry (h : Hold) : CalEntry :=
  { typ := 2, key := 0, data := leBytes 8 (ofSigned 64 h.ageing) ++ leBytes 8 h.spanH ++ leBytes 8 (ofSigned 64 h.ageBase) ++
      (List.range 96).flatMap (fun b =>
        let e := tabGet {} h.bins b
        leBytes 8 (ofSigned 64 e.sum) ++ leBytes 16 e.time ++ leBytes 8 e.count) }
/-- The holdover state that a `HOLDOVER` entry gives at start (R206). -/
def holdLoad (b : Bytes) (h : Hold) : Hold :=
  let bins := (List.range 96).foldl (fun t i =>
    tabSet {} t i { sum := bfs b (24 + 32 * i) 8, time := bf b (32 + 32 * i) 16, count := bf b (48 + 32 * i) 8 }) []
  classed { h with ageing := bfs b 0 8, spanH := bf b 8 8, ageBase := bfs b 16 8, bins := bins }
/-- The hourly refit (R206, R207): the slope of Ī − C(T) over the samples; the learned values are due to be saved. -/
def holdRefit (c : ChanClock) : ClockOut :=
  let pts := c.hold.samples.map (fun x => (x.1, x.2.2 - cAt c.hold x.2.1))
  let h1 := if 2 ≤ pts.length then
      let f := dayLine pts
      let newest := (pts.map Prod.fst).foldl Nat.max 0
      let oldest := (pts.map Prod.fst).foldl Nat.min newest
      { c.hold with ageing := f.1, ageBase := f.2, spanH := (newest - oldest) / (3600 * secNs) }
    else c.hold
  { clk := { c with hold := classed h1 }, due := [holdEntry h1] }
/-- `WARM` sets or clears (R205). -/
def setWarm (w : Bool) (c : ChanClock) : ClockOut :=
  if c.hold.warm = w then coIs c
  else coEv [{ ev := if w then .warmSet else .warmCleared }] { c with hold := { c.hold with warm := w } }
/-- The sled ambient temperature (R206), with the class it gives. -/
def setAmbient (t : Int) (c : ChanClock) : ChanClock := { c with hold := classed { c.hold with ambient := t } }

/-! ### Selection (R198 to R203) -/
/-- May an `EXT` reference be used at a mill (R188)? One that depends on rule 3 is not eligible while no epoch base is held. -/
def extBacked (c : ChanClock) (r : Nat) : Bool := decide (2 ≤ r) || refGood (refAt c 2) || refGood (refAt c 3) || c.mill.epochHeld
/-- Is reference r eligible (R198)? -/
def eligible (c : ChanClock) (r : Nat) : Bool :=
  isMill c && refGood (refAt c r) && decide (1 ≤ (refAt c r).priority) && extBacked c r
/-- Is reference r better than s (R198)? Among equal priorities the selected one, then the lower index. -/
def better (c : ChanClock) (r s : Nat) : Bool :=
  decide ((refAt c r).priority < (refAt c s).priority) ||
  (decide ((refAt c r).priority = (refAt c s).priority) && decide (c.sel.selected ≠ some s) && (decide (c.sel.selected = some r) || decide (r < s)))
/-- The best eligible reference among some. -/
def bestOf (c : ChanClock) (l : List Nat) : Option Nat :=
  (l.filter (eligible c)).foldl (fun b r => match b with | none => some r | some s => if better c r s then some r else some s) none
/-- The best eligible reference other than the one being left. -/
def bestBut (c : ChanClock) (left : Option Nat) : Option Nat := bestOf c ((List.range 4).filter (fun r => decide (some r ≠ left)))
/-- 7 for none, as `FROM` and `TO` show it (R219). -/
def refCode (o : Option Nat) : Nat := o.getD 7
/-- May the loop use measurements of reference r (R200): `SELECTED`, unimpaired? -/
def refUsable (c : ChanClock) (r : Nat) : Bool := decide ((refAt c r).state = .selected) && !(refAt c r).impaired
/-- A switch starts (R200): it counts as having a reference, so holdover ends with it; with nothing to use of the one being left, the loop
holds I. -/
def switchStart (left : Option Nat) (target : Nat) (c : ChanClock) : ClockOut :=
  coThen (coThen (coEv [{ ev := .switchStart, index := target, vals := [refCode left, target] }]
    { c with sel := { c.sel with switch := some { from_ := left, target := target, start := c.time.edges } } }) holdExit)
    (fun c1 => coIs (if left.any (refUsable c1) then c1 else holdI c1))
/-- No reference is selected any more: holdover (R199). -/
def loseAll (c : ChanClock) : ClockOut := holdEnter { c with sel := { c.sel with selected := none, switch := none } }
/-- A first or unsettled selection (R196, R199): no switch. -/
def selectDirect (r : Nat) (c : ChanClock) : ClockOut :=
  coThen (refTo r .selected { c with sel := { c.sel with selected := some r }, loop := loopAcquire c.loop }) holdExit
/-- The first selection after the first configured start (R49): the epoch base is the reference's time at that instant less pod time,
rounded down; the fraction goes into the UTC offset. -/
def setEpoch (r : Nat) (c : ChanClock) : ChanClock :=
  let d := Int.ofNat c.time.pod
  let base := viewAt c c.time.pod + phaseMean (refAt c r) - d
  let t := { c.time with epochBase := (Int.fdiv base 65536).toNat, utcOffset := Int.fmod base 65536, utcValid := true }
  let c1 := { c with time := t, mill := { c.mill with epochHeld := true } }
  shiftPhases (viewAt c1 0 - viewAt c 0) c1
/-- The time-clock edge on which r's wait-to-restore ends (R198). -/
def wtrDue (c : ChanClock) (r : Nat) : Nat := (refAt c r).wtrFrom + c.wtrS * edgesPerSec
/-- The reference to revert to from `s` (R198, R200): the best of those better than it that have been `QUALIFIED` for their wait-to-restore. -/
def revertTo (c : ChanClock) (s : Nat) : Option Nat :=
  bestOf c ((List.range 4).filter (fun r => decide (r ≠ s) && better c r s && decide ((refAt c r).state = .qualified) &&
    decide (wtrDue c r ≤ c.time.edges)))
/-- A switch in progress is abandoned (R202), with what it reports. -/
def switchAbort (w : Switch) (c : ChanClock) : ClockOut :=
  coEv [{ ev := .switchAbort, index := w.target, vals := [refCode w.from_, w.target] }]
    { c with sel := { c.sel with switch := none, aborts := ctrInc c.sel.aborts } }
/-- Re-evaluate a switch before its commit point (R202). DEDUCED (assumption 43): when the target is lost and no other is eligible, a reference being
left that is only impaired stays `SELECTED`. -/
def evalSwitch (w : Switch) (c : ChanClock) : ClockOut :=
  let back := w.from_.any (fun f => refUsable c f && decide (bestOf c [0, 1, 2, 3] = some f))
  let lost := decide ((refAt c w.target).state ≠ .qualified)
  if back then switchAbort w c
  else
    match bestBut c w.from_ with
    | none =>
      if lost then
        if w.from_.any (fun f => decide ((refAt c f).state = .selected)) then switchAbort w c
        else coThen (switchAbort w c) loseAll
      else coIs c
    | some b =>
      if lost || (decide (b ≠ w.target) && better c b w.target) then
        switchStart w.from_ b { c with sel := { c.sel with aborts := ctrInc c.sel.aborts } }
      else coIs c
/-- Re-evaluate the selection after a monitor decision (R198 to R203). A standing disagreement keeps it as it is. -/
def evalSel (c : ChanClock) : ClockOut :=
  if !isMill c then coIs c
  else
    let frozen := !c.sel.frozen.isEmpty
    match c.sel.switch with
    | some w => if w.committed then coIs c else evalSwitch w c
    | none =>
      match c.sel.selected with
      | some s =>
        let gone := decide ((refAt c s).state ≠ .selected)
        if gone || (refAt c s).impaired then
          match (if frozen then none else bestBut c (some s)) with
          | some b => switchStart (some s) b c
          | none => if gone then loseAll c else coIs c
        else
          match (if frozen || !c.revertive then none else revertTo c s) with
          | some b => switchStart (some s) b c
          | none => coIs c
      | none =>
        match (if frozen then none else bestBut c none) with
        | none => coIs c
        | some b =>
          if c.mill.settled && c.mill.epochHeld then switchStart none b c
          else selectDirect b (if c.mill.epochHeld || tracksLead c then c else setEpoch b c)
/-- The next step count this mill gives out (R57): one above the highest it has given out or applied. -/
def nextCount (c : ChanClock) : BitVec 16 := (if serHigher c.mill.issued c.time.stepCount then c.mill.issued else c.time.stepCount) + 1
/-- Steps and slews this mill has applied enter S (R182). -/
def addS (before : List Notice) (c : ChanClock) : ChanClock :=
  let new := c.time.applied.filter (fun n => !before.contains n && decide (n.target = .podTime))
  { c with mill := { c.mill with sSum := c.mill.sSum + (new.map Notice.delta).sum } }
/-- Run a time-core operation on the channel's time core. -/
def clkTime (f : TimeCore → TimeCore × List EvRec) (c : ChanClock) : ClockOut :=
  let r := f c.time
  coEv r.2 (shiftPhases (r.1.utcOffset - c.time.utcOffset) (addS c.time.applied { c with time := r.1 }))
/-- A mill issues a notice: it holds it as every unit does, and it goes down its tree (R57, R181). -/
def issue (n : Notice) (c : ChanClock) : ClockOut :=
  let o := clkTime (takeNotice n) { c with mill := { c.mill with issued := n.count } }
  { o with down := o.down ++ [n] }
/-- The time-clock edge of the commit point of the switch in progress (R201): 1 s after its start. -/
def commitDue (c : ChanClock) : Option Nat := c.sel.switch.bind (fun w => if w.committed then none else some (w.start + edgesPerSec))
/-- Has the time-clock edge of a deadline come? -/
def dueNow (d : Option Nat) (c : ChanClock) : Bool := d.any (fun n => decide (n ≤ c.time.edges))
/-- The commit point (R201, R202): Δ is captured, and the change scheduled 100 ms on; a follower that tracks the lead, or steers under
`LEAD_LOST`, changes no UTC offset. -/
def switchCommit (c : ChanClock) : ClockOut :=
  match c.sel.switch with
  | none => coIs c
  | some w =>
    if !dueNow (commitDue c) c then coIs c
    else
      let o := evalSel c
      if o.clk.sel.switch ≠ some w then o
      else
        coThen o (fun c1 =>
          let old := match w.from_ with | some f => phaseMean (refAt c1 f) | none => 0
          let delta := phaseMean (refAt c1 w.target) - old
          let at_ := c1.time.ns + 100 * msNs
          let w1 : Switch := { w with committed := true, delta := delta, at_ := at_ }
          let c2 := holdI { c1 with sel := { c1.sel with switch := some w1, delta := delta, commits := ctrInc c1.sel.commits } }
          let e : EvRec := { ev := .switchCommit, index := w.target, vals := [refCode w.from_, w.target, ofSigned 64 delta, at_] }
          if isFollower c2 && c2.mill.settled then coEv [e] c2
          else
            let n : Notice := { target := .utc, at_ := at_, delta := delta, count := nextCount c2 }
            let r := coThen (coEv [e] c2) (issue n)
            if isFollower c2 then r else { r with pass := r.pass ++ [n] })
/-- T_s of a committed switch is reached (R201, R202): the target is `SELECTED`, the one left returns to `QUALIFIED`. -/
def switchFinish (c : ChanClock) : ClockOut :=
  match c.sel.switch with
  | none => coIs c
  | some w =>
    if w.committed && reached c.time w.at_ then
      let o := match w.from_ with
        | some f => if (refAt c f).state = .selected then refTo f .qualified c else coIs c
        | none => coIs c
      let lead := isFollower c && c.mill.leadLost
      coThen (coThen o (fun c1 => if (refAt c1 w.target).state = .qualified then refTo w.target .selected c1 else coIs c1)) (fun c1 =>
        let tgt := if lead then c1.sel.target + w.delta else c1.sel.target
        let c2 := { c1 with sel := { c1.sel with selected := some w.target, switch := none, target := tgt } }
        -- a target lost after the commit point is left again at once
        evalSel c2)
    else coIs c

/-! ### Monitors (R192 to R196) -/
/-- Accept and reject limits in parts of 10^12 (R194). -/
def freqAccept (c : ChanClock) : Int := if c.hold.warm then 2000 else 22000
def freqReject (c : ChanClock) : Int := if c.hold.warm then 10000 else 30000
/-- Is f_r within the accept limit? -/
def freqOk (c : ChanClock) (x : Ref) : Bool := decide (x.freq ≤ freqAccept c ∧ -freqAccept c ≤ x.freq)
/-- What arrives at a reference (R186 to R192): a pulse marking a whole second (in ns on the PTP timescale; an `EXT` pulse's second is found
under R188), a 10 MHz edge, a PTP Sync or Announce message of a PTP domain with the binary logarithm of its interval in seconds, the latter with the
announced leap seconds, or the receiver's message. -/
inductive RefIn where
  | pulse (e : EdgeIn) (second : Int)
  | edge (e : EdgeIn)
  | sync (domain : Nat) (log : Int)
  | announce (domain : Nat) (log : Int) (leap : BitVec 16)
  | receiver (sats errNs : Nat) (leapOk : Bool) (leap : BitVec 16) (feed : Nat)
  deriving DecidableEq, Repr
/-- How many edges of the time clock pass before it is sampled: a message is not sampled, and is taken at once. -/
def RefIn.after : RefIn → Nat
  | .pulse e _ => e.after
  | .edge e => e.after
  | .sync _ _ => 0
  | .announce _ _ _ => 0
  | .receiver _ _ _ _ _ => 0
/-- The loop constants of a reference (R186). -/
def refLoop (r : Nat) (x : Ref) : LoopK := if r = 3 then loopPtp else if isPaired r x then loopExt else loopGnss
/-- A mill's loop takes a phase error at a pod time (R160 to R163, R182). Its first input starts its acquisition. -/
def millLoop (k : LoopK) (e : Int) (now : Nat) (c : ChanClock) : ChanClock :=
  let b : BlockVal := { theta := e, rho := 0, sigma := 0, ref := now }
  let d0 := if c.loop.state = .acquiring then c.loop else { loopAcquire c.loop with integ := c.loop.integ }
  let d := loopBlock k true b e d0
  let d1 := { d with refAt := now, gearAt := if d.seeded && !d0.seeded then c.time.edges else d.gearAt }
  keepI { c with loop := d1, time := { c.time with rate := rateOf (if d0.seeded then loopY k d.gear d.integ e else d.integ) } }
/-- Does the loop take measurements of reference r now (R182, R200, R201)? A channel in QUARANTINE, which has no role, steers to PTP (R455). -/
def steersOn (c : ChanClock) (r : Nat) : Bool :=
  (decide (c.role = 0) && decide (r = 3)) || isMill c && decide (c.sel.selected = some r) && refUsable c r && !tracksLead c &&
  !(c.sel.switch.any Switch.committed)
/-- Does a monitor watch this reference: is it past `MONITORING` and not `REJECTED`? -/
def watched (x : Ref) : Bool := decide (x.state = .qualifying) || refGood x
/-- Would a switch to r take the UTC offset out of its range (R50, R195)? -/
def offsetBad (r : Nat) (c : ChanClock) : Bool :=
  let old := match c.sel.selected with | some s => phaseMean (refAt c s) | none => 0
  let v := c.time.utcOffset + (c.time.pendUtc.map Notice.delta).sum + phaseMean (refAt c r) - old
  !(decide (-(2 ^ 63) ≤ v) && decide (v < 2 ^ 63))
/-- A reference of a mill whose mean would take the UTC offset out of its range, if it were switched to, is rejected (R195). -/
def rangeCheck (r : Nat) (c : ChanClock) : ClockOut :=
  let s := (refAt c r).state
  if isMill c && c.mill.epochHeld && decide (s = .qualifying ∨ s = .qualified) && offsetBad r c then refReject r rcRange none c else coIs c
/-- A phase measurement (R187, R193): kept or discarded, and given to the loop. A reference that is not watched measures none. -/
def refPhase (r : Nat) (phi : Int) (now : Nat) (c : ChanClock) : ClockOut :=
  let x := refAt c r
  let far := !x.phases.isEmpty && !isPaired r x && decide ((phi - phaseMean x).natAbs > x.jumpNs * 65536)
  if !watched x then coIs c
  else if far then
    let o := coThen (coIs (requalify r (setRef c r { x with discards := x.discards + 1 }))) (refHist r hbJump)
    if 3 ≤ x.discards + 1 then coThen o (refReject r rcJump none) else o
  else
    let c1 := setRef c r { x with phases := (phi :: x.phases).take 16, discards := 0 }
    rangeCheck r (if steersOn c1 r then millLoop (refLoop r x) (c1.sel.target * b2n (isFollower c1) - phi) now c1 else c1)
/-- The first pulse, edge or message takes a reference out of `MONITORING` (R196). -/
def refWake (r : Nat) (c : ChanClock) : ClockOut := if (refAt c r).state = .monitoring then refTo r .qualifying c else coIs c
/-- A rejected reference that is active again and within the accept limit may qualify anew (R196); `GNSS` with its feed on and its time valid,
since it is rejected for either. -/
def refBack (r : Nat) (c : ChanClock) : ClockOut :=
  let x := refAt c r
  if decide (x.state = .rejected) && !x.stuck && freqOk c x && (decide (r ≠ 2) || (c.gnss.timeValid && !c.gnss.antShort))
  then refTo r .qualifying c else coIs c
/-- An on-time pulse or Sync: its impairment clears (R192), from which a qualification runs anew (R195). -/
def pulseActive (r : Nat) (c : ChanClock) : ClockOut :=
  let x := refAt c r
  let c1 := setRef c r { x with misses := 0, impPulse := false }
  coThen (refWake r (if x.impPulse then requalify r c1 else c1)) (refBack r)
/-- An on-time 10 MHz edge of a paired input, as `pulseActive`. DEDUCED (assumption 41): each monitor's impairment ends with its own input. -/
def edgeActive (r : Nat) (c : ChanClock) : ClockOut :=
  let x := refAt c r
  let c1 := setRef c r { x with impEdge := false }
  coThen (refWake r (if x.impEdge then requalify r c1 else c1)) (refBack r)
/-- The whole second an `EXT` pulse marks (R188). -/
def extSecond (c : ChanClock) (stamp : Nat) : Int :=
  let off := if refGood (refAt c 2) then phaseMean (refAt c 2) else if refGood (refAt c 3) then phaseMean (refAt c 3) else 0
  roundHalfEven (viewAt c stamp + off) (65536 * secNs) * secNs
/-- One second and 1 µs on the OCXO's time. -/
def ocxoSec : Nat := 65536 * secNs
def ocxoUs : Nat := 65536000
/-- Does a pulse fall in a window (R192): within ±1 µs of the last accepted pulse plus one or more whole seconds? -/
def inWindow (last now : Nat) : Bool :=
  let r := (now - last) % ocxoSec
  decide (last + ocxoSec ≤ now + ocxoUs) && (decide (r ≤ ocxoUs) || decide (ocxoSec ≤ r + ocxoUs))
/-- A pulse arrives at a reference (R187, R192, R193). -/
def refPulseIn (r : Nat) (e : EdgeIn) (second : Int) (c : ChanClock) : ClockOut :=
  let t := clkStamp (refTdc r) e c
  let now := ocxoOf c (refTdc r) e
  let x := refAt c r
  match t.1 with
  | none => coIs t.2
  | some s =>
    if r ≠ 3 && x.lastAt.any (fun l => !inWindow l now) then coIs t.2
    else
      let sec := if r < 2 then extSecond c s else second
      coThen ((if r = 3 then refWake 3 else pulseActive r) (setRef t.2 r { x with lastStamp := some s, lastAt := some now, second := sec })) (fun c1 =>
        if isPaired r x || (decide (r = 2) && !c1.gnss.timeValid) then coIs c1
        else refPhase r (sec * 65536 - psSigned x.cable - viewAt c1 s) s c1)
/-- A 10 MHz edge arrives (R186, R187, R192): activity, and of a paired input one edge per ms is measured, its count of 100 ns periods since the
pulse found on the OCXO's time. -/
def refEdgeIn (r : Nat) (e : EdgeIn) (c : ChanClock) : ClockOut :=
  let x := refAt c r
  let now := ocxoOf c (edgeTdc r) e
  if 2 ≤ r then coIs c
  else if !isPaired r x then coIs (setRef c r { x with edgeAt := some now })
  else
    coThen (edgeActive r (setRef c r { x with edgeAt := some now })) (fun c1 =>
      let due := x.edgeMeas.all (fun t => decide (t + ocxoSec / 1000 ≤ now))
      match x.lastAt with
      | none => coIs c1
      | some l =>
        if !due then coIs c1
        else
          let t := clkStamp (edgeTdc r) e c1
          match t.1 with
          | none => coIs t.2
          | some s =>
            let periods := roundHalfEven (Int.ofNat (now - l)) (65536 * 100)
            refPhase r ((x.second + 100 * periods) * 65536 - psSigned x.cable - viewAt c1 s) s
              (setRef t.2 r { refAt t.2 r with edgeMeas := some now }))
/-- A PTP message interval in time-clock edges. -/
def ptpEdges (log : Int) : Nat := if 0 ≤ log then edgesPerSec * 2 ^ log.toNat else edgesPerSec / 2 ^ log.natAbs
/-- A Sync message (R192). -/
def refSyncIn (log : Int) (c : ChanClock) : ClockOut :=
  pulseActive 3 (setRef c 3 { refAt c 3 with syncEvery := ptpEdges log, syncDue := some (c.time.edges + ptpEdges log) })
/-- An Announce message (R191, R192). PRESUMED (assumption 78): the announce receipt timeout is three announce intervals, IEEE 1588's default. -/
def refAnnounceIn (log : Int) (leap : BitVec 16) (c : ChanClock) : ClockOut :=
  let c1 := setRef c 3 { refAt c 3 with announceDue := some (c.time.edges + 3 * ptpEdges log) }
  refWake 3 (if isMill c && decide (c.sel.selected = some 3) && !tracksLead c then { c1 with time := { c1.time with leap := leap } } else c1)
/-- The receiver's time valid or not, from what it declares (R190): since when it is not valid is kept, and a qualification runs anew. -/
def gnssJudge (c : ChanClock) : ChanClock :=
  let g := c.gnss
  let ok := !g.surveying && decide (4 ≤ g.sats) && decide (g.timeErr ≤ 50) && g.leapOk && !g.feedOff
  let c1 := { c with gnss := { g with timeValid := ok, invalidAt := if ok then none else some (g.invalidAt.getD c.time.edges) } }
  if ok && g.timeValid then c1 else requalify 2 c1
/-- The receiver's message (R190). -/
def refReceiverIn (sats err : Nat) (leapOk : Bool) (leap : BitVec 16) (feed : Nat) (c : ChanClock) : ClockOut :=
  let c1 := gnssJudge { c with gnss := { c.gnss with sats := sats, timeErr := err, leapOk := leapOk, antMa := feed,
                                                     antOpen := c.gnss.antOpen && decide (feed < 20) } }
  refWake 2 (if isMill c1 && decide (c1.sel.selected = some 2) && c1.gnss.timeValid && !tracksLead c1
    then { c1 with time := { c1.time with leap := leap } } else c1)
/-- A pulse, edge or message arrives at a reference (R187 to R193, R196, R200, R202). -/
def refInput (r : Nat) (i : RefIn) (c : ChanClock) : ClockOut :=
  let x := refAt c r
  if x.state = .disabled || x.absent then coIs c
  else
    let o := match i with
      | .pulse e second => refPulseIn r e second c
      | .edge e => refEdgeIn r e c
      | .sync _ log => if r = 3 then refSyncIn log c else coIs c
      | .announce _ log leap => if r = 3 then refAnnounceIn log leap c else coIs c
      | .receiver sats err leapOk leap feed => if r = 2 then refReceiverIn sats err leapOk leap feed c else coIs c
    coThen o evalSel
/-- An impairment (R192): the loop no longer uses the reference, and a qualification runs anew. -/
def refImpair (r : Nat) (x : Ref) (c : ChanClock) : ChanClock :=
  let c1 := if steersOn c r then holdI c else c
  requalify r (setRef c1 r x)
/-- The time-clock edge on which the next 1PPS window closes (R192). -/
def windowDue (c : ChanClock) (r : Nat) : Option Nat :=
  let x := refAt c r
  if watched x && decide (r ≠ 3) then x.lastAt.map (fun l => ocxoEdge (l + (x.misses + 1) * ocxoSec + ocxoUs)) else none
/-- A 1PPS window closes empty (R192). -/
def refWindowMiss (r : Nat) (c : ChanClock) : ClockOut :=
  let x := refAt c r
  if !dueNow (windowDue c r) c then coIs c
  else
    let y := { x with misses := x.misses + 1, impPulse := true }
    coThen (if 2 ≤ y.misses then refReject r rcLos (some hbLos) (setRef c r y) else coIs (refImpair r y c)) evalSel
/-- The time-clock edge on which an edge of a 10 MHz input is missed (R192): 150 ns after the last. -/
def edgeDue (c : ChanClock) (r : Nat) : Option Nat :=
  if r < 2 then (refAt c r).edgeAt.map (fun t => ocxoEdge (t + 150 * 65536)) else none
/-- A 10 MHz input shows no edge within 150 ns (R186, R192). One that is not paired is only watched. -/
def refEdgeMiss (r : Nat) (c : ChanClock) : ClockOut :=
  let x := refAt c r
  if !dueNow (edgeDue c r) c then coIs c
  else
    let now := c.time.edges
    let l := now :: x.edgeMisses.filter (fun t => decide (now < t + edgesPerSec / 1000))
    let y := { x with edgeMisses := l, edgeAt := x.edgeAt.map (fun t => t + 100 * 65536), impEdge := watched x && isPaired r x }
    if !watched x || !isPaired r x then coIs (setRef c r y)
    else coThen (if 8 ≤ l.length then refReject r rcLos (some hbLos) (setRef c r y) else coIs (refImpair r y c)) evalSel
/-- The time-clock edge on which PTP's sync interval, and its announce receipt timeout, ends (R192). -/
def syncMissDue (c : ChanClock) : Option Nat := if watched (refAt c 3) then (refAt c 3).syncDue else none
def announceLostDue (c : ChanClock) : Option Nat := if watched (refAt c 3) then (refAt c 3).announceDue else none
/-- A sync interval without a Sync message (R192). -/
def ptpSyncMiss (c : ChanClock) : ClockOut :=
  let x := refAt c 3
  if !dueNow (syncMissDue c) c then coIs c
  else
    let y := { x with misses := x.misses + 1, syncDue := x.syncDue.map (fun d => d + x.syncEvery) }
    coThen (if 4 ≤ y.misses then refReject 3 rcLos (some hbLos) (setRef c 3 y)
      else if 2 ≤ y.misses then coIs (refImpair 3 { y with impPulse := true } c) else coIs (setRef c 3 y)) evalSel
/-- The announce receipt timeout expires (R192). -/
def ptpAnnounceTimeout (c : ChanClock) : ClockOut :=
  if dueNow (announceLostDue c) c then coThen (refReject 3 rcLos (some hbLos) c) evalSel else coIs c
/-- The time-clock edge by which the receiver must declare time valid (R192). -/
def gnssDue (c : ChanClock) : Option Nat := if watched (refAt c 2) then c.gnss.invalidAt.map (fun t => t + 2 * edgesPerSec) else none
/-- The receiver has not declared time valid for 2 s (R192, R197). -/
def gnssInvalid (c : ChanClock) : ClockOut :=
  if dueNow (gnssDue c) c then coThen (refReject 2 rcGnss (some hbLos) c) evalSel else coIs c
/-- The time-clock edge on which the self-survey, of 1 h, is complete (R190). -/
def surveyDue (c : ChanClock) : Option Nat := if c.gnss.surveying then some (c.gnss.surveyAt + 3600 * edgesPerSec) else none
/-- The self-survey completes (R190). -/
def gnssSurveyDone (c : ChanClock) : ChanClock :=
  if dueNow (surveyDue c) c then gnssJudge { c with gnss := { c.gnss with surveying := false } } else c
/-- Feed current below 2 mA for 1 s (R190). -/
def antOpen (c : ChanClock) : ClockOut :=
  if c.gnss.antOpen then coIs c else coEv [{ ev := .antOpen, index := 2, vals := [2] }] { c with gnss := { c.gnss with antOpen := true } }
/-- Feed current above 150 mA for 10 ms (R190, R197): the feed is switched off, and tried again after 10 s. -/
def antShort (c : ChanClock) : ClockOut :=
  let c1 := gnssJudge { c with gnss := { c.gnss with antShort := true, feedOff := true, feedAt := c.time.edges } }
  coThen (coThen (if c.gnss.antShort then coIs c1 else coEv [{ ev := .antShort, index := 2, vals := [2] }] c1)
    (fun c2 => if (refAt c2 2).state = .rejected then coIs c2 else refReject 2 rcAnt (some hbLos) c2)) evalSel
/-- The time-clock edge on which the shorted feed is tried again (R190). -/
def feedDue (c : ChanClock) : Option Nat := if c.gnss.feedOff then some (c.gnss.feedAt + 10 * edgesPerSec) else none
/-- The shorted feed is retried (R190): `feed` is its current in 0.1 mA. -/
def antRetry (feed : Nat) (c : ChanClock) : ChanClock :=
  if !dueNow (feedDue c) c then c
  else if 1500 < feed then { c with gnss := { c.gnss with antMa := feed, feedAt := c.time.edges } }
  else gnssJudge { c with gnss := { c.gnss with antMa := feed, antShort := false, feedOff := false } }
/-- How slowly a reference's frequency monitor gates (R193): 1 s, 16 pulses, 256 pulses. -/
def gateOf (r : Nat) (x : Ref) : Nat := if r = 3 then 256 else if isPaired r x then 1 else 16
/-- Is a result of r one of the slower-gated monitor of the pair r, s (R203)? DEDUCED (assumption 43): of two equal gates, the higher index. -/
def slower (c : ChanClock) (r s : Nat) : Bool :=
  let a := gateOf r (refAt c r)
  let b := gateOf s (refAt c s)
  decide (b < a) || (decide (a = b) && decide (s < r))
/-- A pair in ascending order. -/
def pairOf (r s : Nat) : Nat × Nat := if r < s then (r, s) else (s, r)
/-- r and s differ in two consecutive results (R203): with `WARM` and class `H1` the one further from the OCXO's estimate is rejected, else the
disagreement stands. -/
def disagreeNow (r s : Nat) (c : ChanClock) : ClockOut :=
  let p := pairOf r s
  let o := coThen (refHist p.1 hbDisagree c) (refHist p.2 hbDisagree)
  if c.hold.warm && c.hold.classH1 then
    coThen o (refReject (if (refAt c p.2).freq.natAbs < (refAt c p.1).freq.natAbs then p.1 else p.2) rcDisagree none)
  else if c.sel.frozen.any (fun q => decide (q.a = p.1 ∧ q.b = p.2)) then o
  else coThen o (fun c1 =>
    let c2 := setRef c1 p.1 { refAt c1 p.1 with disagree := true }
    let c3 := setRef c2 p.2 { refAt c2 p.2 with disagree := true }
    coEv [{ ev := .disagree, index := p.1, vals := [p.1, p.2] }] { c3 with sel := { c3.sel with frozen := c3.sel.frozen ++ [{ a := p.1, b := p.2 }] } })
/-- Compare r with s after a result of r (R203). -/
def comparePair (r s : Nat) (c : ChanClock) : ClockOut :=
  let x := refAt c r
  let y := refAt c s
  if s = r || !refGood x || !refGood y || prioOf c r ≠ prioOf c s || !slower c r s then coIs c
  else
    let p := pairOf r s
    if 4000 < (x.freq - y.freq).natAbs then
      if c.sel.differed.contains p then
        disagreeNow r s { c with sel := { c.sel with differed := c.sel.differed.filter (fun q => decide (q ≠ p)) } }
      else coIs { c with sel := { c.sel with differed := p :: c.sel.differed } }
    else coIs { c with sel := { c.sel with differed := c.sel.differed.filter (fun q => decide (q ≠ p)) } }
/-- Since when each standing pair agrees within 2 ppb, after a result (R203). -/
def agreeMark (c : ChanClock) : ChanClock :=
  { c with sel := { c.sel with frozen := c.sel.frozen.map (fun q =>
      { q with since := if (refAt c q.a).freq - (refAt c q.b).freq ≤ 2000 ∧ (refAt c q.b).freq - (refAt c q.a).freq ≤ 2000
                        then some (q.since.getD c.time.edges) else none }) } }
/-- A frequency result (R193, R194, R203): `m` is the input measured against the OCXO, from which the OCXO's own predicted error is
subtracted. -/
def freqResult (r : Nat) (m : Int) (c : ChanClock) : ClockOut :=
  let x := refAt c r
  if x.state = .disabled || x.absent then coIs c
  else
    let y := { x with freq := clampI (2 ^ 31 - 1) (m - Int.fdiv (modelY c) 1000000) }
    let c1 := agreeMark (setRef c r y)
    let o := if watched y && decide (freqReject c < (y.freq.natAbs : Int)) then refReject r rcFreq (some hbFreq) c1
      else if !freqOk c y then coIs (requalify r c1)
      else coIs c1
    coThen (coThen (coThen (coThen (coThen o (comparePair r 0)) (comparePair r 1)) (comparePair r 2)) (comparePair r 3)) evalSel
/-- The frequency of a 10 MHz input that is not paired (R186): watched, and part of no reference. -/
def edgeFreqResult (r : Nat) (m : Int) (c : ChanClock) : ChanClock :=
  let x := refAt c r
  if isPaired r x then c else setRef c r { x with edgeFreq := clampI (2 ^ 31 - 1) (m - Int.fdiv (modelY c) 1000000) }
/-- The pair that has agreed for longest, and the time-clock edge on which it has done so for 60 s (R203). -/
def agreeDue (c : ChanClock) : Option (Apart × Nat) :=
  (c.sel.frozen.filterMap (fun q => q.since.map (fun t => (q, t + 60 * edgesPerSec)))).foldl
    (fun b x => match b with | none => some x | some y => if x.2 < y.2 then some x else some y) none
/-- The references agree within 2 ppb for 60 s (R203). -/
def disagreeClear (c : ChanClock) : ClockOut :=
  match agreeDue c with
  | none => coIs c
  | some (p, n) => if n ≤ c.time.edges then coThen (unfreeze p c) evalSel else coIs c
/-- The time-clock edge on which r has qualified for 60 s (R195). -/
def qualDue (c : ChanClock) (r : Nat) : Option Nat :=
  if (refAt c r).state = .qualifying then some ((refAt c r).qualFrom + 60 * edgesPerSec) else none
/-- 60 s of clean activity (R195, R196, R199, R200). -/
def refQualified (r : Nat) (c : ChanClock) : ClockOut :=
  let x := refAt c r
  if dueNow (qualDue c r) c && !x.impaired && freqOk c x && (decide (r ≠ 2) || c.gnss.timeValid) then
    coThen (rangeCheck r c) (fun c1 =>
      if (refAt c1 r).state = .qualifying then coThen (coThen (refTo r .qualified c1) (refHist r hbQual)) evalSel else evalSel c1)
  else coIs c
/-- A wait-to-restore ends (R198, R200): the selection is made anew. -/
def wtrEnd (c : ChanClock) : ClockOut := evalSel c
/-- A reference's TDC is lost with no spare left (R120). -/
def refTdcLost (n : Nat) (c : ChanClock) : ClockOut :=
  match (List.range 4).find? (fun r => decide (refTdc r = n) || (isPaired r (refAt c r) && decide (edgeTdc r = n))) with
  | some r => coThen (refReject r rcTdc none c) evalSel
  | none => coIs c

/-! ### The hall's one time line (R177 to R182, R591) -/
/-- A `TIME_LINE` packet's data (R177). -/
def lineGran (settled subject grade utcValid : Bool) (count : Nat) (xoff : Int) (epoch : Nat) (utc : Int) (leap step : BitVec 16) : Gran :=
  lay [⟨0, 8, 0x54⟩, ⟨8, 1, b2n settled⟩, ⟨9, 1, b2n subject⟩, ⟨10, 1, b2n grade⟩, ⟨11, 1, b2n utcValid⟩, ⟨12, 19, count⟩,
    ⟨32, 64, ofSigned 64 xoff⟩, ⟨96, 64, epoch⟩, ⟨160, 64, ofSigned 64 utc⟩, ⟨224, 16, leap.toNat⟩, ⟨240, 16, step.toNat⟩]
/-- The fields of a `TIME_LINE` packet that came on a port, on a time-clock edge. -/
def lineOf (port edges : Nat) (g : Gran) : TimeLine :=
  { port := port, at_ := edges, settled := gbit g 8, subject := gbit g 9, grade := gbit g 10, utcValid := gbit g 11, count := gf g 30 12,
    xoff := gsf g 95 32, epoch := gf g 159 96, utc := gsf g 223 160, leap := gf g 239 224, step := BitVec.ofNat 16 (gf g 255 240) }
/-- A channel's report of its own time line (R177): a settled mill, or a barn or yard whose mill is settled. -/
def ownLine (c : ChanClock) : Gran :=
  lineGran (decide (chanSrcState c ≠ 2)) true (decide (c.loop.state = .locked)) c.time.utcValid 1 0 c.time.epochBase c.time.utcOffset c.time.leap
    c.time.stepCount
/-- The value of a field with the greatest total `COUNT` (R178). -/
def byCount {α : Type} [DecidableEq α] (f : TimeLine → α) (d : α) (l : List TimeLine) : α :=
  let w := fun (v : α) => ((l.filter (fun x => decide (f x = v))).map TimeLine.count).sum
  match l with
  | [] => d
  | x :: xs => xs.foldl (fun b y => if w b < w (f y) then f y else b) (f x)
/-- One report from those of a second (R178). -/
def combineLines (subject : Bool) (l : List TimeLine) : Option Gran :=
  let m := l.filter (fun x => decide (x.subject = subject))
  if m.isEmpty then none
  else some (lineGran (m.all TimeLine.settled) subject (m.all TimeLine.grade) (byCount TimeLine.utcValid false m)
    (satN (2 ^ 19 - 1) (m.map TimeLine.count).sum) (weightedMedian (m.map (fun x => (x.xoff, x.count)))) (byCount TimeLine.epoch 0 m)
    (byCount TimeLine.utc 0 m) (BitVec.ofNat 16 (byCount TimeLine.leap 0 m)) (byCount TimeLine.step 0#16 m))
/-- A mill takes the time line's mapping from a report (R179, R180). -/
def takeLine (x : TimeLine) (c : ChanClock) : ChanClock :=
  let t := { c.time with epochBase := x.epoch, utcOffset := x.utc, utcValid := x.utcValid, leap := BitVec.ofNat 16 x.leap }
  let c1 := { c with time := t, mill := { c.mill with epochHeld := c.mill.epochHeld || x.utcValid } }
  shiftPhases (viewAt c1 0 - viewAt c 0) c1
/-- A mill settles (R179): its pod time is valid from now on. A follower steers to the lead, whose loop acquires (R163, R180). -/
def settle (c : ChanClock) : ClockOut :=
  let c1 := { c with time := { c.time with valid := true },
                     mill := { c.mill with settled := true, kids := [], lastLead := c.time.edges } }
  let c2 := if isFollower c1 then { c1 with loop := { loopAcquire c1.loop with integ := c1.loop.integ } } else c1
  if c2.sel.selected.isNone then holdEnter c2 else coIs c2
/-- Move the counter of an unsettled mill by an amount of either sign (R179). -/
def moveCounter (d : Int) (c : ChanClock) : ChanClock :=
  shiftPhases d { c with time := { c.time with acc := satN accMax (Int.ofNat c.time.acc + d * 2 ^ 24).toNat } }
/-- May a mill use a report about its own domain (R178, R179): a child's own, or a combined one of at least three? -/
def kidReport (x : TimeLine) : Bool := x.subject && (decide (x.count = 1) || decide (3 ≤ x.count))
/-- Rule 1 (R179): settle on children's beats, once a child's own report is there. DESIGN CHOICE (assumption 45): where the children's reports
differ, the newest gives the epoch base, the UTC offset and the leap count. -/
def settleKids (c : ChanClock) : ClockOut :=
  if isMill c && !c.mill.settled && !c.mill.kids.isEmpty then
    match c.lines.find? kidReport with
    | none => coIs c
    | some x =>
      let m := weightedMedian (c.mill.kids.map (fun k => (k.2, 1)))
      settle (takeLine x (moveCounter (-m) c))
  else coIs c
/-- A child's offset at an unsettled mill (R179 rule 1): own counter less the child's. -/
def kidBlock (port : Nat) (src : Nat) (theta : Int) (c : ChanClock) : ClockOut :=
  if isMill c && !c.mill.settled && decide (src < 2) then
    settleKids { c with mill := { c.mill with kids := (port, theta) :: c.mill.kids.filter (fun k => decide (k.1 ≠ port)) } }
  else coIs c
/-- A follower's loop takes a usable report (R161, R180). DESIGN CHOICE (assumption 45): reports come from every yard, and the loop, whose T is
1 s, takes the first of each second. -/
def leadReport (x : TimeLine) (c : ChanClock) : ClockOut :=
  let back := c.mill.leadLost
  let c1 := takeLine x { c with mill := { c.mill with leadLost := false, lastLead := c.time.edges } }
  let sec := c.time.ns / secNs
  let o := if back then holdExit c1 else coIs c1
  if c.mill.lineSec = some sec then o
  else coThen o (fun c2 => coIs (millLoop loopFollower (-x.xoff) c2.time.pod { c2 with mill := { c2.mill with lineSec := some sec } }))
/-- A `TIME_LINE` report reaches a channel (R178 to R180): a barn or yard keeps those of this second until it combines them, a mill those of the
last 2 s. -/
def lineIn (port : Nat) (g : Gran) (c : ChanClock) : ClockOut :=
  let x := lineOf port c.time.edges g
  let keep := if isMill c then c.lines.filter (fun y => decide (c.time.edges < y.at_ + 2 * edgesPerSec)) else c.lines
  let c1 := { c with lines := x :: keep }
  if !isMill c1 then coIs c1
  else if !c1.mill.settled then
    if x.subject then settleKids c1
    else if x.settled && decide (3 ≤ x.count) then settle (takeLine x (moveCounter x.xoff c1))
    else coIs c1
  else if isFollower c1 && !x.subject && x.grade && decide (3 ≤ x.count) then leadReport x c1
  else coIs c1
/-- The combination of a barn or yard (R178): the reports to send upward, and the second's reports are done with. -/
def linesCombine (c : ChanClock) : ChanClock × List Gran :=
  if isMill c then (c, [])
  else ({ c with lines := [] }, (combineLines false c.lines).toList ++ (combineLines true c.lines).toList)
/-- The time-clock edge on which an unsettled mill has waited long enough (R179): 10 s at the lead, 60 s at the follower. -/
def settleDue (c : ChanClock) : Option Nat :=
  if isMill c && !c.mill.settled then some ((if isFollower c then 60 else 10) * edgesPerSec) else none
/-- Rule 3 (R179): the mill has waited. -/
def settleWait (c : ChanClock) : ClockOut :=
  if dueNow (settleDue c) c then
    let d := match c.sel.selected with
      | some r => if c.mill.epochHeld then phaseMean (refAt c r) else 0
      | none => 0
    settle (moveCounter d c)
  else coIs c
/-- The time-clock edge on which a follower has had no usable report for 10 s (R180). -/
def leadDue (c : ChanClock) : Option Nat := if tracksLead c then some (c.mill.lastLead + 10 * edgesPerSec) else none
/-- No usable report for 10 s (R180): the follower steers to its selected reference, the phase difference captured into the loop's target; with none,
it holds what it has learned. -/
def leadLost (c : ChanClock) : ClockOut :=
  if dueNow (leadDue c) c then
    let t := match c.sel.selected with | some r => phaseMean (refAt c r) | none => 0
    let c1 := { c with mill := { c.mill with leadLost := true }, sel := { c.sel with target := t } }
    coThen (coEv [{ ev := .leadLost }] c1) (fun c2 => if c2.sel.selected.any (refUsable c2) then coIs c2
      else if c2.sel.selected.isNone then holdEnter c2 else coIs (holdI c2))
  else coIs c
/-- A relay at a barn or yard (R591): is it forwarded? The first of each count is; more within 10 s are dropped. -/
def relayOnce (n : Notice) (c : ChanClock) : ChanClock × Bool :=
  let l := c.relayed.filter (fun x => decide (c.time.edges < x.at_ + 10 * edgesPerSec))
  if l.any (fun x => decide (x.count = n.count)) then ({ c with relayed := l }, false)
  else ({ c with relayed := { count := n.count, at_ := c.time.edges } :: l }, true)
/-- A relay at a mill (R58, R591): one whose count is not lower ignores it; else it applies the change and issues the notice. -/
def relayAtMill (n : Notice) (c : ChanClock) : ClockOut :=
  if serHigher n.count c.time.stepCount && !noticeKnown c.time n then issue n c else coIs c
/-- The checks of a `PHASE_STEP` at the lead (R55): the first that applies, as its place in the order; 0 for none. -/
def stepRefusal (strict : Bool) (n : Notice) (c : ChanClock) : Nat :=
  let v := c.time.utcOffset + (c.time.pendUtc.map Notice.delta).sum + n.delta
  match n.target with
  | .podTime =>
    if strict then 1
    else if n.delta = 0 || decide (0x000F42400000 < n.delta.natAbs) then 2
    else if n.at_ * 65536 < c.time.pod + 200000 * 65536 then 4
    else if c.time.pendPod.isSome || c.time.slewing then 5 else 0
  | .utc =>
    if !(decide (-(2 ^ 63) ≤ v) && decide (v < 2 ^ 63)) then 3
    else if n.at_ * 65536 < c.time.pod + 200000 * 65536 then 4
    else if !c.time.pendUtc.isEmpty then 5 else 0

/-! ### Words (R218, R219) -/
/-- 1/65,536 ns as saturating ps. -/
def satPs (x : Int) : Int := clampI (2 ^ 31 - 1) (toPs x)
/-- `REF_CFG_r`. -/
def refCfgWord (x : Ref) : Word :=
  layW [⟨0, 1, b2n x.enable⟩, ⟨1, 4, x.priority⟩, ⟨5, 1, b2n x.pair⟩, ⟨8, 32, ofSigned 32 x.cable⟩, ⟨40, 16, x.jumpNs⟩]
/-- Seconds left of an interval of `len` s that began on edge `t`, rounded up. -/
def secsLeft (now t len : Nat) : Nat := (t + len * edgesPerSec - now + edgesPerSec - 1) / edgesPerSec
/-- Is wait-to-restore running for r (R198)? -/
def wtrActive (c : ChanClock) (r : Nat) : Bool :=
  isMill c && c.revertive && decide ((refAt c r).state = .qualified) && eligible c r && c.sel.switch.isNone &&
  c.sel.selected.any (fun s => better c r s) && decide (c.time.edges < wtrDue c r)
/-- `REF_STATUS_r`. -/
def refStatusWord (c : ChanClock) (r : Nat) : Word :=
  let x := refAt c r
  layW [⟨0, 3, refStateCode x.state⟩, ⟨3, 1, b2n x.impaired⟩, ⟨4, 1, b2n x.disagree⟩, ⟨5, 1, b2n (wtrActive c r)⟩, ⟨8, 8, x.cause⟩,
    ⟨16, 6, if x.state = .qualifying then secsLeft c.time.edges x.qualFrom 60 else 0⟩,
    ⟨22, 12, if wtrActive c r then secsLeft c.time.edges x.wtrFrom c.wtrS else 0⟩]
/-- `REF_HIST_r`. -/
def refHistWord (x : Ref) : Word := layW [⟨0, 5, x.hist⟩, ⟨8, 5, x.histEn⟩]
/-- `REF_MEAS_r`. -/
def refMeasWord (x : Ref) : Word := layW [⟨0, 32, ofSigned 32 x.freq⟩, ⟨32, 32, ofSigned 32 (satPs (phaseMean x))⟩]
/-- `SEL_CFG`. -/
def selCfgWord (c : ChanClock) : Word := layW [⟨0, 1, b2n c.revertive⟩, ⟨1, 12, c.wtrS⟩]
/-- `SWITCH_STATUS`. DEDUCED (assumption 43): `HOLDOVER` is that of a mill (R199), which the reset value 0 agrees with. -/
def switchWord (c : ChanClock) : Word :=
  let f := match c.sel.switch with | some w => refCode w.from_ | none => 7
  let t := match c.sel.switch with | some w => w.target | none => refCode c.sel.selected
  layW [⟨0, 1, b2n c.sel.switch.isSome⟩, ⟨1, 1, b2n (c.sel.switch.any Switch.committed)⟩, ⟨2, 1, b2n (!c.sel.frozen.isEmpty)⟩,
    ⟨3, 1, b2n (isMill c && c.hold.entered.isSome)⟩, ⟨4, 3, f⟩, ⟨7, 3, t⟩]
/-- `HOLD_STATUS`. -/
def holdStatusWord (c : ChanClock) : Word :=
  let s := match c.hold.entered with | some t => satN (2 ^ 32 - 1) ((c.time.clock - t) / secNs) | none => 0
  layW [⟨0, 1, b2n c.hold.warm⟩, ⟨1, 1, b2n c.hold.classH1⟩, ⟨16, 16, ofSigned 16 c.hold.ambient⟩, ⟨32, 32, s⟩]
/-- `HOLD_MODEL`. -/
def holdModelWord (h : Hold) : Word :=
  layW [⟨0, 32, ofSigned 32 (clampI (2 ^ 31 - 1) (Int.fdiv (ageingOf h) 1000000))⟩, ⟨32, 16, satN 65535 h.spanH⟩,
    ⟨48, 7, ((List.range 96).filter (binLearned h)).length⟩]
/-- `GNSS_STATUS`. -/
def gnssWord (g : Gnss) : Word :=
  layW [⟨0, 1, b2n g.timeValid⟩, ⟨1, 1, b2n g.surveying⟩, ⟨2, 1, b2n g.antOpen⟩, ⟨3, 1, b2n g.antShort⟩, ⟨8, 8, satN 255 g.sats⟩,
    ⟨16, 16, satN 65535 g.antMa⟩, ⟨32, 16, satN 65535 g.timeErr⟩]
/-- The `TIME_STATE` entry of a mill (R462). -/
def timeStateEntry (c : ChanClock) : CalEntry :=
  { typ := 1, key := 0, data := leBytes 8 c.time.epochBase ++ leBytes 8 (ofSigned 64 c.time.utcOffset) ++
      leBytes 16 (ofSigned 128 c.mill.sSum) ++ leBytes 2 c.time.leap.toNat }

end Sys2Proof.Machine
end

