-- ==== Sys2Proof/Machine/OutOps.lean ====
section
/-! DEFINITION. The sixteen outputs of a channel (R211 to R217, R220). Instants are in ps of pod time. -/
namespace Sys2Proof.Machine

/-- Output n, and its replacement. -/
def outAt (c : ChanClock) (n : Nat) : Output := tabGet {} c.outs n
def setOut (c : ChanClock) (n : Nat) (o : Output) : ChanClock := { c with outs := tabSet {} c.outs n o }
/-- Take each field of `g` in turn into `o`, and leave out one that falls outside the ranges with what is there (R217). DESIGN CHOICE (assumption 46):
fields of one word are judged in the order of the table, each beside the ones before it. Second: how many were left out. -/
def outMerge (n : Nat) (g o : OutCfg) : OutCfg × Nat :=
  let fs : List (OutCfg → OutCfg) := [fun x => { x with enable := g.enable }, fun x => { x with src := g.src }, fun x => { x with squelch := g.squelch },
    fun x => { x with widthNs := g.widthNs }, fun x => { x with period := g.period }, fun x => { x with offset := g.offset }]
  fs.foldl (fun a f => let y := f a.1
                       if y = a.1 then a else if outCfgOk n y then (y, a.2) else (a.1, a.2 + 1)) (o, 0)
/-- A write of new fields (R217): a value outside its range leaves that field unchanged and is counted. -/
def outWrite (n : Nat) (g : OutCfg) (c : ChanClock) : ChanClock :=
  let o := outAt c n
  let r := outMerge n g o.cfg
  let o1 := { o with cfgBad := ctrAdd o.cfgBad r.2 }
  setOut c n (if r.1 = o.cfg then o1 else { o1 with cfg := r.1, changedAt := some c.time.ns })
/-- Pod time in ps. -/
def podPs (t : TimeCore) : Nat := t.pod * 1000 / 65536
/-- UTC less pod time, in ps (R50, R211). -/
def utcShift (t : TimeCore) : Int := Int.ofNat (t.epochBase * 1000) + toPs t.utcOffset - t.leap.toInt * 1000000000000
/-- The reference whose pulses an output follows (R213). -/
def outRef (g : OutCfg) : Option Nat := if g.src = 2 then some 0 else if g.src = 3 then some 1 else if g.src = 4 then some 2 else none
/-- One instant of the output on the pod-time scale, any other differing by whole periods (R211, R213): with `UTC_VALID` = 0, `SRC` 1 is as
`SRC` 0. None before a followed input has given a pulse. DESIGN CHOICE (assumption 47): a cable-corrected stamp is the stamp less `CABLE_PS`, the
instant at which the pulse entered the cable. -/
def outPhase (c : ChanClock) (g : OutCfg) : Option Int :=
  match outRef g with
  | some r => (refAt c r).lastStamp.map (fun s => Int.ofNat (s * 1000 / 65536) - (refAt c r).cable + g.offset)
  | none => some (if g.src = 1 && c.time.utcValid then g.offset - utcShift c.time else g.offset)
/-- The first instant above `x` ps of pod time. -/
def outNext (phase : Int) (period x : Nat) : Nat := x + period - (Int.emod (Int.ofNat x - phase) (Int.ofNat period)).toNat
/-- The number of instants in the interval [a, b). -/
def outCount (phase : Int) (period a b : Nat) : Nat :=
  if period = 0 || decide (b ≤ a) then 0
  else (Int.fdiv (Int.ofNat b - 1 - phase) (Int.ofNat period) - Int.fdiv (Int.ofNat a - 1 - phase) (Int.ofNat period)).toNat
/-- Does R215 let an output drive? -/
def outAllowed (c : ChanClock) (o : Output) : Bool :=
  c.time.valid &&
  (decide (o.now.squelch = 0) || (decide (o.now.squelch = 1) && decide (chanSrcState c < 2)) || decide (chanSrcState c = 0))
/-- May an output drive now (R215, R216)? -/
def outDrives (c : ChanClock) (o : Output) : Bool := o.now.enable && !o.shortNow && outAllowed c o
/-- The unit's own clock in ps, on which pulses keep their widths (R212). -/
def ownPs (t : TimeCore) : Nat := t.edges * 3125 / 4
/-- The next instant of output n, in ps of pod time (R211, R213): one since the last time-clock edge, or the first to come. -/
def outDue (n : Nat) (c : ChanClock) : Option Nat :=
  let o := outAt c n
  let p := outPeriod n o.now
  (outPhase c o.now).bind (fun ph => if p = 0 then none else some (outNext ph p (Nat.max o.instant (podPs c.time - 782))))
/-- Is the input that an output follows lost (R213): `REJECTED`, or without pulses? -/
def outLost (c : ChanClock) (o : Output) : Bool :=
  match outRef o.now with
  | some r => decide ((refAt c r).state = .rejected) || decide (0 < (refAt c r).misses) || (refAt c r).lastStamp.isNone
  | none => false
/-- A programmed instant is reached (R211 to R213, R215): the edge is driven, or not emitted during a pulse; an output that follows an input without
pulses reports it. -/
def outEdge (n : Nat) (c : ChanClock) : ClockOut :=
  let o := outAt c n
  let lost := outLost c o
  let tell := fun (d : Bool) => if lost && !o.srcLost && d then [({ ev := .outSrcLost, index := n, vals := [n] } : EvRec)] else []
  match outDue n c with
  | none => coEv (tell (o.now.enable && (outRef o.now).isSome)) (setOut c n { o with srcLost := lost })
  | some x =>
    if podPs c.time < x then coIs c
    else
      let own := ownPs c.time - (podPs c.time - x)
      let drives := outDrives c o
      let o1 := { o with instant := x, srcLost := lost }
      let o2 := if !drives then o1
        else if own < o.pulseEnd then { o1 with skipped := ctrInc o1.skipped }
        else { o1 with lastEdge := some x, pulseEnd := own + outWidth n o.now }
      coEv (tell drives) (setOut c n o2)
/-- A forward pod-time step skips an interval (R212): instants in it are not emitted, and each is counted. `a` and `b` are pod times in
1/65,536 ns; the scale is as it was before the step. -/
def outSkipOne (c : ChanClock) (a b : Nat) (n : Nat) (o : Output) : Output :=
  if outDrives c o && (outRef o.now).isNone then
    match outPhase c o.now with
    | some ph =>
      let k := outCount ph (outPeriod n o.now) (a * 1000 / 65536) (b * 1000 / 65536)
      { o with skipped := ctrAdd o.skipped k, instant := Nat.max o.instant (b * 1000 / 65536 - 1) }
    | none => o
  else o
/-- The skipped interval of a step, for every output. `c` is the clock before the step. -/
def outSkips (c : ChanClock) (a b : Nat) (c1 : ChanClock) : ChanClock :=
  if a < b then { c1 with outs := tabMap {} (outSkipOne c a b) c1.outs } else c1
/-- Does the monitor stamp this output (R118, R216): the role of TDC 46 + n served? -/
def outMonitored (c : ChanClock) (n : Nat) : Bool := !(outAt c n).unmonitored && roleServes c (46 + n)
/-- The monitor TDC stamps an edge (R216): a stamp more than 1 ns from its instant is a drift. -/
def outMonitor (n : Nat) (e : EdgeIn) (c : ChanClock) : ClockOut :=
  let o := outAt c n
  let t := if outMonitored c n then clkStamp (46 + n) e c else (none, c)
  match o.lastEdge, t.1 with
  | some x, some s =>
    let err := clampI (2 ^ 31 - 1) (toPs (Int.ofNat s) - Int.ofNat x)
    let o1 := { o with lastErr := err }
    if 1000 < err.natAbs then coEv [{ ev := .outputDrift, index := n, vals := [n] }] (setOut t.2 n { o1 with driftSeen := true })
    else coIs (setOut t.2 n o1)
  | _, _ => coIs t.2
/-- Current above the limit for 1 µs (R216): the driver is off. -/
def outShort (n : Nat) (c : ChanClock) : ClockOut :=
  let o := outAt c n
  coEv [{ ev := .outShort, index := n, vals := [n] }] (setOut c n { o with shortNow := true, shortSeen := true, shortAt := c.time.edges })
/-- The time-clock edge on which a shorted output is tried again (R216). -/
def shortDue (c : ChanClock) (n : Nat) : Option Nat := if (outAt c n).shortNow then some ((outAt c n).shortAt + edgesPerSec) else none
/-- A shorted output is retried (R216): is the short still there? -/
def outShortRetry (n : Nat) (still : Bool) (c : ChanClock) : ClockOut :=
  if dueNow (shortDue c n) c then (if still then outShort n c else coIs (setOut c n { outAt c n with shortNow := false })) else coIs c
/-- The voltage during a pulse (R216): `high` above 90 % of the unloaded swing. An open load is seen over 16 such pulses in a row, and is gone with the
first that is not. -/
def outOpen (n : Nat) (high : Bool) (c : ChanClock) : ClockOut :=
  let o := outAt c n
  if !high then coIs (setOut c n { o with openRun := 0, openNow := false })
  else if o.openRun + 1 < 16 ∨ o.openNow then coIs (setOut c n { o with openRun := satN 16 (o.openRun + 1) })
  else coEv [{ ev := .outOpen, index := n, vals := [n] }] (setOut c n { o with openRun := 16, openNow := true, openSeen := true })
/-- The pod time in ns at which a changed configuration takes effect (R217): the next whole second after the change. -/
def applyDue (c : ChanClock) (n : Nat) : Option Nat := (outAt c n).changedAt.map (fun t => (t / secNs + 1) * secNs)
/-- A changed configuration takes effect (R217): after the next whole second of pod time. -/
def outApply (n : Nat) (c : ChanClock) : ChanClock :=
  let o := outAt c n
  if (applyDue c n).any (fun t => reached c.time t) then
    let c1 := setOut c n { o with now := o.cfg, changedAt := none, instant := podPs c.time, openNow := o.openNow && o.cfg.enable }
    clkOwnTdcs c1
  else c
/-- An output loses its monitor with no spare left (R120). -/
def outUnmonitor (n : Nat) (c : ChanClock) : ClockOut :=
  coEv [{ ev := .outputUnmonitored, index := n, vals := [n] }] (setOut c n { outAt c n with unmonitored := true })
/-- `OUT_CFG_n`, `OUT_PERIOD_n`, `OUT_OFFSET_n`, `OUT_STATUS_n` (R220). -/
def outCfgWord (g : OutCfg) : Word := layW [⟨0, 1, b2n g.enable⟩, ⟨1, 3, g.src⟩, ⟨4, 2, g.squelch⟩, ⟨8, 30, g.widthNs⟩]
def outPeriodWord (g : OutCfg) : Word := layW [⟨0, 40, g.period⟩]
def outOffsetWord (g : OutCfg) : Word := layW [⟨0, 40, ofSigned 40 g.offset⟩]
def outStatusWord (c : ChanClock) (o : Output) : Word :=
  layW [⟨0, 1, b2n o.shortNow⟩, ⟨1, 1, b2n o.openNow⟩, ⟨2, 1, b2n o.shortSeen⟩, ⟨3, 1, b2n o.openSeen⟩, ⟨4, 1, b2n (o.now.enable && !outAllowed c o)⟩,
    ⟨5, 1, b2n o.srcLost⟩, ⟨6, 1, b2n o.unmonitored⟩, ⟨7, 1, b2n o.driftSeen⟩, ⟨8, 32, ofSigned 32 o.lastErr⟩]
/-- A reference's fields from its word of the image (R218, R450). A barn or yard keeps the priority it is given and treats it as 0 (R189). -/
def refOf (w : Nat) : Ref :=
  let e := w.testBit 0
  { enable := e, priority := bitsOf w 4 1, pair := w.testBit 5, cable := toSigned 32 (bitsOf w 39 8), jumpNs := bitsOf w 55 40,
    state := if e then .monitoring else .disabled }

end Sys2Proof.Machine
end

