-- ==== Sys2Proof/Machine/ResultOps.lean ====
section
/-! DEFINITION. What the apex forms from a reduced generation: the status granule (R281, R282), predicates (R246, R298, R299), chaff checks
with their FP64 state (R407 to R410), the result digest (R240), and the fire time (R237 to R239). -/
namespace Sys2Proof.Machine

/-! ### FP64 arithmetic in units of 2^-1074 (R409) -/
/-- Round num/den (den > 0), in units of 2^-1074, to FP64, ties to even. -/
def roundQ (num : Int) (den : Nat) : Rl :=
  let m := num.natAbs
  let q := m / den
  let k := if q < 2 ^ 53 then 0 else Nat.log2 q - 52
  let d := den * 2 ^ k
  let keep := m / d
  let rem := m % d
  let r := (if d < 2 * rem ∨ (2 * rem = d ∧ keep % 2 = 1) then keep + 1 else keep) * 2 ^ k
  if 2 ^ 2098 ≤ r then .inf (decide (num < 0)) else .fin (if num < 0 then -(r : Int) else r)
/-- A rounded sum. -/
def rlAdd (a b : Rl) : Rl :=
  match a, b with
  | .nan, _ => .nan
  | _, .nan => .nan
  | .inf s, .inf t => if s = t then .inf s else .nan
  | .inf s, _ => .inf s
  | _, .inf t => .inf t
  | .fin x, .fin y => roundQ (x + y) 1
/-- A negated value. -/
def rlNeg : Rl → Rl
  | .nan => .nan
  | .inf s => .inf (!s)
  | .fin x => .fin (-x)
/-- A magnitude. -/
def rlAbs : Rl → Rl
  | .nan => .nan
  | .inf _ => .inf false
  | .fin x => .fin x.natAbs
/-- A rounded product with num/den, both positive. -/
def rlScale (num den : Nat) : Rl → Rl
  | .nan => .nan
  | .inf s => .inf s
  | .fin x => roundQ (x * num) den
/-- The greater of two, with no rounding. -/
def rlMax (a b : Rl) : Rl := if rlLe a b = some true then b else a
/-- Exact |x − μ| > (k/256) × σ (R409); false when it involves a NaN. -/
def rlBeyond (x mu sg : Rl) (k : Nat) : Bool :=
  match x, mu, sg with
  | .fin a, .fin b, .fin s => decide ((k : Int) * s < 256 * ((a - b).natAbs : Int))
  | .inf s, .inf t, .fin _ => decide (s ≠ t)
  | .inf _, .fin _, .fin _ => true
  | .fin _, .inf _, .fin _ => true
  | _, _, _ => false

/-! ### Result lanes as values (R299, R409) -/
/-- A result lane of a group as an exact real. -/
def laneReal (g : Group) (bits : Nat) : Rl :=
  if fmtFloat g.fmt then
    fReal (floatFmt (match g.form with | 1 => 5 | 2 => 4 | _ => g.fmt)) bits
  else
    let w := resBits g.fmt g.form
    let v : Int := if fmtSigned g.fmt && decide (g.op ≠ 3) then toSigned w bits else bits
    .fin (v * 2 ^ 1074)
/-- A result lane converted to FP64 (R409). -/
def laneFp64 (g : Group) (bits : Nat) : Rl :=
  match laneReal g bits with
  | .fin v => roundQ v 1
  | x => x
/-- The constant a predicate compares a group's lane with (R299). -/
def constReal (g : Group) (c : Nat) : Rl :=
  if fmtFloat g.fmt then fp64Real c
  else .fin ((if fmtSigned g.fmt then toSigned 64 c else (c : Int)) * 2 ^ 1074)
/-- `EQ` to `GE` on reals; with a NaN only `NE` holds. -/
def cmpReal (cmp : Nat) (a b : Rl) : Bool :=
  match rlLe a b, rlLe b a with
  | some le, some ge =>
    (match cmp with
     | 0 => le && ge
     | 1 => !(le && ge)
     | 2 => !ge
     | 3 => le
     | 4 => !le
     | _ => ge)
  | _, _ => decide (cmp = 1)
/-- The comparisons on unsigned values (R298). -/
def cmpNat (cmp a b : Nat) : Bool :=
  match cmp with
  | 0 => decide (a = b)
  | 1 => decide (a ≠ b)
  | 2 => decide (a < b)
  | 3 => decide (a ≤ b)
  | 4 => decide (b < a)
  | 5 => decide (b ≤ a)
  | 6 => decide (Nat.land a b ≠ 0)
  | _ => decide (Nat.land a b = 0)

/-! ### The status granule (R281) -/
/-- The facts a generation gathers over its counted members (R272, R281). -/
structure Facts where
  contrib  : Nat := 0
  forced   : Nat := 0
  nans     : Nat := 0
  pinfs    : Nat := 0
  ninfs    : Nat := 0
  poisons  : Nat := 0
  memSum   : Nat := 0
  maxArrive : Nat := 0
  freqAll  : Bool := true
  unaligned : Bool := false
  level    : Nat := 0
  deriving DecidableEq, Repr
/-- Facts of two disjoint sets of members, together. -/
def factsAdd (a b : Facts) : Facts :=
  { contrib := a.contrib + b.contrib, forced := a.forced + b.forced, nans := a.nans + b.nans, pinfs := a.pinfs + b.pinfs,
    ninfs := a.ninfs + b.ninfs, poisons := a.poisons + b.poisons, memSum := (a.memSum + b.memSum) % 2 ^ 64,
    maxArrive := max a.maxArrive b.maxArrive, freqAll := a.freqAll && b.freqAll, unaligned := a.unaligned || b.unaligned,
    level := max a.level b.level }
/-- Members covered. -/
def covered (a : Facts) : Nat := a.contrib + a.forced
/-- The term of `MEMBER_SUM` of one member (R272). -/
def memberTerm (tag rank : Nat) : Nat := leNat ((sha256 (leBytes 4 tag ++ leBytes 4 rank)).take 8)
/-- A poisoned granule of one member's lane-table payload. -/
def poisonCount (n : Nat) (gs : List Granule) : Nat := ((gs.take n).filter Granule.poison).length
/-- The specials of a member's payload over the lane table. -/
def paySpecials (ks : List (Nat × Nat)) (gs : List Granule) : Nat × Nat × Nat :=
  (List.zipWith (fun (k : Nat × Nat) g => specials k.1 g) ks gs).foldl (fun a x => (a.1 + x.1, a.2.1 + x.2.1, a.2.2 + x.2.2)) (0, 0, 0)
/-- `MEMBER_DIGEST` (R281). -/
def memberDigest (prog : Gran) (gen : Nat) (f : Facts) : Nat :=
  leNat ((sha256 (granBytes prog ++ leBytes 8 gen ++ leBytes 8 f.memSum ++ leBytes 4 (covered f))).take 6)
/-- Result lanes that overflowed, and that are poisoned. -/
def ovfLanes (rs : List GroupRes) : Nat := (rs.map (fun r => (r.lanes.filter ResLane.ovf).length)).sum
def poisonLanes (rs : List GroupRes) : Nat := (rs.map (fun r => (r.lanes.filter ResLane.poison).length)).sum
/-- The status granule but for `BRANCH` and `PRED_TRUE` (R281). -/
def statusFields (prog : Gran) (gen : Nat) (f : Facts) (absent chaff : Nat) (rs : List GroupRes) : List Fld :=
  [⟨0, 32, f.nans⟩, ⟨32, 32, f.pinfs⟩, ⟨64, 32, f.ninfs⟩, ⟨96, 32, f.poisons⟩, ⟨128, 12, satN 4095 (ovfLanes rs)⟩,
   ⟨140, 12, satN 4095 (poisonLanes rs)⟩, ⟨152, 19, covered f⟩, ⟨171, 19, absent⟩, ⟨198, 8, chaff⟩,
   ⟨206, 1, b2n (decide (0 < absent))⟩, ⟨207, 1, 0⟩, ⟨208, 48, memberDigest prog gen f⟩]

/-! ### Chaff checks (R407 to R409) -/
/-- The kept state of one lane of a `RATE` entry (R409). -/
structure RateLane where
  mu   : Rl := .fin 0
  sg   : Rl := .fin 0
  n    : Nat := 0
  deriving DecidableEq, Repr
/-- The lanes in an entry's scope. -/
def scopeLanes (gs : List Group) (c : ChaffEnt) : List Nat :=
  if c.lane = 0xFFFF then List.range (match gs[c.group]? with | some g => groupLanes g | none => 0) else [c.lane]
/-- The `RATE` lanes in lane-table order: entry index, group, lane (R409). -/
def rateLanes (p : Bytes) : List (Nat × Nat × Nat) :=
  let gs := pgGroupList p
  let es := (pgChaffList p).zipIdx.filter (fun x => decide (x.1.kind = 2))
  (List.range gs.length).flatMap (fun gi =>
    (List.range (match gs[gi]? with | some g => groupLanes g | none => 0)).flatMap (fun ln =>
      (es.filter (fun x => decide (x.1.group = gi) && (scopeLanes gs x.1).contains ln)).map (fun x => (x.2, gi, ln))))
/-- The result lane at a group and index. -/
def resAt (rs : List GroupRes) (gi ln : Nat) : Option (Group × Nat) :=
  match rs[gi]? with
  | some r => (r.lanes[ln]?).map (fun x => (r.group, x.bits))
  | none => none
/-- NaN or infinite? -/
def notFinite : Rl → Bool
  | .fin _ => false
  | _ => true
/-- One lane against an entry of kind `SPECIAL` or `RANGE`. -/
def chaffLane (c : ChaffEnt) (x : Rl) : Bool :=
  if c.kind = 0 then notFinite x
  else if c.finite && notFinite x then false
  else !(decide (rlLe (fp64Real c.lo) x = some true) && decide (rlLe x (fp64Real c.hi) = some true))
/-- Do the `SPECIAL` or `RANGE` entries of a kind set their flag? -/
def chaffKind (kind : Nat) (p : Bytes) (rs : List GroupRes) : Bool :=
  (pgChaffList p).any (fun c => decide (c.kind = kind) && (scopeLanes (pgGroupList p) c).any (fun ln =>
    match resAt rs c.group ln with
    | some (g, b) => chaffLane c (laneReal g b)
    | none => false))
/-- The state of the kept lanes, 256 at most. -/
def rateState (p : Bytes) (st : List RateLane) : List ((Nat × Nat × Nat) × RateLane) :=
  ((rateLanes p).take 256).zipIdx.map (fun x => (x.1, st.getD x.2 {}))
/-- Does a `RATE` entry set its flag (R408)? -/
def chaffRate (p : Bytes) (st : List RateLane) (rs : List GroupRes) : Bool :=
  (rateState p st).any (fun x =>
    match (pgChaffList p)[x.1.1]?, resAt rs x.1.2.1 x.1.2.2 with
    | some c, some (g, b) =>
      let v := laneFp64 g b
      !(c.finite && notFinite v) && decide (c.warmup ≤ x.2.n) && rlBeyond v x.2.mu x.2.sg c.k
    | _, _ => false)
/-- The state after a launched generation (R409). DEDUCED (assumption 27): the updates that `WARMUP` counts are those of the run, one a launched
generation, also for a lane that `FINITE_ONLY` leaves out. -/
def rateUpdate (p : Bytes) (st : List RateLane) (rs : List GroupRes) : List RateLane :=
  (rateState p st).map (fun x =>
    match (pgChaffList p)[x.1.1]?, resAt rs x.1.2.1 x.1.2.2 with
    | some c, some (g, b) =>
      let v := laneFp64 g b
      if c.finite && notFinite v then { x.2 with n := x.2.n + 1 }
      else
        let d := rlAdd v (rlNeg x.2.mu)
        { mu := rlAdd x.2.mu (rlScale 1 (2 ^ c.shift) d), n := x.2.n + 1,
          sg := rlAdd x.2.sg (rlScale 1 (2 ^ c.shift) (rlAdd (rlAbs d) (rlNeg x.2.sg))) }
    | _, _ => x.2)
/-- The `CHAFF` field (R281). -/
def chaffField (p : Bytes) (st : List RateLane) (rs : List GroupRes) (outlier shadow : Bool) : Nat :=
  b2n (chaffKind 0 p rs) + 2 * b2n (chaffKind 1 p rs) + 4 * b2n (chaffRate p st rs) + 8 * b2n outlier + 16 * b2n shadow
/-- Is a member's contribution an outlier in an entry's lane (R410)? `ref` is the reference result lane, `n` its `COUNTED`. -/
def outlierLane (c : ChaffEnt) (g : Group) (ref n : Nat) (x : Nat) : Bool :=
  let r := laneFp64 g ref
  let own : Rl := if fmtFloat g.fmt then fReal (floatFmt g.fmt) x
    else roundQ ((if fmtSigned g.fmt then toSigned (fmtBits g.fmt) x else (x : Int)) * 2 ^ 1074) 1
  let m := if g.op = 0 then rlScale 1 n r else r
  if c.finite && (notFinite r || notFinite own) then false
  else
    match rlAdd own (rlNeg m), rlScale c.k 256 (rlMax (rlAbs m) (.fin (2 ^ 948))) with
    | .nan, _ => false
    | _, .nan => false
    | d, t => decide (rlLe (rlAbs d) t = some false)
/-- Is a payload an outlier under the program's entries (R410)? `gen0` is the run's first generation. -/
def outlierMember (p : Bytes) (gen gen0 n : Nat) (ref : List GroupRes) (pay : List Granule) : Bool :=
  let gs := pgGroupList p
  (pgChaffList p).any (fun c => decide (c.kind = 3) && decide (c.warmup ≤ gen - gen0) &&
    (match gs[c.group]? with
     | none => false
     | some g =>
       let first := ((gs.take c.group).map Group.pay).sum
       (scopeLanes gs c).any (fun ln =>
         let gr := pay.getD (first + ln / fmtLanes g.fmt) {}
         match resAt ref c.group ln with
         | some (_, b) => !gr.poison && outlierLane c g b n (elemAt (fmtBits g.fmt) gr.data (ln % fmtLanes g.fmt))
         | none => false)))

/-! ### Predicates (R246, R298, R299) -/
/-- A status field by code (R299). -/
def statusField (g : Gran) (code : Nat) : Nat :=
  match code with
  | 0 => gf g 31 0
  | 1 => gf g 63 32
  | 2 => gf g 95 64
  | 3 => gf g 139 128
  | 4 => gf g 170 152
  | 5 => gf g 189 171
  | _ => gf g 206 206
/-- Is a predicate true? -/
def predTrue (gen : Nat) (st : Gran) (rs : List GroupRes) (q : Pred) : Bool :=
  match q.source with
  | 0 =>
    match resAt rs q.select q.lane with
    | none => false
    | some (g, b) => if g.fmt = 10 then cmpNat q.cmp b (q.const % 2 ^ 32) else cmpReal q.cmp (laneReal g b) (constReal g q.const)
  | 1 => cmpNat q.cmp (statusField st q.select) q.const
  | 2 => cmpNat q.cmp (gf st 205 198) (q.const % 256)
  | _ => cmpNat q.cmp (gen % q.modulus) q.const
/-- `PRED_TRUE` and `BRANCH` (R246). -/
def branchOf (p : Bytes) (gen : Nat) (st : Gran) (rs : List GroupRes) : Nat × Nat :=
  let ts := (pgPredList p).map (fun q => (predTrue gen st rs q, q.branch))
  (layNat (ts.zipIdx.map (fun x => (⟨x.2, 1, b2n x.1.1⟩ : Fld))), match ts.find? Prod.fst with | some x => x.2 | none => 0)
/-- `RESULT_DIGEST` (R240). -/
def resultDigest (res : List Gran) (st : Gran) : Nat := leNat ((sha256 ((res ++ [st]).flatMap granBytes)).take 8)

/-! ### Fire time (R237 to R239) -/
/-- The first cadence slot at or after `t` (R237). -/
def firstSlot (p : Bytes) (t : Nat) : Nat :=
  let c := pgCadence p
  if c = 0 then t else if t ≤ pgPhase p then pgPhase p else pgPhase p + (t - pgPhase p + c - 1) / c * c
/-- The first cadence slot at or after `t` and after `after`. -/
def slotAfter (p : Bytes) (t after : Nat) : Nat := firstSlot p (max t (after + 1))
/-- D_up in ns, by apex level (R238). -/
def dUp (level : Nat) : Nat := if level = 1 then 1700 else if level = 2 then 4200 else 14100
/-- D_down in ns. -/
def dDown (level : Nat) : Nat := if level = 1 then 800 else if level = 2 then 3300 else 13100
/-- The lead floor in ns. -/
def leadFloor (level : Nat) : Nat := if level ≤ 1 then 4000 else if level = 2 then 9000 else 29000
/-- The fire time (R239, R60): `skip` gives the end of a held step's skipped interval containing a time. Second: the apex was late. -/
def fireTime (p : Bytes) (own maxLevel c issue prev : Nat) (skip : Nat → Option Nat) : Nat × Bool :=
  let f0 := slotAfter p (c + max (pgLead p) (leadFloor maxLevel)) prev
  let lim := issue + dDown own + 1000
  let late := decide (f0 < lim)
  let f1 := if late then slotAfter p lim prev else f0
  (match skip f1 with | some e => firstSlot p e | none => f1, late)

end Sys2Proof.Machine
end

