-- ==== Sys2Proof/Machine/StateSheaf.lean ====
section
/-! DEFINITION. What a channel holds of sheaves (chapters Fabric Topology, Sheaves, Threshing, Inside the Martenov Channel): routes, rank
tables, member and generation states, tokens and payloads, partials, and the threshers with their queues. Every field's default is its value
at reset. -/
namespace Sys2Proof.Machine

/-- States of a sheaf in a domain (R229). -/
inductive SheafState where
  | forming
  | ready
  | running
  | suspended
  | closing
  | closed
  deriving DecidableEq, Repr
/-- States of a member at its apex (R230). -/
inductive MemberState where
  | joined
  | arrived
  | fenced
  | lost
  | rebound
  | parked
  deriving DecidableEq, Repr
/-- States of a generation (R231); at a level below the apex it is open until it resolves. -/
inductive GenState where
  | opened
  | armed
  | threshed
  | launched
  | failed
  deriving DecidableEq, Repr
/-- A join as a channel reads it (R223), with the member's position in this domain and the downward port it came by. -/
structure JoinMsg where
  slot        : Nat
  hasProgram  : Bool
  resumeValid : Bool
  auto        : Bool
  tag         : Nat
  rank        : Nat
  n           : Nat
  resumeGen   : Nat
  serial      : Nat
  digest      : Gran
  joinTime    : Nat
  otherFpa    : Nat
  lastFire    : Nat
  program     : Bytes
  fpa         : Nat
  port        : Nat
  deriving DecidableEq, Repr
/-- A member in the apex's rank table (R36, R230). -/
structure Member where
  rank     : Nat
  serial   : Nat
  fpa      : Nat
  otherFpa : Nat
  state    : MemberState := .joined
  joinTime : Nat := 0
  lastFire : Nat := 0
  /-- `RESUME_GEN` of the join sent since the suspension (R250, R252) -/
  resume   : Option Nat := none
  /-- that join was `AUTO`: the member was unreachable in this domain only (R252) -/
  auto     : Bool := false
  /-- the first generation in which the member takes part (R253) -/
  start    : Nat := 0
  /-- generations in a row for which it was absent (R236) -/
  absences : Nat := 0
  /-- the unit clock in ns from which it has been unheard (R236) -/
  unheard  : Option Nat := none
  /-- a partial listed it as unheard, so that the apex's own links do not say when it is heard again (R236) -/
  below    : Bool := false
  parkAt   : Nat := 0
  /-- the time-clock edge of its binding here (R37) -/
  bound    : Option Nat := none
  /-- its latest fingerprint (R385): version, semantics, firmware and disabled-unit digests -/
  fpVer    : Nat := 0
  fpSem    : Nat := 0
  fpFw     : Nat := 0
  fpDum    : Nat := 0
  fpIn     : Bool := false
  /-- it has been lost because it was unreachable, not fenced (R252) -/
  unreached : Bool := false
  deriving DecidableEq, Repr
/-- An arrival token held, with its payload once landed (R233, R234). -/
structure Tok where
  rank      : Nat
  gen       : Nat
  rc        : Nat
  time      : Nat
  count     : Nat
  paySeq    : Nat
  level     : Nat
  freqReq   : Bool := false
  unaligned : Bool := false
  forced    : Bool := false
  port      : Nat := 0
  payload   : Option (List Granule) := none
  /-- it has been taken into its generation's reduction -/
  taken     : Bool := false
  deriving DecidableEq, Repr
/-- An exception entry of a partial (R271, R273): class 0 `ABSENT`, 1 `UNHEARD`, 2 `WAITING`, 3 `LATE`. -/
structure Exc where
  fpa     : Nat
  rank    : Nat
  cls     : Nat
  subtree : Bool := false
  deriving DecidableEq, Repr
/-- A partial as it lands, segment by segment (R272, R274). -/
structure PartIn where
  sender : Nat
  port   : Nat
  gen    : Nat
  rc     : Nat
  form   : Nat
  rank   : Nat
  segs   : List (Nat × List Granule) := []
  /-- segments with `LAST_SEG`; the first segment of the partial that lands now: those before it have been merged, once -/
  lasts  : List Nat := []
  next   : Nat := 0
  /-- the time-clock edge on which the first of these segments landed (R274) -/
  began  : Nat := 0
  deriving DecidableEq, Repr
/-- One input of a task for one block: a member's payload granule, or a partial's block (R310). -/
inductive TaskIn where
  | raw (rank : Nat) (g : Granule)
  | part (b : Block)
  deriving DecidableEq, Repr
/-- An input landed and not yet in a task: its cluster, the thresher inputs block by block (R310). -/
structure Landed where
  cluster : Nat
  blocks  : List TaskIn
  deriving DecidableEq, Repr
/-- A task (R310): block `blk` of a generation over a batch; `rerun` once its check has failed; `own` a local shadow granule (R405). -/
structure Task where
  tag   : Nat
  gen   : Nat
  rc    : Nat
  blk   : Nat
  fmt   : Nat
  op    : Nat
  ins   : List TaskIn
  rerun : Bool := false
  own   : Bool := false
  /-- a shadow task: it is not stolen (R405) -/
  shadow : Bool := false
  deriving DecidableEq, Repr
/-- A generation at a channel (R231, R270 to R274). -/
structure Gen where
  num      : Nat
  state    : GenState := .opened
  /-- B_g where a parked member moved it: the unpark stamp (R236, R257) -/
  base     : Option Nat := none
  /-- the mode fixed on its first input: passed through or reduced (R286); the working threshers of that edge (R310) -/
  passed   : Option Bool := none
  homes    : List Nat := []
  batch    : List Landed := []
  /-- shadow inputs landed and not yet in a task: the block and the input (R405) -/
  shadowIn : List (Nat × TaskIn) := []
  /-- tasks formed and not yet merged -/
  tasks    : Nat := 0
  blocks   : List Block := []
  facts    : Facts := {}
  /-- ranks of members counted at this barn; senders whose partial has landed; members they list, not covered since -/
  ranks    : List Nat := []
  senders  : List Nat := []
  exc      : List Exc := []
  /-- the cutoff, or the apex's decision time, has passed (R236, R270) -/
  cutoff   : Bool := false
  /-- absent, late and unheard ports, for the record (R340) -/
  absMap   : Nat := 0
  lateMap  : Nat := 0
  unhMap   : Nat := 0
  /-- the absentees counted at the decision time -/
  absent   : Nat := 0
  forced   : Bool := false
  /-- the stamp of a `FORCE_RELEASE` (R239, R258) -/
  forcedAt : Option Nat := none
  outlier  : Bool := false
  /-- ranks the decision found waiting (R256), whose unpark moves the deadline (R257) -/
  waiting  : List Nat := []
  /-- partials sent upward, kept for a link's return (R274): the packets, each with the port it went by, none where no link was UP -/
  sent     : List (Option Nat × List Granule) := []
  sentBody : Bool := false
  -- what resolved it
  fire     : Nat := 0
  branch   : Nat := 0
  cause    : Nat := 0
  bumped   : Bool := false
  freq     : Bool := false
  hash     : Gran := 0#256
  status   : Gran := 0#256
  result   : List Gran := []
  counted  : Nat := 0
  completion : Nat := 0
  deriving DecidableEq, Repr
/-- A route member (R43): a rank bound beneath a downward port. -/
structure RouteMem where
  rank   : Nat
  serial : Nat
  fpa    : Nat
  port   : Nat
  deriving DecidableEq, Repr
/-- A route update the apex waits for (R44, R45): one per member and direction, with the FPAs of the channels that have still to acknowledge
and the level of the highest of them. -/
structure RouteJob where
  rank   : Nat
  serial : Nat
  fpa    : Nat
  add    : Bool
  top    : Nat
  waits  : List Nat
  began  : Nat
  /-- when its update went out last (R44), on the unit's clock in ns as `began` -/
  sent   : Nat := 0
  /-- the outcome to acknowledge to the joining member once every update of the join is in -/
  outcome : Nat := 0
  deriving DecidableEq, Repr
/-- What a channel acknowledged of its versions, for the run fingerprint (R386). -/
structure RouteVer where
  fpa : Nat
  ver : Nat
  sem : Nat
  force : Bool
  deriving DecidableEq, Repr
/-- A finding of a compare-mode replay (R357). -/
structure Finding where
  gen  : Nat
  kind : Nat
  rank : Nat
  detail : Nat := 0
  deriving DecidableEq, Repr
/-- A compare-mode replay of a run (R356): the source run, the offset from source to target generations, and the divergence found. -/
structure Compare where
  srcTag : Nat
  srcRc  : Nat
  offset : Int
  finds  : List Finding := []
  raised : Bool := false
  /-- `COMPARE_SKIPPED` has been reported -/
  skipped : Bool := false
  /-- generations whose `RESULT` finding has ordered its path sweep (R403) -/
  swept   : List Nat := []
  deriving DecidableEq, Repr
/-- A sheaf at a channel: its apex, a level on its routes, or a mill forming it (R225, R229). -/
structure Sheaf where
  tag      : Nat
  slot     : Nat
  n        : Nat
  digest   : Gran
  program  : Bytes
  state    : SheafState := .forming
  isApex   : Bool := false
  /-- a route entry is installed here (R43) -/
  routed   : Bool := false
  apexFpa  : Nat := 0xFFFFFFFF
  level    : Nat := 0
  closeCause : Nat := 0
  rc       : BitVec 16 := 0#16
  runStart : Nat := 0
  /-- the first generation of the run, F of the one before it, the oldest unresolved generation -/
  first    : Nat := 0
  /-- the first generation of the run, which a catch-up does not move (R252) -/
  runFirst : Nat := 0
  prevFire : Nat := 0
  oldest   : Nat := 0
  /-- the first generation not yet open here (R231): while the sheaf runs, the oldest unresolved plus `INFLIGHT` -/
  openTo   : Nat := 0
  /-- fire times known here by generation, latest first: the apex's own, or from launch words passing down (R236, R270) -/
  fires    : List (Nat × Nat) := []
  members  : List Member := []
  route    : List RouteMem := []
  /-- route updates applied, so that a repeat is applied once (R44): rank, serial, add -/
  applied  : List (Nat × Nat × Bool) := []
  jobs     : List RouteJob := []
  vers     : List RouteVer := []
  toks     : List Tok := []
  gens     : List Gen := []
  parts    : List PartIn := []
  /-- fence notices held at a barn until its partials are sent (R431) -/
  fenceHeld : List (Gran × Nat) := []
  openedAt : Nat := 0
  suspendedAt : Nat := 0
  /-- suspended only because members became unreachable here (R252) -/
  catchup  : Bool := false
  /-- at the mill, while it is formed again: the apex before (R42, R253) -/
  oldApex  : Nat := 0
  /-- formed again from `AUTO` joins at this channel, and no traffic of the run has shown its `RESUME_COUNT` yet (R252, R253) -/
  reformed : Bool := false
  rates    : List RateLane := []
  /-- descriptor-only under R350, and since when P has been high enough -/
  descOnly : Bool := false
  compare  : Option Compare := none
  /-- run and generation of the mismatch notices acted on (R401) -/
  mmGens   : List (Nat × Nat) := []
  /-- run fingerprint (R387): four granules, and whether the run is amended (R389) -/
  runFp    : List Gran := []
  amended  : Bool := false
  deriving DecidableEq, Repr
/-- A recorded tag and digest pair (R224), with the program that went with it. -/
structure Pair where
  tag     : Nat
  digest  : Gran
  at_     : Nat
  program : Bytes
  deriving DecidableEq, Repr
/-- A thresher (R307 to R315, R326): its queue, head first; whether its island passed its start-up test. -/
structure Thresher where
  queue : List Task := []
  dead  : Bool := false
  deriving DecidableEq, Repr
/-- The engines of a channel (R307 to R330). -/
structure Engines where
  threshers : Tab Thresher := []
  clusterBad : List Nat := []
  saturated : Bool := false
  /-- the time-clock edge since when the fill of the queues has called for the other state (R286) -/
  satFrom   : Option Nat := none
  /-- bit 0 `THRESHERS`, bit 1 `OVERLOAD` standing (R327); windows in a row above 90 % and below 75 % -/
  degraded  : Nat := 0
  high      : Nat := 0
  low       : Nat := 0
  loadPct   : Nat := 0
  /-- cycles demanded in the present 1 ms window -/
  cycles    : Nat := 0
  /-- the time-clock edge at which the present window began (R327) -/
  windowAt  : Nat := 0
  p1Block   : Nat := 0
  refresh   : Nat := 0
  stealCore : Ctr := {}
  stealCluster : Ctr := {}
  stealRemote : Ctr := {}
  residueErr : Ctr := {}
  rerunFail : Ctr := {}
  stretch   : Ctr := {}
  promote   : Ctr := {}
  passGens  : Ctr := {}
  partDiscard : Ctr := {}
  ovfLanes  : Ctr := {}
  poisonLanes : Ctr := {}
  deriving DecidableEq, Repr
/-- What a channel holds of sheaves. -/
structure ChanSheaves where
  sheaves : List Sheaf := []
  pairs   : List Pair := []
  /-- tag and apex FPA: a mill's tag directory (R225); elsewhere the apexes learnt in passing -/
  tags    : Tab Nat := []
  /-- at a mill: the apex of a tag whose sheaf is to be formed again (R42, R253) -/
  was     : Tab Nat := []
  /-- serials beneath the channel and their FPAs (R32), with the time the link came UP -/
  dir     : List (Nat × Nat × Nat) := []
  eng     : Engines := {}
  /-- joins forwarded and not yet answered: tag, rank, and the port they came by, oldest first -/
  joins   : List (Nat × Nat × Nat) := []
  staleDrop : Ctr := {}
  bumped  : Ctr := {}
  deriving DecidableEq, Repr

end Sys2Proof.Machine
end

