-- ==== Sys2Proof/Machine/StateChan.lean ====
section
/-! DEFINITION. A Martenov channel (chapters Inside the Martenov Channel to Martenov Management Protocol): its granary, gleaner, ports,
telemetry, held answers, injections and forecasts, beside its clock and its sheaves. Every field's default is its value at reset. -/
namespace Sys2Proof.Machine

/-! ### The granary (R331 to R360) -/
/-- A record (R338): its header's fields and its whole granules; for a ring record the stacks its units lie in. -/
structure Rec where
  seq    : Nat
  typ    : Nat
  tag    : Nat
  rc     : Nat
  at_    : Nat
  grans  : List Gran
  ring   : Bool := true
  stks   : List Nat := []
  /-- the ring regions its units lie in: 192 × stack + region (R333, R334) -/
  rgns   : List Nat := []
  /-- `LOST_STACK` (R336) -/
  lost   : Bool := false
  /-- granules the gleaner has written back poisoned (R377) -/
  bad    : List Nat := []
  /-- the event of a fault or audit record, where it has one -/
  ev     : Option Ev := none
  deriving DecidableEq, Repr
/-- An entry of the fine window (R341). -/
structure FineEnt where
  time : Nat := 0
  hash : Nat := 0
  map  : Nat := 0
  deriving DecidableEq, Repr
/-- A capture record as it lands at its barn (R345 to R347). -/
structure OpenCap where
  port    : Nat
  slot    : Nat
  tag     : Nat
  rank    : Nat
  seq     : Nat
  full    : Bool
  source  : Nat
  genTag  : Nat
  time    : Nat
  hostRef : Nat
  length  : Nat
  switched : Bool
  desc    : Bool
  data    : List (Nat × Granule) := []
  lastAt  : Nat := 0
  deriving DecidableEq, Repr
/-- A test pack held (R358, R418). -/
structure Pack where
  id      : Nat
  version : Nat
  bytes   : Bytes
  stks    : List Nat := []
  deriving DecidableEq, Repr
/-- A replay stream (R325, R353 to R355): `waiting` until a prefetcher frees. -/
structure Stream where
  cmd     : Nat
  tag     : Nat
  rank    : Nat
  serial  : Nat
  port    : Nat
  /-- the records ordered, by `LEDGER_SEQ`, and the `CAPTURE_SEQ` of each -/
  recs    : List Nat
  caps    : List Nat
  /-- its records have been sent: they wait in the port's queue -/
  began   : Bool := false
  sent    : Nat := 0
  incomplete : Nat := 0
  lastGen : Nat := 0
  pre     : Option Nat := none
  deriving DecidableEq, Repr
/-- A region of a stack that is no longer as formatted (R335, R376): its bucket, when it last overflowed, a copy in progress, retired. -/
structure Region where
  bucket   : Bucket := {}
  overflow : Option Nat := none
  copying  : Bool := false
  retired  : Bool := false
  deriving DecidableEq, Repr
/-- The gleaner of a channel (R377, R378). -/
structure Gleaner where
  granary  : Bool := false
  late     : Bool := false
  read     : Nat := 0
  lastPass : Nat := 0
  cache    : Bool := false
  cacheLate : Bool := false
  cacheRead : Nat := 0
  /-- regions whose own pass a SUSPECT state asks for runs, and the granules read of it (R416) -/
  regions  : List (Nat × Nat) := []
  deriving DecidableEq, Repr
/-- The granary. -/
structure Granary where
  recs      : List Rec := []
  nextSeq   : Nat := 0
  seqSat    : Bool := false
  chain     : Gran := 0#256
  /-- records written since the last root and not yet taken into C, oldest first (R351) -/
  unchained : List Rec := []
  lastSeq   : Nat := 0
  /-- bytes appended to the ring since it was formatted -/
  append    : Nat := 0
  roots     : List Rec := []
  rootLast  : Nat := 0
  formattedAtStart : Bool := false
  unsigned  : Bool := false
  lostStacks : List Nat := []
  /-- records of the system area: silo heads and the event log, latest first -/
  logs      : List Rec := []
  regions   : Tab Region := []
  sparesUsed : Tab Nat := []
  retired   : Nat := 0
  fine      : Tab FineEnt := []
  caps      : List OpenCap := []
  /-- bytes written to the ring per second of the channel's own clock, latest first, at full size for a switched silo (R348) -/
  loads     : List (Nat × Nat) := []
  degraded  : Bool := false
  /-- since when P has been below 30 min, at least 35 min, and at least 1.25 × RETAIN_MIN (R350) -/
  lowFrom   : Option Nat := none
  okFrom    : Option Nat := none
  fullFrom  : Option Nat := none
  packs     : List Pack := []
  packBuf   : Bytes := []
  streams   : List Stream := []
  /-- replay records on their way through: tag, `CAPTURE_SEQ`, the port they go on by -/
  passing   : List (Nat × Nat × Nat) := []
  torn      : Ctr := {}
  lateDrop  : Ctr := {}
  switches  : Ctr := {}
  gaps      : Ctr := {}
  packRefused : Ctr := {}
  deriving DecidableEq, Repr

/-! ### Management (R437, R525 to R540) -/
/-- A telemetry record (R539): its number, kind, event, pod time, subject, detail. -/
structure TeleRec where
  tseq    : Nat
  kind    : Nat
  ev      : Option Ev := none
  code    : Nat := 0
  at_     : Nat := 0
  injected : Bool := false
  subject : Nat := 0
  detail  : Bytes := []
  deriving DecidableEq, Repr
/-- A telemetry stream (R538): the last 65,536 records, latest first. -/
structure Tele where
  stream : Nat := 0
  next   : Nat := 0
  recs   : List TeleRec := []
  deriving DecidableEq, Repr
/-- A command relayed to a leaf, awaiting its answer (R529). -/
structure Relay where
  id      : Nat
  serial  : Nat
  session : Nat
  args    : MgmtArgs
  accepted : Nat
  body    : Bytes := []
  deriving DecidableEq, Repr
/-- A held summary snapshot (R532): its number, page 0, the entries of page 1, its pod time. -/
structure Snap where
  seq   : Nat
  page0 : Tab Word
  page1 : List Word
  at_   : Nat
  deriving DecidableEq, Repr
/-- A time change passed to the follower and not yet confirmed (R181); `session` none for a reference commit. -/
structure Passed where
  id      : Nat
  count   : BitVec 16
  at_     : Nat
  cmd     : Bool
  deriving DecidableEq, Repr
/-- An injection in progress (R439 to R441). -/
structure Injection where
  id      : Nat
  kind    : Nat
  arg     : Nat := 0
  arg2    : Nat := 0
  /-- its start, and until when it runs, in ns of the channel's own clock -/
  start   : Nat
  until_  : Option Nat := none
  left    : Option Nat := none
  /-- generations already struck (kind 0x05) -/
  gens    : List Nat := []
  deriving DecidableEq, Repr
/-- A forecast series (R442 to R444): unit path, quantity, hourly values latest first. -/
structure Series where
  path     : Nat
  quantity : Nat
  port     : Nat
  /-- the far end's serial when the series started -/
  serial   : Nat := 0
  limit    : Int
  /-- the value must stay above its limit (power, margins), else below it (bias) -/
  above    : Bool
  values   : List (Nat × Int) := []
  standing : Bool := false
  clearRun : Nat := 0
  days     : Nat := 0xFFFF
  deriving DecidableEq, Repr
/-- A test order passed to a leaf, whose result the barn awaits (R420). -/
structure TestWait where
  id     : Nat
  serial : Nat
  at_    : Nat
  deriving DecidableEq, Repr
/-- An echo burst in flight (R118, R145, R323): the port and the pool TDC it uses. -/
structure EchoSlot where
  port : Nat
  /-- the TDC by the role it serves: 16 to 39 -/
  tdc  : Nat
  deriving DecidableEq, Repr

/-- What a channel die's fuses hold (R472, R482): serial, device and unwrap keys, the owner key's hash, and the tamper counter. -/
structure Fuses where
  serial    : Nat := 0
  deviceKey : Bytes := List.replicate 32 0#8
  unwrapKey : Bytes := List.replicate 32 0#8
  ownerHash : Bytes := List.replicate 32 0#8
  tamper    : Nat := 0
  deriving DecidableEq, Repr

/-- A report raised while pod time was not VALID, to be stamped at the first valid pod time (R413): whether it is injected, its silo, the event, and the
temperature and voltage read then. -/
structure Unstamped where
  inj  : Bool
  silo : Option (Nat × Nat)
  ev   : EvRec
  tv   : Nat × Nat
  deriving DecidableEq, Repr
/-- A Martenov channel. -/
structure Chan where
  fuses     : Fuses := {}
  serial    : Nat := 0
  modSerial : Nat := 0
  /-- indices learned from cabling (R29) -/
  yard      : Option Nat := none
  barn      : Option Nat := none
  clk       : ChanClock := {}
  /-- ports by number: downward 0 to 255, upward 256 to 271 (R307, R411) -/
  ports     : Tab Port := []
  /-- far-end serials of ports that trained, in the order they did, for bundle checks (R31): port and serial -/
  trained   : List (Nat × Nat) := []
  /-- ancestors' module serials, as received from above (R24) -/
  ancestry  : List Nat := []
  bundleBad : List Nat := []
  /-- upward ports whose swapped pair is not yet reported, and `MPO_POLARITY` stands for the connector (R143) -/
  swapPend  : List Nat := []
  mpoTold   : Bool := false
  posMismatch : Bool := false
  echoes    : List EchoSlot := []
  /-- a strict sheaf runs with its apex or a route here, as last reported upward (R56) -/
  strictSent : Bool := false
  shv       : ChanSheaves := {}
  gran      : Granary := {}
  glean     : Gleaner := {}
  start     : Startup := {}
  sec       : Security := {}
  history   : History := {}
  code      : CodeRegs := {}
  /-- buckets of threshers 0 to 63, then cache slices 64 to 67 (R376, R533) -/
  buckets   : Tab Bucket := []
  tele      : Tele := {}
  answers   : List MgmtAnswer := []
  relays    : List Relay := []
  passed    : List Passed := []
  /-- time changes for the follower's card to take, oldest first: command ID and change (R181, R537) -/
  passQ     : List (Nat × Notice) := []
  snaps     : List Snap := []
  sumSeq    : Nat := 0
  restart   : Option Nat := none
  inj       : List Injection := []
  /-- injections that have ended, each until its flag on records lapses, 10 ms later (R441) -/
  injPast   : List Injection := []
  series    : List Series := []
  testWaits : List TestWait := []
  unstamped : List Unstamped := []
  sensors   : Tab Sensor := []
  shadowFails : Ctr := {}
  localShadow : Ctr := {}
  mmNotices : Ctr := {}
  pathSweeps : Ctr := {}
  /-- path sweeps in progress here: the tags -/
  sweeps    : List Nat := []
  lockedWrite : Ctr := {}
  /-- `pwr_warn`, `therm_warn` and the fan demand sent last (R547, R552, R553) -/
  pwrWarn   : Bool := false
  thermWarn : Bool := false
  fanDemand : Nat := 0
  /-- the unit version before a restart (R468) -/
  oldVersion : Option Nat := none
  free      : Nat := 0
  deriving DecidableEq, Repr

end Sys2Proof.Machine
end

