-- ==== Sys2Proof/Machine/ChanBase.lean ====
section
/-! DEFINITION. Shared operations of a channel: its ports and bundles, its position, writing records and raising events (R331 to R342, R351,
R538, R539), sending packets, its directory, and what its clock brings about. -/
namespace Sys2Proof.Machine

/-! ### Ports, bundles, position (R16 to R30, R307) -/
/-- Pod time of the channel in ns. -/
def chanNs (c : Chan) : Nat := c.clk.time.ns
/-- The channel's own clock in ns since reset, on which its timers run. -/
def chanClock (c : Chan) : Nat := c.clk.time.clock
/-- Port p: downward 0 to 255, upward 256 to 271 (R411). -/
def chanPort (c : Chan) (p : Nat) : Port := tabGet {} c.ports p
/-- Replace port p. -/
def setChanPort (c : Chan) (p : Nat) (x : Port) : Chan := { c with ports := tabSet {} c.ports p x }
/-- Is port p UP? -/
def chanUp (c : Chan) (p : Nat) : Bool := decide ((chanPort c p).state = .up)
/-- Ports in a downward bundle, by role (R18): 1 at a barn, 4 at a yard, 16 at a mill. -/
def bundleWidth (c : Chan) : Nat := if c.clk.role = 2 then 4 else if c.clk.role = 3 then 16 else 1
/-- The upward ports in use, by role (R20). -/
def upCount (c : Chan) : Nat := if c.clk.role = 1 then 4 else if c.clk.role = 2 then 16 else 0
/-- The upward ports, by number. -/
def upPorts (c : Chan) : List Nat := (List.range (upCount c)).map (fun k => 256 + k)
/-- Is this an upward port? -/
def isUpPort (p : Nat) : Bool := decide (256 ≤ p)
/-- The kind of span at a port (R25): 0 leaf to barn, 1 barn to yard, 2 yard to mill. -/
def chanSpan (c : Chan) (p : Nat) : Nat := if isUpPort p then c.clk.role else c.clk.role - 1
/-- The ports of the bundle that port p belongs to. -/
def bundlePorts (c : Chan) (p : Nat) : List Nat :=
  if isUpPort p then upPorts c else let w := bundleWidth c; (List.range w).map (fun k => p / w * w + k)
/-- Its ports that are UP. -/
def bundleUp (c : Chan) (p : Nat) : List Nat := (bundlePorts c p).filter (chanUp c)
/-- The downward ports listed whose links are not all at reset. -/
def downListed (c : Chan) : List Nat := (tabKeys c.ports).filter (fun p => !isUpPort p)
/-- The channel's FPA (R27 to R29): indices not yet learned read as zero. -/
def chanFpa (c : Chan) : Nat :=
  layNat [⟨31, 1, c.clk.domain⟩, ⟨29, 2, c.clk.role⟩, ⟨25, 4, if c.clk.role = 3 then 0 else c.yard.getD 0⟩,
          ⟨19, 6, if c.clk.role = 1 then c.barn.getD 0 else 0⟩]
/-- The FPA this channel gives to the unit at downward port p (R29). -/
def childFpa (c : Chan) (p : Nat) : Nat :=
  if c.clk.role = 1 then layNat [⟨31, 1, c.clk.domain⟩, ⟨25, 4, c.yard.getD 0⟩, ⟨19, 6, c.barn.getD 0⟩, ⟨11, 8, p⟩]
  else if c.clk.role = 2 then layNat [⟨31, 1, c.clk.domain⟩, ⟨29, 2, 1⟩, ⟨25, 4, c.yard.getD 0⟩, ⟨19, 6, p / 4⟩]
  else layNat [⟨31, 1, c.clk.domain⟩, ⟨29, 2, 2⟩, ⟨25, 4, p / 16⟩]
/-- Fields of an FPA (R27). -/
def fpaYard (f : Nat) : Nat := bitsOf f 28 25
def fpaBarn (f : Nat) : Nat := bitsOf f 24 19
def fpaPort (f : Nat) : Nat := bitsOf f 18 11
def fpaRole (f : Nat) : Nat := bitsOf f 30 29
/-- The level of a channel by its role (R40): 1 barn, 2 yard, 3 mill. -/
def chanLevel (c : Chan) : Nat := c.clk.role

/-! ### Engines in use (R326, R328) -/
/-- Does cluster island k work? -/
def clusterWorks (c : Chan) (k : Nat) : Bool := !c.shv.eng.clusterBad.contains k && !isDisabled c.history (unitPath 1 0x04 k)
/-- Is thresher t working (R326)? -/
def thresherWorks (c : Chan) (t : Nat) : Bool :=
  !(tabGet {} c.shv.eng.threshers t).dead && !isDisabled c.history (unitPath 1 0x01 t) && clusterWorks c (t / 16)
/-- The working threshers, in order (R310). -/
def workingThreshers (c : Chan) : List Nat := (List.range 64).filter (thresherWorks c)
/-- Do core k's digest unit and ledger writer work? -/
def digestWorks (c : Chan) (k : Nat) : Bool :=
  !isDisabled c.history (unitPath 1 0x02 k) && clusterWorks c (k / 4)
def writerWorks (c : Chan) (k : Nat) : Bool :=
  !isDisabled c.history (unitPath 1 0x03 k) && clusterWorks c (k / 4)

/-! ### Records (R332 to R342, R348, R351) -/
/-- 256 MiB. -/
def regionBytes : Nat := 268435456
/-- Ring regions per stack before retirements (R333): 173, and the fine-window regions too at a yard or mill. -/
def ringPerStack (c : Chan) : Nat := if c.clk.role = 1 then 173 else 177
/-- The stacks that work. -/
def workingStacks (c : Chan) : List Nat := (List.range 16).filter (fun s => !c.gran.lostStacks.contains s)
/-- Is a region of a stack one of the ring (R333)? The areas lie in the order of the table (assumption 51). -/
def ringRegion (c : Chan) (r : Nat) : Bool := decide ((if c.clk.role = 1 then 7 else 3) ≤ r) && decide (r < 180)
/-- Regions in the ring now (R335, R336, R359). -/
def ringRegions (c : Chan) : Nat :=
  ((workingStacks c).map (fun s => ringPerStack c -
    ((List.range 192).filter (fun r => ringRegion c r && (tabGet {} c.gran.regions (192 * s + r)).retired)).length)).sum
/-- C, the ring's capacity in bytes. -/
def ringBytes (c : Chan) : Nat := ringRegions c * regionBytes
/-- The stacks of the units that `n` bytes from append point `a` touch (R334, R336). -/
def unitStacks (c : Chan) (a n : Nat) : List Nat :=
  let w := workingStacks c
  let k := w.length
  let u := a / 4096
  let m := (a + n - 1) / 4096 - u + 1
  if k = 0 then [] else ((List.range (satN 16 m)).map (fun i => w.getD ((u + i) % k) 0)).dedup
/-- The ring regions of a stack still in use, in order (R333, R335). -/
def stackRing (c : Chan) (s : Nat) : List Nat :=
  (List.range 192).filter (fun r => ringRegion c r && !(tabGet {} c.gran.regions (192 * s + r)).retired)
/-- The ring regions of those units: a stack's units fill its regions in order, 65,536 units each, round and round. -/
def unitRegions (c : Chan) (a n : Nat) : List Nat :=
  let w := workingStacks c
  let k := w.length
  let u := a / 4096
  if k = 0 then [] else ((List.range ((a + n - 1) / 4096 - u + 1)).map (fun i =>
    let s := w.getD ((u + i) % k) 0
    let l := stackRing c s
    192 * s + l.getD ((u + i) / k / 65536 % l.length) 0)).dedup
/-- Bytes of a record. -/
def recBytes (r : Rec) : Nat := 32 * r.grans.length
/-- Keep the latest records that fit in `cap` bytes: eviction is oldest first (R348). -/
def keepFit : Nat → List Rec → List Rec
  | _, [] => []
  | cap, r :: rs => if recBytes r ≤ cap then r :: keepFit (cap - recBytes r) rs else []
/-- The common header (R338). -/
def recHeader (c : Chan) (typ tag rc n : Nat) : Gran :=
  lay [⟨0, 8, typ⟩, ⟨8, 1, c.clk.domain⟩, ⟨16, 32, n⟩, ⟨48, 64, c.gran.nextSeq⟩, ⟨112, 64, chanNs c⟩, ⟨176, 32, tag⟩, ⟨208, 16, rc⟩]
/-- Count bytes written in the present second (R348). -/
def addLoad (s n : Nat) : List (Nat × Nat) → List (Nat × Nat)
  | (t, m) :: l => if t = s then (t, m + n) :: l else (s, n) :: ((t, m) :: l).take 600
  | [] => [(s, n)]
/-- The record load L in bytes per second (R348): the mean over the last 600 s. -/
def loadRate (c : Chan) : Nat :=
  let s := chanClock c / nsSec
  ((c.gran.loads.filter (fun x => decide (s < x.1 + 600))).map Prod.snd).sum / 600
/-- Write a record (R334, R338, R348, R351): it takes the next `LEDGER_SEQ`, which sticks at its largest value (R69), joins the chain, and
goes to the ring, where the oldest records make room, or to the system area. `size` is what it counts in the record load. Second: the
sequence number has just stuck. -/
def recWriteAt (c : Chan) (typ tag rc : Nat) (body : List Gran) (ring : Bool) (size : Nat) (ev : Option Ev := none) : Chan × Bool :=
  let g := c.gran
  let seq := g.nextSeq
  let n := 32 * (body.length + 1)
  let r : Rec := { seq := seq, typ := typ, tag := tag, rc := rc, at_ := chanNs c, grans := recHeader c typ tag rc (body.length + 1) :: body,
                   ring := ring, stks := if ring then unitStacks c g.append n else [], rgns := if ring then unitRegions c g.append n else [],
                   ev := ev }
  let g1 := { g with nextSeq := satN (2 ^ 64 - 1) (seq + 1), seqSat := g.seqSat || decide (2 ^ 64 - 1 ≤ seq),
                     lastSeq := if typ = 6 then g.lastSeq else seq, unchained := if typ = 6 then g.unchained else g.unchained ++ [r] }
  let g2 := if ring then { g1 with recs := keepFit (ringBytes c) (r :: g1.recs), append := g1.append + n,
                                   loads := addLoad (chanClock c / nsSec) size g1.loads }
            else { g1 with logs := r :: g1.logs }
  ({ c with gran := g2 }, !g.seqSat && decide (2 ^ 64 - 1 ≤ seq))

/-! ### Events (R342, R413, R538, R539) -/
/-- The event codes that an owner assigns (R413); zero otherwise. -/
def evCode : Ev → Nat
  | .shadowFail => 0x0F01
  | .resultMismatch => 0x0F02
  | .thresherCheckFail => 0x0F03
  | .historyClass => 0x0F05
  | .unitCondemned => 0x0F06
  | .pathSweepClean => 0x0F07
  | .testItemFail => 0x0F04
  | .selftestFail => 0x0F08
  | .testDone => 0x0F09
  | _ => 0
/-- Is the event one whose record is an audit record (R342)? -/
def evAudit : Ev → Bool
  | .stepApplied | .slewDone | .utcStepped | .siloDescriptorOnly | .siloFullRestored | .unitVersionChanged | .powerWarn | .memberBound => true
  | .injectStart | .injectEnd | .factoryRestored | .memberFpChanged | .debugUnlocked | .debugLocked => true
  | _ => false
/-- Is the event recorded in every open silo (R64, R221, R471, R486, R561)? Where the spec says
'of every sheaf affected' (R290, R380), every open silo is taken (assumption 64). -/
def evAllSilos : Ev → Bool
  | .stepApplied | .slewDone | .utcStepped | .stepLate => true
  | .refState | .refHistory | .switchStart | .switchAbort | .switchCommit | .holdoverEnter | .holdoverExit | .warmSet | .warmCleared => true
  | .disagree | .disagreeCleared | .antOpen | .antShort | .outShort | .outOpen | .outputDrift | .outSrcLost | .outputUnmonitored => true
  | .quarantined | .imageFallback | .imageStaged | .imageBad | .factoryEntryMissing | .userBlockBad | .fibreChanged | .factoryRestored => true
  | .unitVersionChanged | .secViolation | .secLocked | .secKeyless | .alarmCleared | .keyUnwrapFail | .keyRotated => true
  | .linkUnauthenticated | .debugUnlocked | .debugLocked | .debugUnlockFail | .passThroughEnter | .passThroughExit => true
  | .codeFallback | .codeSelftestFail | .bucketOverflow | .scrubUncorrectable | .scrubLate | .flashSectionBad => true
  | .feedLost | .feedRestored | .feedOvervolt | .feedReversed | .powerWarn | .powerWarnClear | .brickFault | .brickInserted | .brickRemoved
  | .fanFault | .fanInserted | .fanRemoved | .sledInserted | .sledRemoved | .sledPowerFault | .cardInserted | .thermalWarn | .thermalShutdown
  | .thermalRestored => true
  | _ => false
/-- Granules 2 and 3 of an event's record: the layout of R413 where it applies, else the values in order, one 8-byte word each (R539). -/
def evDetail (e : EvRec) : List Gran :=
  if evCode e.ev ≠ 0 ∧ e.vals.length = 9 then
    let v := fun i => e.vals.getD i 0
    [lay [⟨0, 16, v 1⟩, ⟨16, 3, v 2⟩, ⟨32, 48, v 3⟩, ⟨80, 32, v 4⟩, ⟨112, 16, v 5⟩, ⟨128, 16, v 6⟩], lay [⟨0, 128, v 7⟩, ⟨128, 128, v 8⟩]]
  else
    let w := fun k => lay ((List.range 4).map (fun i => ⟨64 * i, 64, e.vals.getD (4 * k + i) 0⟩))
    [w 0, w 1]
/-- Does the event name a unit path as its first value? -/
def evNamesUnit (e : EvRec) : Bool :=
  decide (e.ev = .historyClass ∨ e.ev = .unitCondemned ∨ e.ev = .engineCondemned ∨ e.ev = .selftestFail ∨ e.ev = .testItemFail ∨ e.ev = .pathSweepClean) || decide (e.vals.length = 9)
/-- The island that a unit of the channel stands on, by its path (R304, R307, R411). -/
def islandOf (path : Nat) : Option Nat :=
  let i := bitsOf path 51 40
  match bitsOf path 63 52 with
  | 0x101 => some (i / 16)
  | 0x102 | 0x103 => some (i / 4)
  | 0x104 | 0x108 => some i
  | 0x105 | 0x10A => some (if 256 ≤ i then (i - 256) / 4 else i / 64)
  | _ => none
/-- The sensor nearest the unit that an event names (R413). DESIGN CHOICE (assumption 25): sensor 1 + k stands on island k, and sensor 0, the sled's,
serves whatever stands on none. -/
def nearSensor (e : EvRec) : Nat := if evNamesUnit e then (match islandOf (e.vals.headD 0) with | some k => 1 + k | none => 0) else 0
/-- What that sensor reads now; of one that is absent or stale the spec gives a channel no reading, and both are free values. -/
def evReading (c : Chan) (e : EvRec) : Nat × Nat :=
  let x := tabGet ({} : Sensor) c.sensors (nearSensor e)
  if sensorFresh (chanClock c) x then (ofSigned 16 x.temp, x.mv % 65536) else (Config.free .sensor c.free, Config.free .sensor (c.free + 1))
/-- Granule 1 of an event's record (R342), with the reading taken at the event. -/
def evGran1 (c : Chan) (inj : Bool) (e : EvRec) (tv : Nat × Nat := evReading c e) : Gran :=
  lay [⟨0, 16, evCode e.ev⟩, ⟨16, 1, b2n inj⟩, ⟨32, 64, if evNamesUnit e then 0 else e.vals.headD 0⟩,
       ⟨96, 16, tv.1⟩, ⟨112, 16, tv.2⟩, ⟨128, 64, chanNs c⟩, ⟨192, 64, if evNamesUnit e then e.vals.headD 0 else 0⟩]
/-- Append a telemetry record (R538, R539): a stream keeps its last 65,536. -/
def teleAdd (t : Tele) (kind : Nat) (ev : Option Ev) (code at_ : Nat) (inj : Bool) (subject : Nat) (detail : Bytes) : Tele :=
  let r : TeleRec := { tseq := t.next, kind := kind, ev := ev, code := code, at_ := at_, injected := inj, subject := subject, detail := detail }
  { t with next := t.next + 1, recs := (r :: t.recs).take 65536 }
/-- A long-running command is done (R539): its final status and its counts, 8 bytes each (assumption 67). -/
def teleDone (id status : Nat) (counts : List Nat) (c : Chan) : Chan :=
  { c with tele := teleAdd c.tele 4 none 0 (chanNs c) false id ((status :: counts).flatMap (leBytes 8)) }
/-- The open silos: a sheaf with a route entry here, or whose apex this is, that is not yet sealed (R331). -/
def openSilos (c : Chan) : List Sheaf := c.shv.sheaves.filter (fun s => s.routed || s.isApex)
/-- The telemetry side of an event. -/
def chanTele (c : Chan) (inj : Bool) (e : EvRec) (tv : Nat × Nat := evReading c e) : Chan :=
  let t := teleAdd c.tele 0 (some e.ev) (evCode e.ev) (chanNs c) inj (if evNamesUnit e then 0 else e.vals.headD 0)
    ((evGran1 c inj e tv :: evDetail e).flatMap granBytes)
  { c with tele := t, free := c.free + 2 }
/-- The record side of an event, in the silo of a sheaf or, with none, in the event log; when the sequence number sticks, that is raised. -/
def chanRecord (c : Chan) (inj : Bool) (e : EvRec) (silo : Option (Nat × Nat)) (tv : Nat × Nat := evReading c e) : Chan :=
  let ty := if evAudit e.ev then 5 else 4
  let body := evGran1 c inj e tv :: evDetail e
  let r := match silo with
    | some (tag, rc) => recWriteAt c ty tag rc body true 128 (some e.ev)
    | none => recWriteAt c ty 0 0 body false 0 (some e.ev)
  let c1 := { r.1 with free := r.1.free + 2 }
  if r.2 then chanTele c1 false { ev := .ledgerSeqSaturated } else c1
/-- Events a dark transmitter can bring about at this end. -/
def darkEv (e : Ev) : Bool := decide (e = .linkUp ∨ e = .linkDown ∨ e = .linkFaulted ∨ e = .fibreOpen ∨ e = .singleFibre ∨ e = .bundleDegraded)
/-- Is an event one that an injection brings about, while it runs or within 10 ms of its end (R441)? DESIGN CHOICE (assumption 64): its cause is told by
what the event names: the port, the tag, the thresher or the reference. -/
def injHits (c : Chan) (e : EvRec) : Bool :=
  let v := e.vals.headD 0
  let by_ := fun (i : Injection) => match i.kind with
    | 1 | 2 => darkEv e.ev && decide (v = i.arg)
    | 3 => darkEv e.ev
    | 5 => decide (e.ev = .sheafState) && decide (v = i.arg)
    | 6 => decide (e.ev = .thresherCheckFail ∨ e.ev = .thresherRerunFail) && decide (v = unitPath 1 0x01 i.arg)
    | 7 => (decide (e.ev = .refState ∨ e.ev = .refHistory) && decide (v = i.arg)) ||
           decide (e.ev = .switchStart ∨ e.ev = .switchCommit ∨ e.ev = .holdoverEnter)
    | _ => false
  c.inj.any by_ || c.injPast.any (fun i => by_ i && i.until_.any (fun t => decide (chanClock c ≤ t)))
/-- An event is told and recorded, with its reading. -/
def chanReport (u : Unstamped) (c : Chan) : Chan :=
  let c1 := chanTele c u.inj u.ev u.tv
  if evAllSilos u.ev.ev then
    let l := openSilos c
    if l.isEmpty then chanRecord c1 u.inj u.ev none u.tv else l.foldl (fun a s => chanRecord a u.inj u.ev (some (s.tag, s.rc.toNat)) u.tv) c1
  else chanRecord c1 u.inj u.ev u.silo u.tv
/-- Raise an event: `inj` says that its caller knows it to be injected (R441); `silo` names the sheaf and run it concerns. A report of R413 raised
while pod time is not VALID is held, to be stamped at the first valid pod time. -/
def chanRaiseAt (inj0 : Bool) (silo : Option (Nat × Nat)) (c : Chan) (e : EvRec) : Chan :=
  let u : Unstamped := { inj := inj0 || injHits c e, silo := silo, ev := e, tv := evReading c e }
  if evCode e.ev ≠ 0 ∧ !c.clk.time.valid then { c with unstamped := c.unstamped ++ [u], free := c.free + 2 } else chanReport u c
/-- Pod time has become VALID: the reports held are stamped (R413). -/
def chanReportsOut (c : Chan) : Chan := c.unstamped.foldl (fun a u => chanReport u a) { c with unstamped := [] }
/-- Raise an event that concerns no one sheaf. -/
def chanRaise (c : Chan) (e : EvRec) : Chan := chanRaiseAt false none c e
/-- Raise several. -/
def chanRaiseAll (c : Chan) (es : List EvRec) : Chan := es.foldl chanRaise c
/-- Raise one by name, with its values. -/
def chanEv (c : Chan) (e : Ev) (vals : List Nat) : Chan := chanRaise c { ev := e, vals := vals }
/-- Raise an event about a sheaf: it goes to that sheaf's silo (R332). -/
def siloEv (c : Chan) (s : Sheaf) (e : Ev) (vals : List Nat) : Chan := chanRaiseAt false (some (s.tag, s.rc.toNat)) c { ev := e, vals := vals }
/-- Write an audit record of its own (R342), which is no event of a stream: an accepted command, a binding, a forced sync object. -/
def chanAudit (c : Chan) (silo : Option (Nat × Nat)) (vals : List Nat) : Chan :=
  let e : EvRec := { ev := .memberBound, vals := vals }
  let body := evGran1 c false e :: evDetail e
  let r := match silo with
    | some (tag, rc) => recWriteAt c 5 tag rc body true 128
    | none => recWriteAt c 5 0 0 body false 0
  { r.1 with free := r.1.free + 2 }
/-! ### Sending (R18, R21) -/
/-- Of some UP ports, the one with the shortest queue, the lowest number on a tie. DESIGN CHOICE (assumption 52): the spec says only that a
bundle's traffic is spread over its UP ports. -/
def pickPort (c : Chan) : List Nat → Option Nat
  | [] => none
  | p :: ps => match pickPort c ps with
    | none => some p
    | some q => if (chanPort c p).dat.txQ.length ≤ (chanPort c q).dat.txQ.length then some p else some q
/-- Queue a packet on one of the UP ports of the bundle that p belongs to; with none UP it goes nowhere (R149). -/
def chanSend (c : Chan) (p vc : Nat) (gs : List Granule) (replay : Bool := false) : Chan :=
  match pickPort c (bundleUp c p) with
  | none => c
  | some q => setChanPort c q (portSend { vc := vc, grans := gs, replay := replay } (chanPort c q))
/-- Send a packet upward. -/
def chanSendUp (c : Chan) (vc : Nat) (gs : List Granule) : Chan := chanSend c 256 vc gs
/-- Send a one-granule packet upward. -/
def chanSoloUp (c : Chan) (vc : Nat) (g : Gran) : Chan := chanSendUp c vc [plain g]
/-- Send a one-granule packet down toward port p. -/
def chanSoloDown (c : Chan) (p vc : Nat) (g : Gran) : Chan := chanSend c p vc [plain g]
/-- Queue a message on every downward port that runs. -/
def ctrlDown (c : Chan) (g : Gran) : Chan :=
  { c with ports := tabMap {} (fun k p => if !isUpPort k && ctrlLive p then portCtrl g p else p) c.ports }

/-! ### Time (R139, R140) -/
/-- A `STEP_NOTICE` message (R139). -/
def noticeGran (n : Notice) : Gran :=
  lay [⟨0, 8, 6⟩, ⟨8, 64, n.at_⟩, ⟨72, 64, ofSigned 64 n.delta⟩, ⟨136, 16, n.count.toNat⟩, ⟨152, 1, match n.target with | .podTime => 0 | .utc => 1⟩]
/-- A `TIME_INFO` message (R139). -/
def timeInfoGran (t : TimeCore) : Gran :=
  lay [⟨0, 8, 5⟩, ⟨8, 64, t.epochBase⟩, ⟨72, 64, ofSigned 64 t.utcOffset⟩, ⟨136, 16, t.leap.toNat⟩, ⟨152, 1, b2n t.utcValid⟩,
       ⟨153, 16, t.stepCount.toNat⟩, ⟨169, 1, b2n t.slewing⟩]
/-- Has what `TIME_INFO` carries changed? -/
def infoChanged (a b : TimeCore) : Bool :=
  decide (a.epochBase ≠ b.epochBase) || decide (a.utcOffset ≠ b.utcOffset) || decide (a.leap ≠ b.leap) || decide (a.utcValid ≠ b.utcValid) ||
  decide (a.stepCount ≠ b.stepCount) || decide (a.slewing ≠ b.slewing)
/-- A `TIME_PASS` for a change that a reference commit made (R181, R537): its ID is formed from the step count. -/
def passId (n : Notice) : Nat := 0xFFFF * 2 ^ 48 + n.count.toNat
/-- Tell what an operation on the clock `old` has brought about, at a channel that has the new clock: its events, notices down the tree, changes for
the follower, entries due to be saved, a mill's mapping when it has changed (R463), and `TIME_INFO` on any change (R139). -/
def chanTold (old : ChanClock) (o : ClockOut) (c : Chan) : Chan :=
  let info := infoChanged old.time o.clk.time
  let mapped := isMill o.clk && (decide (old.time.epochBase ≠ o.clk.time.epochBase) || decide (old.time.utcOffset ≠ o.clk.time.utcOffset) ||
    decide (old.time.leap ≠ o.clk.time.leap) || decide (old.mill.sSum ≠ o.clk.mill.sSum))
  let due := o.due ++ (if mapped then [timeStateEntry o.clk] else [])
  let c1 := { c with start := if due.isEmpty then c.start else userDue due c.start }
  let c2 := chanRaiseAll (if c1.clk.time.valid then chanReportsOut c1 else c1) o.evs
  let c3 := o.down.foldl (fun (a : Chan) n => ctrlDown a (noticeGran n)) c2
  let c4 := if info then ctrlDown c3 (timeInfoGran c3.clk.time) else c3
  { c4 with passed := c4.passed ++ o.pass.map (fun n => ({ id := passId n, count := n.count, at_ := chanClock c4, cmd := false } : Passed)),
            passQ := c4.passQ ++ o.pass.map (fun n => (passId n, n)) }
/-- Take up an operation on the clock. -/
def chanTake (c : Chan) (o : ClockOut) : Chan := chanTold c.clk o { c with clk := o.clk }
/-- Run an operation on the channel's clock. -/
def chanClk (f : ChanClock → ClockOut) (c : Chan) : Chan := chanTake c (f c.clk)
/-- Run one that only changes the clock. -/
def chanClkIs (f : ChanClock → ChanClock) (c : Chan) : Chan := chanTake c (coIs (f c.clk))

/-! ### Sheaves -/
/-- The sheaf of a tag. -/
def sheafOf (c : Chan) (tag : Nat) : Option Sheaf := c.shv.sheaves.find? (fun s => decide (s.tag = tag))
/-- Put a sheaf, by ascending tag. -/
def insSheaf (s : Sheaf) : List Sheaf → List Sheaf
  | [] => [s]
  | x :: xs => if s.tag < x.tag then s :: x :: xs else if s.tag = x.tag then s :: xs else x :: insSheaf s xs
/-- Replace or enter a sheaf. -/
def putSheaf (c : Chan) (s : Sheaf) : Chan := { c with shv := { c.shv with sheaves := insSheaf s c.shv.sheaves } }
/-- Remove a sheaf. -/
def dropSheaf (c : Chan) (tag : Nat) : Chan := { c with shv := { c.shv with sheaves := c.shv.sheaves.filter (fun s => decide (s.tag ≠ tag)) } }
/-- The downward ports of a sheaf's route entry (R43). -/
def routePorts (s : Sheaf) : List Nat := (s.route.map RouteMem.port).dedup
/-- Send a packet down a sheaf's route, one copy to each bundle it uses. -/
def sendRoute (c : Chan) (s : Sheaf) (vc : Nat) (gs : List Granule) : Chan :=
  let w := bundleWidth c
  ((routePorts s).map (fun p => p / w)).dedup.foldl (fun a b => chanSend a (b * w) vc gs) c
/-- Send a one-granule packet down a sheaf's route. -/
def soloRoute (c : Chan) (s : Sheaf) (vc : Nat) (g : Gran) : Chan := sendRoute c s vc [plain g]
/-- The FPA and port of a serial beneath the channel (R32). -/
def dirFind (c : Chan) (serial : Nat) : Option (Nat × Nat × Nat) := c.shv.dir.find? (fun d => decide (d.1 = serial))
/-- The downward port that leads to a leaf's FPA: at a barn the port it names, above it the bundle of the barn or yard. -/
def portToward (c : Chan) (fpa : Nat) : Nat :=
  if c.clk.role = 1 then fpaPort fpa else if c.clk.role = 2 then 4 * fpaBarn fpa else 16 * fpaYard fpa

end Sys2Proof.Machine
end

