-- ==== Sys2Proof/Machine/ChanTime.lean ====
section
/-! DEFINITION. A channel's time: its source domain (R158 to R176), and the
reports of the hall's time line as they travel (R177, R178, R591). -/
namespace Sys2Proof.Machine

/-! ### TDCs (R114 to R122) -/
/-- Replace TDC n. -/
def setChanTdc (c : Chan) (n : Nat) (t : Tdc) : Chan := { c with clk := { c.clk with tdcs := tabSet {} c.clk.tdcs n t } }
/-- TDC n. -/
def chanTdc (c : Chan) (n : Nat) : Tdc := clkTdc c.clk n
/-- The echo-pool TDCs that serve, by role (R118, R120). -/
def echoPool (c : Chan) : List Nat := (List.range 24).map (fun k => 16 + k) |>.filter (roleServes c.clk)
/-! ### The source (R21, R158 to R176) -/
/-- Does the upward port's TDC serve (R118, R120)? -/
def portTdcOk (c : Chan) (p : Nat) : Bool := roleServes c.clk (p - 256)
/-- The port the channel takes its time from (R21, R120): its lowest-numbered UP upward port with a working TDC. -/
def srcPort (c : Chan) : Option Nat := (upPorts c).find? (fun p => chanUp c p && portTdcOk c p)
/-- How far a port has come, for the port that stands for the source's link when none is UP. -/
def linkRank (p : Port) : Nat :=
  match p.state with | .up => 4 | .calibrating => 3 | .training => 2 | .faulted => 1 | .down => 0
/-- The link the source domain follows (R167): the port time is taken from, else the one that has come furthest, lowest number first. DEDUCED
(assumption 54): a bundle carries its hop while one port is UP (R21), so the domain's link leaves UP with the last of them. -/
def srcLink (c : Chan) : Port :=
  match srcPort c with
  | some p => chanPort c p
  | none =>
    let l := (upPorts c).map (chanPort c)
    l.foldl (fun b p => if linkRank b < linkRank p then p else b) (l.headD {})
/-- The loop's constants by role (R161). -/
def chanLoopK (c : Chan) : LoopK := if c.clk.role = 1 then loopBarn else loopYard
/-- Is the channel a barn or a yard, which has a source? -/
def hasSource (c : Chan) : Bool := decide (c.clk.role = 1 ∨ c.clk.role = 2)
/-- Raise a domain event (R185): the domain and the cause. -/
def domEv (c : Chan) (e : Ev) (cause : Nat) : Chan :=
  chanRaise c { ev := e, index := c.clk.domain, detail := cause, vals := [c.clk.domain, cause] }
/-- Set the loop. -/
def setLoop (c : Chan) (d : DomLoop) : Chan := { c with clk := { c.clk with loop := d } }
/-- An operation of the time core (R57, R58, R212): the outputs' instants inside an interval that a forward step skips are not emitted. -/
def chanTimeOp (f : TimeCore → TimeCore × List EvRec) (c : Chan) : Chan :=
  let o := clkTime f c.clk
  let j := forwardJump c.clk.time o.clk.time
  chanTake c (if j = 0 then o else { o with clk := outSkips c.clk (o.clk.time.pod - j) o.clk.time.pod o.clk })
/-- The loop has lost its input (R162, R165): the channel's servo, which was LOCKED or has been, is in holdover from now on. -/
def chanUnlocked (was : DomState) (c : Chan) : Chan :=
  if c.clk.loop.state ≠ .locked ∧ (was = .locked ∨ c.clk.loop.state = .coasting) then chanClk holdEnter c else c
/-- Has every upward port in use lost its TDC (R120, R167)? -/
def allTdcsLost (c : Chan) : Bool := (upPorts c).all (fun p => (clkTdc c.clk (roleTdc c.clk (p - 256))).outOfService)
/-- The source domain follows its link (R165, R167), and is FAULTED for good with the last TDC of its ports. -/
def chanLinkChanged (c : Chan) : Chan :=
  if hasSource c then
    let d := c.clk.loop
    let r := if allTdcsLost c then (domFault domTdcFault d, none, if domStuck d then none else some domTdcFault) else domLink (srcLink c) d
    let c1 := setLoop c r.1
    let c2 := match r.2.2 with | some k => domEv c1 .domainFaulted k | none => c1
    let c3 := match r.2.1 with | some k => domEv c2 .domainCoasting k | none => c2
    chanUnlocked d.state c3
  else c
/-- The counter has moved by `k`: the loop, and what the upward ports have stamped and sent, go with it (R54, R176). -/
def chanMoved (k : Int) (c : Chan) : Chan :=
  { setLoop c (loopMoved k c.clk.loop) with ports := tabMap {} (fun p (x : Port) => if isUpPort p then portMoved k x else x) c.ports }
/-- A channel whose pod time has not been valid follows a source that is not settled either (R176): its counter is set on each change of more
than 1 µs, by the block's offset. -/
def chanFollowUnset (b : BlockVal) (c : Chan) : Chan :=
  if !c.clk.time.valid && decide (c.clk.loop.srcState = 2) && decide (65536000 < b.theta.natAbs) then
    chanMoved (-b.theta) { c with clk := moveCounter (-b.theta) c.clk }
  else c
/-- The source is LOCKED (R54, R167): the first time, the counter takes its pod time. The loop's I is the frequency the channel runs on (R162, R166),
with the model's, which is what is left over. -/
def chanLocked (c : Chan) : Chan :=
  let c1 := domEv c .domainLocked c.clk.loop.cause
  let x := c1.clk.loop
  let i := c1.clk.hold.own + x.freq
  let c2 := if c1.clk.time.valid then c1
    else
      let old := c1.clk.time.pod
      let pod := (Int.ofNat old - thetaAt old x).toNat
      let c2 := chanClk (clkTime (fun t => firstLock t pod x.srcCount)) c1
      chanMoved (Int.ofNat pod - Int.ofNat old) c2
  chanClkIs (fun k => { k with time := { k.time with rate := rateOf i }, loop := { k.loop with integ := i, freq := i } }) c2
/-- A released block of the source's port reaches the loop (R158 to R165, R176, R210). A channel whose source is LOCKED steers its rate word;
until then the loop runs on a model of the source (assumption 53), and holdover ends with the first block that it acquires on. `p` is the port
before the release. -/
def chanSrcBlock (f : BlockFate) (p : Port) (c : Chan) : Chan :=
  let was := c.clk.loop.state
  let steer := decide (was = .locked)
  let b := domBlock (chanLoopK c) steer 0 c.clk.time.edges c.clk.time.applied f p c.clk.loop
  let c0 := if f = .released ∧ b.1.state = .acquiring then chanClk holdExit c else c
  let c1 := setLoop c0 b.1
  let c2 := if f = .released then chanTimeOp (fun t => hearCount t p.beat.waitCount) c1 else c1
  match b.2 with
  | .none => c2
  | .coasted k => chanUnlocked was (domEv c2 .domainCoasting k)
  | .used v e =>
    let c3 := if steer then
        chanClkIs (fun k => keepI { k with time := { k.time with rate := rateOf (loopY (chanLoopK c) b.1.gear b.1.integ e) } }) c2
      else c2
    chanFollowUnset v c3
  | .locked _ => chanLocked c2
/-- A beat of the source's port is heard (R165, R169, R184). -/
def chanSrcHeard (st : Nat) (c : Chan) : Chan :=
  let was := c.clk.loop.state
  let r := srcHeard c.clk.time.edges st c.clk.loop
  let c1 := setLoop c r.1
  match r.2 with
  | some k => chanUnlocked was (domEv c1 .domainCoasting k)
  | none => c1

/-! ### The hall's time line (R177, R178, R591) -/
/-- The channel's own report at a whole second goes to its parent (R177). -/
def chanLineSend (c : Chan) : Chan := if decide (chanSrcState c.clk ≠ 2) && hasSource c then chanSoloUp c 3 (ownLine c.clk) else c
/-- The combination of a second's reports goes up (R178). -/
def chanLineCombine (c : Chan) : Chan :=
  let r := linesCombine c.clk
  r.2.foldl (fun (a : Chan) g => chanSoloUp a 3 g) { c with clk := r.1 }
/-- A relay reaches the channel (R591): a barn or yard passes the first of each count upward, a mill applies it. -/
def chanRelay (src : Nat) (g : Gran) (c : Chan) : Chan :=
  let n := noticeOf src g
  if isMill c.clk then chanClk (relayAtMill n) c
  else
    let r := relayOnce n c.clk
    let c1 := { c with clk := r.1 }
    if r.2 then chanSoloUp c1 3 g else c1
/-- A step notice from above (R57, R58, R140): forwarded to every port below, and held or applied. -/
def chanNotice (src : Nat) (g : Gran) (c : Chan) : Chan := chanTimeOp (fun t => receiveNotice t (noticeOf src g)) (ctrlDown c g)
/-- `TIME_INFO` from above (R139). -/
def chanTimeInfo (g : Gran) (c : Chan) : Chan := chanClkIs (fun k => { k with time := timeInfo g k.time }) c
/-- A beat's step count is heard (R58): held steps up to it are applied. -/
def chanHearCount (n : BitVec 16) (c : Chan) : Chan := chanTimeOp (fun t => hearCount t n) c

end Sys2Proof.Machine
end

