-- ==== Sys2Proof/Machine/LinkOps.lean ====
section
/-! DEFINITION. What else happens at one Skellet port, of a leaf or a channel (R133, R143 to R152): lost signals and lanes, acknowledgements,
repeated NAKs, and turnaround slots. -/
namespace Sys2Proof.Machine

/-- Does lane-end k (0 `TX_A`, 1 `RX_A`, 2 `TX_B`, 3 `RX_B`) carry traffic in this mode (R141)? With a swapped pair the lower end meets each
fibre at its other position (R143). -/
def laneTraffic (upper : Bool) (m : LinkMode) (swapped : Bool) (k : Nat) : Bool :=
  match m with
  | .singleA => if swapped && !upper then decide (2 ≤ k) else decide (k < 2)
  | .singleB => if swapped && !upper then decide (k < 2) else decide (2 ≤ k)
  | .dual => if upper || swapped then decide (k = 0 ∨ k = 3) else decide (k = 1 ∨ k = 2)
/-- Is the lane-end excluded (R151)? -/
def laneBad (k : Nat) (p : Port) : Bool := p.laneFault.testBit k
/-- Loss of signal on a receive lane-end (R151, R152): its power reads as no light, and on one that carries traffic the missing slots are
counted from here. -/
def portLos (upper fibreB : Bool) (p : Port) : Port :=
  let k := if fibreB then 3 else 1
  let p1 := if fibreB then { p with rxPowerB := 0x8000 } else { p with rxPowerA := 0x8000 }
  let p2 := { p1 with trn := { p1.trn with light := p1.trn.light - p1.trn.light % (if fibreB then 4 else 2) +
    (if fibreB then p1.trn.light % 2 else 0) } }
  if ctrl p && laneTraffic upper p.mode p.pairSwapped k then { p2 with dat := { p2.dat with missing := p2.dat.missing + 1 } } else p2
where
  /-- a link that runs -/
  ctrl (p : Port) : Bool := decide (p.state = .calibrating ∨ p.state = .up)
/-- 8 consecutive missing slots (R152). -/
def portMissing (ix : Nat) (p : Port) : Evd Port :=
  if p.state = .calibrating ∨ p.state = .up then portDown ix causeLos p else (p, [])
/-- 64 consecutive CRC failures (R149). -/
def portLockLost (ix : Nat) (p : Port) : Evd Port :=
  if p.state = .calibrating ∨ p.state = .up then portDown ix causeFrameLock p else (p, [])
/-- The time-clock edge on which a port in training has been without light for 1 ms (R149). -/
def noLightAt (x : Port) : Option Nat := if x.state = .training ∧ x.trn.light = 0 then some (max x.since x.darkAt + edgeAt 1000000) else none
/-- 1 ms without light in training (R149). DESIGN CHOICE (assumption 14): the spec names no `CAUSE` for this fall to DOWN; it is `LOS`. -/
def portNoLight (ix : Nat) (p : Port) : Evd Port := if p.state = .training then portDown ix causeLos p else (p, [])
/-- A lane-end is stuck (R151): it is excluded, once reported; what its receiver has seen in training no longer counts. DESIGN CHOICE
(assumption 14): the spec names no end of the exclusion short of a unit reset. -/
def portStuck (ix k : Nat) (p : Port) : Evd Port :=
  if laneBad k p then (p, [])
  else
    let seen := p.trn.seen
    let s1 := if k = 1 then (seen ||| 5) - 5 else if k = 3 then (seen ||| 10) - 10 else seen
    ({ p with laneFault := p.laneFault ||| 2 ^ (k % 4), trn := { p.trn with seen := s1 } }, [portEv .laneStuck ix k])
/-- A TRAIN frame (R149): one on an excluded receiver is not taken. -/
def portTrainFrame (upper : Bool) (ix own : Nat) (g : Gran) (testsDone : Bool) (p : Port) : Evd Port :=
  if laneBad (if own = 0 then 1 else 3) p then (p, []) else trainFrame upper ix own g testsDone p
/-- The periodic `ACK_NAK` (R133). -/
def portAck (p : Port) : Port := if p.state = .up then sendAck false p else p
/-- A NAK is repeated (R133). -/
def portNakRepeat (ix : Nat) (p : Port) : Evd Port := if p.state = .up then nakAgain ix p else (p, [])
/-- The time between beats in ns (R135). -/
def beatNs : Nat := 800
/-- The upper end places a slot (R144, R145): it starts after a beat at least two on, named by its `BEAT_TIME`. -/
def portSlotOpen (pod : Nat) (p : Port) : Port :=
  let at_ := (match p.beat.sent with | x :: _ => x.2 | [] => pod + p.cal.serdes) + 3 * beatNs * 65536
  let fast := decide (p.state = .calibrating)
  portCtrl (lay [⟨0, 8, 7⟩, ⟨8, 64, at_⟩, ⟨72, 1, b2n fast⟩])
    { p with cal := { p.cal with slotBeat := at_ % 2 ^ 64, slotOpen := true, deferred := false, calFast := fast } }
/-- The slot waits (R146, R323). -/
def portSlotDefer (p : Port) : Port := { p with cal := { p.cal with deferred := true } }
/-- Which fibre the upper end times (R145): the downward one. -/
def upTimesA (m : LinkMode) : Bool := decide (m ≠ .singleB)
def upTimesB (m : LinkMode) : Bool := decide (m = .singleB)

end Sys2Proof.Machine
end

