-- ==== Sys2Proof/Machine/ChanLink.lean ====
section
/-! DEFINITION. A channel's links (R19 to R32, R139 to R155, R472 to R483): ports and bundles, identity, the directory and duplicates, keys,
beats and blocks, turnaround slots, violations, TDCs, unit history. -/
namespace Sys2Proof.Machine

/-! ### What a port's change of state brings about -/
/-- Is port p one that the role uses (R18, R20)? The upward ports that it does not use stay dark. -/
def portUsed (c : Chan) (p : Nat) : Bool := !isUpPort p || decide (p - 256 < upCount c)
/-- Ports of a bundle are degraded while fewer than all are UP (R21). DESIGN CHOICE (assumption 52): the event carries the bundle's lowest port, and
is raised once until all are UP again; the spec says neither. -/
def bundleCheck (p : Nat) (c : Chan) : Chan :=
  let l := bundlePorts c p
  let k := l.headD p
  if l.length ≤ 1 then c
  else if (bundleUp c p).length = l.length then { c with bundleBad := c.bundleBad.filter (fun b => decide (b ≠ k)) }
  else if c.bundleBad.contains k then c
  else chanRaise { c with bundleBad := k :: c.bundleBad } { ev := .bundleDegraded, index := k, vals := [k] }
/-- Is a serial one that the directory holds (R32, R34)? -/
def serialValid (s : Nat) : Bool := decide (s ≠ 0) && decide (s ≠ 0xFFFFFFFFFFFFFFFF)
/-- A directory change on its way up (R32). DESIGN CHOICE (assumption 55): serial, FPA, the time its link came UP, and whether it is entered
or removed. -/
def dirGran (serial fpa at_ : Nat) (add : Bool) : Gran :=
  lay [⟨0, 8, Config.pktType .directory⟩, ⟨8, 64, serial⟩, ⟨72, 32, fpa⟩, ⟨104, 64, at_⟩, ⟨168, 1, b2n add⟩]
/-- A duplicate order (R32). -/
def dupGran (serial fpa : Nat) : Gran := lay [⟨0, 8, 0x5A⟩, ⟨8, 64, serial⟩, ⟨72, 32, fpa⟩]
/-- Remove the entry of a serial at a position. -/
def dirRemove (serial fpa : Nat) (c : Chan) : Chan :=
  if c.shv.dir.any (fun d => decide (d.1 = serial) && decide (d.2.1 = fpa)) then
    let l := c.shv.dir.filter (fun d => !(decide (d.1 = serial) && decide (d.2.1 = fpa)))
    chanSoloUp { c with shv := { c.shv with dir := l } } 1 (dirGran serial fpa 0 false)
  else c
/-- Remove the entries that lie beneath port p: at a barn the leaf's, above it those of the bundle. -/
def dirDrop (p : Nat) (c : Chan) : Chan :=
  (c.shv.dir.filter (fun d => decide (portToward c d.2.1 = p / bundleWidth c * bundleWidth c))).foldl (fun (a : Chan) d => dirRemove d.1 d.2.1 a) c
/-- The whole directory goes up, when the first upward link is there: what changed meanwhile is not known above. DEDUCED (assumption 55). -/
def dirAll (c : Chan) : Chan := c.shv.dir.foldl (fun (a : Chan) d => chanSoloUp a 1 (dirGran d.1 d.2.1 d.2.2 true)) c
/-- The member of a rank in a sheaf's table. -/
def memberOf (s : Sheaf) (rank : Nat) : Option Member := s.members.find? (fun m => decide (m.rank = rank))
/-- Change the member of a rank. -/
def updMember (rank : Nat) (f : Member → Member) (s : Sheaf) : Sheaf :=
  { s with members := s.members.map (fun m => if m.rank = rank then f m else m) }
/-- The ranks of a sheaf beneath the bundle of port p. -/
def ranksUnder (c : Chan) (p : Nat) (s : Sheaf) : List Nat :=
  let w := bundleWidth c
  (s.route.filter (fun r => decide (r.port / w = p / w))).map RouteMem.rank
/-- The apex holds members unheard from the instant its own link toward them leaves UP, and no longer once it is UP again (R236). -/
def unheardCheck (p : Nat) (c : Chan) : Chan :=
  let gone := (bundleUp c p).isEmpty
  let f := fun (m : Member) =>
    if gone then { m with unheard := some (m.unheard.getD (chanClock c)) } else if m.below then m else { m with unheard := none }
  { c with shv := { c.shv with sheaves := c.shv.sheaves.map (fun s =>
      if s.isApex then let l := ranksUnder c p s; { s with members := s.members.map (fun m => if l.contains m.rank then f m else m) } else s) } }
/-- Hold a downward port of a barn FAULTED as that of a duplicate (R32): its leaf leaves the directory, and its members are unheard. -/
def faultCopy (p : Nat) (c : Chan) : Chan :=
  let x := chanPort c p
  let r := portFault p causeDuplicate x
  unheardCheck p (dirDrop p (chanRaiseAll (setChanPort c p (portMark c.clk.time.edges x r.1)) r.2))
/-- Refuse a copy (R32): a barn holds its port FAULTED, a yard or mill sends the duplicate order toward it. -/
def refuseCopy (serial fpa : Nat) (c : Chan) : Chan :=
  if c.clk.role = 1 then faultCopy (fpaPort fpa) c else chanSoloDown c (portToward c fpa) 1 (dupGran serial fpa)
/-- Enter a serial in the directory (R32): of two copies at different positions the one that trained later is refused, the one with the higher FPA
when both trained in one cycle. -/
def dirEnter (serial fpa at_ : Nat) (c : Chan) : Chan :=
  let other := c.shv.dir.find? (fun d => decide (d.1 = serial) && decide (d.2.1 ≠ fpa))
  let keep := c.shv.dir.filter (fun d => !(decide (d.1 = serial) && decide (d.2.1 = fpa)))
  let c1 := { c with shv := { c.shv with dir := (serial, fpa, at_) :: keep } }
  match other with
  | none => chanSoloUp c1 1 (dirGran serial fpa at_ true)
  | some d =>
    if d.2.2 < at_ ∨ (d.2.2 = at_ ∧ d.2.1 < fpa) then refuseCopy serial fpa c1
    else refuseCopy serial d.2.1 (chanSoloUp c1 1 (dirGran serial fpa at_ true))
/-- A directory change from below. -/
def dirIn (g : Gran) (c : Chan) : Chan :=
  if gbit g 168 then dirEnter (gf g 71 8) (gf g 103 72) (gf g 167 104) c else dirRemove (gf g 71 8) (gf g 103 72) c
/-- Send packets up, each noted with the port it goes by. -/
def sendNoted (ks : List (List Granule)) (c : Chan) : Chan × List (Option Nat × List Granule) :=
  ks.foldl (fun a k => (chanSendUp a.1 1 k, a.2 ++ [(pickPort a.1 (bundleUp a.1 256), k)])) (c, [])
/-- The partials of one generation that went by port p, or by none, go out again. -/
def resendGenOn (p : Nat) (g : Gen) (c : Chan) : Chan × Gen :=
  let again := fun (x : Option Nat × List Granule) => decide (x.1 = some p ∨ x.1 = none)
  let r := sendNoted ((g.sent.filter again).map Prod.snd) c
  (r.1, { g with sent := g.sent.filter (fun x => !again x) ++ r.2 })
/-- When the link of upward port p returns, every partial of an unresolved generation that was sent on it goes out again (R274). -/
def resendPartials (p : Nat) (c : Chan) : Chan :=
  c.shv.sheaves.foldl (fun (a : Chan) s =>
    let r := s.gens.foldl (fun (b : Chan × List Gen) g =>
      let x := if g.state = .opened ∨ g.state = .armed then resendGenOn p g b.1 else (b.1, g)
      (x.1, b.2 ++ [x.2])) (a, [])
    putSheaf r.1 { s with gens := r.2 }) c
/-- Ports that reach a bundle other than that of the lowest-numbered UP upward port are refused (R31). -/
def splitUpward (c : Chan) : Chan :=
  match (upPorts c).find? (chanUp c) with
  | none => c
  | some p =>
    let want := (chanPort c p).far.fpa
    (upPorts c).foldl (fun (a : Chan) q =>
      let x := chanPort a q
      if x.far.known && decide (x.far.fpa ≠ want) && decide (x.state ≠ .faulted) then
        let r := portFault q causeSplit x
        chanRaiseAll (setChanPort a q (portMark a.clk.time.edges x r.1)) r.2
      else a) c
/-- `IDENT` (R139): downward it gives the unit below its position. -/
def chanIdentMsg (c : Chan) (p : Nat) : Gran :=
  lay [⟨0, 8, 2⟩, ⟨8, 64, c.serial⟩, ⟨72, 2, c.clk.role⟩, ⟨74, 1, c.clk.domain⟩, ⟨75, 32, if isUpPort p then chanFpa c else childFpa c p⟩,
       ⟨107, 8, c.start.unitVersion⟩, ⟨115, 4, c.start.semVersion⟩]
/-- The channel's position has changed (R29): a barn's directory follows, and the units below learn theirs. DEDUCED (assumption 55): the spec sends
`IDENT` in training only; a link that has trained gets it again, since the position of the unit below is the channel's. -/
def positionTold (c : Chan) : Chan :=
  let c1 := if c.clk.role ≠ 1 then c
    else c.shv.dir.foldl (fun (a : Chan) d =>
      let f := childFpa a (fpaPort d.2.1)
      if f = d.2.1 then a else dirEnter d.1 f d.2.2 (dirRemove d.1 d.2.1 a)) c
  { c1 with ports := tabMap {} (fun k (x : Port) => if !isUpPort k && (ctrlLive x || x.far.known) then portCtrl (chanIdentMsg c1 k) x else x) c1.ports }
/-- The channel learns its indices from an IDENT from above (R29): a position other than the image names is reported once. -/
def learnPosition (f : Nat) (c : Chan) : Chan :=
  let c1 := if c.clk.role = 1 then { c with yard := some (fpaYard f), barn := some (fpaBarn f) } else { c with yard := some (fpaYard f) }
  let po := c.start.policy
  let bad := (decide (po.expectYard ≠ 0xFF) && decide (c1.yard ≠ some po.expectYard)) ||
    (decide (c.clk.role = 1) && decide (po.expectBarn ≠ 0xFF) && decide (c1.barn ≠ some po.expectBarn))
  let c2 := if bad && !c.posMismatch then chanRaise { c1 with posMismatch := true } { ev := .positionMismatch, vals := [chanFpa c1] }
    else { c1 with posMismatch := bad }
  if chanFpa c2 = chanFpa c then c2 else positionTold c2
/-- Swapped pairs of the upward connector are reported (R143) once none of its ports with frame lock still trains: for the connector when every
trained port of it, two at least, shows one, else for each port. DEDUCED (assumption 14): only so can the one report stand in place of the others. -/
def swapCheck (c : Chan) : Chan :=
  let l := upPorts c
  let trained := l.filter (fun q => ctrlLive (chanPort c q))
  let all := decide (2 ≤ trained.length) && trained.all (fun q => (chanPort c q).pairSwapped)
  if l.any (fun q => decide ((chanPort c q).state = .training) && (chanPort c q).trn.frameLock) then c
  else if all then
    let c1 := { c with swapPend := [], mpoTold := true }
    if c.mpoTold ∨ c.swapPend.isEmpty then c1 else chanRaise c1 { ev := .mpoPolarity, index := 16, vals := [16] }
  else chanRaiseAll { c with swapPend := [], mpoTold := false } (c.swapPend.map (portEv .pairSwapped · 0))
/-- The mode of an upward port's TDC (R105, R118): interval while a burst of its own is timed, else stamps, armed while the link carries beats. -/
def chanOwnTdc (p : Nat) (c : Chan) : Chan :=
  if isUpPort p then
    let x := chanPort c p
    let n := roleTdc c.clk (p - 256)
    setChanTdc c n (tdcOwner (!x.cal.echoOn) (!x.cal.echoOn && ctrlLive x) (chanTdc c n))
  else c
/-- Upward: the first link that is UP gives the position, the source domain follows, partials and the directory go out again, a split bundle is
refused. Downward: the directory, members heard or not. `old` is the port before. -/
def portChanged (p : Nat) (old : Port) (c : Chan) : Chan :=
  let new := chanPort c p
  let c1 := bundleCheck p c
  let first := decide (new.state = .up) && decide ((bundleUp c p).length = 1)
  if isUpPort p then
    let c2 := swapCheck c1
    let c3 := if first then dirAll (learnPosition new.far.fpa c2) else c2
    let c4 := if new.state = .up then resendPartials p (splitUpward c3) else c3
    chanLinkChanged c4
  else
    let c2 := { c1 with trained := if new.state = .up ∨ new.state = .calibrating then c1.trained else c1.trained.filter (fun t => decide (t.1 ≠ p)) }
    let c3 := if c2.clk.role = 1 then
        (if old.state = .up then dirDrop p c2
         else if serialValid new.far.serial ∧ new.state = .up then dirEnter new.far.serial (childFpa c2 p) (chanNs c2) c2 else c2)
      else if first then dirDrop p c2 else c2
    unheardCheck p c3
/-- Run a port operation at port p: its events, the TDC's mode, and what a change of state brings about; the last light of a DOWN upward port that
goes changes the source's link too (R167). -/
def chanPortDo (p : Nat) (f : Port → Evd Port) (c : Chan) : Chan :=
  let old := chanPort c p
  let r := f old
  let new := portMark c.clk.time.edges old r.1
  let c0 := if ctrlLive new then c else { c with echoes := c.echoes.filter (fun e => decide (e.port ≠ p)) }
  let c1 := chanOwnTdc p (chanRaiseAll (setChanPort c0 p new) r.2)
  if new.state ≠ old.state then portChanged p old c1
  else if isUpPort p && decide (new.state = .down) && decide (old.trn.light ≠ 0) && decide (new.trn.light = 0) then chanLinkChanged c1
  else c1
/-- Run one that raises nothing. -/
def chanPortIs (p : Nat) (f : Port → Port) (c : Chan) : Chan := chanPortDo p (fun x => (f x, [])) c

/-! ### TDCs and the unit history (R114 to R122, R411 to R417) -/
/-- The role of a TDC is served no more (R120): a reference is rejected, an output runs unmonitored, a port steers no servo, or the pool shrinks. -/
def roleLost (n : Nat) (c : Chan) : Chan :=
  if n < 16 then chanLinkChanged c
  else if 40 ≤ n ∧ n ≤ 45 then chanClk (refTdcLost n) c
  else if 46 ≤ n ∧ n ≤ 61 then chanClk (outUnmonitor (n - 46)) c
  else c
/-- A TDC leaves service (R120): TDC 63 takes the role of the first of TDCs 0 to 61 that does; the role is lost with it gone. -/
def chanTdcGone (n : Nat) (c : Chan) : Chan :=
  if (chanTdc c n).outOfService then c
  else
    let c1 := setChanTdc c n (tdcFaulted (chanTdc c n))
    if n = 63 then (match c.clk.spareOf with | some m => roleLost m c1 | none => c1)
    else if n ≤ 61 && c.clk.spareOf.isNone && !(chanTdc c 63).outOfService then
      let c2 := setChanTdc c1 n { chanTdc c1 n with spared := true }
      let c3 : Chan := { c2 with clk := clkOwnTdcs { c2.clk with spareOf := some n } }
      chanRaise (if n < 16 then chanOwnTdc (256 + n) c3 else c3) { ev := .tdcSpared, index := n, vals := [n] }
    else roleLost n c1
/-- A unit of the channel is condemned (R417): threshers, digest units, writers, clusters, ports and TDCs leave service. -/
def chanCondemn (path : Nat) (c : Chan) : Chan :=
  let ix := bitsOf path 51 40
  let k := bitsOf path 63 52
  let c1 := if k = 0x101 ∨ k = 0x102 ∨ k = 0x103 then chanEv c .engineCondemned [path] else c
  if k = 0x105 ∨ k = 0x10A then chanPortDo ix (portFault ix causeLos) c1
  else if k = 0x109 then chanTdcGone ix c1
  else c1
/-- Enter an error in the channel's history (R414, R415); one that makes its unit PERMANENT condemns it at once (R417). -/
def chanError (path op : Nat) (c : Chan) : Chan :=
  let r := histEnter 4096 path op (chanNs c) c.history
  let c1 := chanRaiseAll { c with history := r.1 } r.2.1
  if r.2.2 = 3 then chanCondemn path c1 else c1
/-- A TDC of the channel is faulted (R115, R120, R122): it is reported and entered in history, and leaves service. -/
def chanTdcFault (n : Nat) (c : Chan) : Chan :=
  chanError (unitPath 1 0x09 n) opTdc (chanTdcGone n (chanRaise c { ev := .tdcFault, index := n, vals := [n] }))
/-- An interpolator loses lock (R115). -/
def chanTdcLost (n : Nat) (start : Bool) (c : Chan) : Chan :=
  let r := tdcLost c.clk.time start (chanTdc c n)
  let c1 := setChanTdc c n r.1
  if r.2 then chanTdcFault n c1 else c1
/-- Not locked 100 µs after start (R115). -/
def chanTdcTimeout (n : Nat) (c : Chan) : Chan :=
  let t := chanTdc c n
  if (t.lockStart && t.lockStop) || t.fault then c else chanTdcFault n c
/-- A start edge at TDC n (R111). -/
def chanTdcStart (n : Nat) (e : EdgeIn) (c : Chan) : Chan := setChanTdc c n (tdcStart c.clk.time e (chanTdc c n))
/-- A stop edge at TDC n (R111). -/
def chanTdcStop (n : Nat) (e : EdgeIn) (c : Chan) : Chan := setChanTdc c n (tdcStop n c.clk.time e (chanTdc c n))
/-- A histogram completes (R116). -/
def chanHistogram (n : Nat) (start : Bool) (hist : List Nat) (c : Chan) : Chan :=
  let r := tdcHistogram (isSuspect c.history (unitPath 1 0x09 n)) start hist (chanTdc c n)
  let c1 := setChanTdc c n r.1
  if r.2 then chanRaise c1 { ev := .tdcLinSuspect, index := n, vals := [n] } else c1

/-! ### Violations (R479 to R483) -/
/-- Every listed port. -/
def allPorts (c : Chan) : List Nat := tabKeys c.ports
/-- A violation at the channel: what it does, its events, a cancelled `ARM`, and at ERASE the ports in use (R20). -/
def chanViolate (src : Nat) (c : Chan) : Chan :=
  let r := violate src c.sec
  let c1 := chanRaiseAll { c with sec := blowSince (chanClock c) c.sec r.sec, start := if 0 < r.level then { c.start with armed := none } else c.start } r.evs
  if r.level = 2 then ((allPorts c1).filter (portUsed c1)).foldl (fun (a : Chan) p => chanPortDo p (portKeyless a.sec.policyOpen p) a) c1 else c1
/-- Several violations of one source. -/
def chanViolates (src : Nat) : Nat → Chan → Chan
  | 0, c => c
  | n + 1, c => chanViolates src n (chanViolate src c)

/-! ### Training (R24, R29, R31, R139, R475) -/
/-- The ends of a link, as this channel's key exchange sees them. -/
def chanKeyCtx (c : Chan) (p : Nat) : KeyCtx :=
  { upper := !isUpPort p, ownSerial := c.serial, port := if isUpPort p then bitsOf (chanPort c p).far.fpa 18 11 else p,
    adm := if c.clk.domain = 0 then c.sec.admW else c.sec.admB, fabric := c.sec.fabric, policyOpen := c.sec.policyOpen,
    keyless := c.sec.keyless && c.sec.policyOpen }
/-- `LINK_PARAMS` (R131, R139, R374). -/
def chanParamsMsg (c : Chan) (p : Nat) : Gran :=
  let n := bufSize (chanSpan c p)
  lay [⟨0, 8, 4⟩, ⟨8, 16, (chanPort c p).cal.loopNear⟩, ⟨24, 16, n⟩, ⟨40, 16, n⟩, ⟨56, 16, n⟩, ⟨72, 1, b2n (chanPort c p).fallback⟩]
/-- `ANCESTRY` (R24, R139): this channel's module and its ancestors', parent first. -/
def chanAncestryMsg (c : Chan) : Gran :=
  lay [⟨0, 8, 3⟩, ⟨8, 64, c.modSerial⟩, ⟨72, 64, c.ancestry.getD 0 0⟩, ⟨136, 64, c.ancestry.getD 1 0⟩, ⟨200, 2, satN 2 c.ancestry.length⟩]
/-- A TRAIN frame at port p (R142, R143, R149): the upper end, once it has frame lock, sends identity, ancestry and parameters. A swapped pair waits
to be reported until its connector's ports have trained. -/
def chanTrainFrame (p own : Nat) (g : Gran) (testsDone : Bool) (c : Chan) : Chan :=
  let was := (chanPort c p).trn.frameLock
  let r := portTrainFrame (!isUpPort p) p own g testsDone (chanPort c p)
  let swap := r.2.any (fun e => decide (e.ev = .pairSwapped))
  let c0 := if swap then { c with swapPend := if c.swapPend.contains p then c.swapPend else c.swapPend ++ [p] } else c
  let c1 := chanPortDo p (fun _ => (r.1, r.2.filter (fun e => decide (e.ev ≠ .pairSwapped)))) c0
  if !was && !isUpPort p && decide ((chanPort c1 p).state = .training) then
    let msgs := [chanIdentMsg c1 p, chanAncestryMsg c1, chanParamsMsg c1 p]
    chanPortIs p (fun x => msgs.foldl (fun y m => portCtrl m y) x) c1
  else c1
/-- The upper end's checks of an IDENT (R31): the cause of the first that fails. -/
def identCause (c : Chan) (p : Nat) (f : FarEnd) : Option Nat :=
  let mates := (c.trained.filter (fun t => decide (t.1 ≠ p) && (bundlePorts c p).contains t.1))
  if f.domain ≠ c.clk.domain then some causeDomain
  else if f.role + 1 ≠ c.clk.role then some causeRole
  else if mates.any (fun t => decide (t.2 ≠ f.serial)) then some causeSplit
  else if c.clk.role = 1 && serialValid f.serial && c.shv.dir.any (fun d => decide (d.1 = f.serial) && decide (d.2.1 ≠ childFpa c p)) then
    some causeDuplicate
  else none
/-- The lower end answers an `IDENT` once with its own and its parameters, and either end opens the key exchange (R139, R475). -/
def identAnswer (p : Nat) (c : Chan) : Chan :=
  let c1 := if isUpPort p then chanPortIs p (fun y => portCtrl (chanParamsMsg c p) (portCtrl (chanIdentMsg c p) y)) c else c
  chanPortIs p portCalibrate { chanPortIs p (keyHello (chanKeyCtx c1 p) (Config.free .nonce c1.free)) c1 with free := c1.free + 1 }
/-- An `IDENT` arrives (R29, R31, R475): the upper end checks it and opens the key exchange, or refuses the link; the lower end learns its
position, while no link is UP that gives it, answers with its own, and opens its end. On a link that runs it tells a new position. -/
def chanIdent (p : Nat) (g : Gran) (c : Chan) : Chan :=
  let x := chanPort c p
  let f := identFar g x.far
  let lead := (upPorts c).find? (chanUp c)
  if x.state ≠ .training then
    if isUpPort p && ctrlLive x && x.far.known && decide (f.serial = x.far.serial) then
      let c1 := setChanPort c p { x with far := f }
      if lead = none ∨ lead = some p then learnPosition f.fpa c1 else c1
    else c
  else if isUpPort p then
    let c1 := setChanPort c p { x with far := f }
    match lead with
    | some q => if (chanPort c q).far.fpa ≠ f.fpa then chanPortDo p (portFault p causeSplit) c else if x.far.known then c1 else identAnswer p c1
    | none => let c2 := learnPosition f.fpa c1; if x.far.known then c2 else identAnswer p c2
  else
    match identCause c p f with
    | some k => chanPortDo p (portFault p k) c
    | none =>
      let c1 := { setChanPort c p { x with far := f } with trained := c.trained.filter (fun t => decide (t.1 ≠ p)) ++ [(p, f.serial)] }
      if x.far.known then c1 else identAnswer p c1
/-- `ANCESTRY` from above (R24): the serials kept, and passed on when they change. -/
def chanAncestry (p : Nat) (g : Gran) (c : Chan) : Chan :=
  let l := ([gf g 71 8, gf g 135 72, gf g 199 136].take (1 + gf g 201 200)).take 2
  let c1 := chanPortIs p (fun x => { x with trn := { x.trn with ancestry := l, ancestryIn := true } }) c
  if isUpPort p && decide (l ≠ c.ancestry) then
    let c2 := { c1 with ancestry := l }
    { c2 with ports := tabMap {} (fun k (x : Port) => if !isUpPort k && (ctrlLive x || x.far.known) then portCtrl (chanAncestryMsg c2) x else x) c2.ports }
  else c1
/-- Light on a receive lane-end of a DOWN port (R149); an upward port that the role does not use stays dark (R20). -/
def chanLight (p lane power : Nat) (c : Chan) : Chan :=
  if !portUsed c p then c
  else chanPortDo p (fun y => let x := portLit lane power y; if x.state = .down then (portTrain (x.trn.light ||| 2 ^ (lane % 2)) x, [])
    else ({ x with trn := { x.trn with light := x.trn.light ||| 2 ^ (lane % 2) } }, [])) c
/-- Is the port held FAULTED: condemned, or without keys under DEGRADE_CLOSED (R417, R482)? -/
def portHeld (c : Chan) (p : Nat) : Bool :=
  isDisabled c.history (unitPath 1 0x05 p) || isDisabled c.history (unitPath 1 0x0A p) || (c.sec.keyless && !c.sec.policyOpen)
/-- Training again (R31, R149): after 50 ms, or from FAULTED. -/
def chanRetrain (p : Nat) (from_ : LinkState) (c : Chan) : Chan :=
  let x := chanPort c p
  if x.state = from_ ∧ !(from_ = .faulted ∧ portHeld c p) then
    let c1 := chanPortIs p (fun y => portTrain y.trn.light y) c
    setChanPort c1 p { chanPort c1 p with since := c1.clk.time.edges }
  else c
/-- A duplicate order reaches a channel (R32): the barn of the copy holds the port FAULTED, another passes the order on. -/
def chanDuplicate (g : Gran) (c : Chan) : Chan :=
  let f := gf g 103 72
  if c.clk.role = 1 then
    let p := fpaPort f
    let x := chanPort c p
    if x.state = .down ∨ (x.far.known ∧ x.far.serial ≠ gf g 71 8) then c else chanPortDo p (portFault p causeDuplicate) c
  else chanSoloDown c (portToward c f) 1 g

/-! ### Beats, blocks, time messages (R56, R136 to R140) -/
/-- Does a sheaf with the strict flag run with its apex or a route here, or below (R56)? -/
def strictHere (c : Chan) : Bool :=
  c.shv.sheaves.any (fun s => effStrict c.start.strictForce s.program && decide (s.state = .running)) ||
  c.ports.any (fun x => !isUpPort x.1 && x.2.strictBelow)
/-- `STRICT_REPORT` (R139). -/
def strictGran (b : Bool) : Gran := lay [⟨0, 8, 9⟩, ⟨8, 1, b2n b⟩]
/-- The report goes up when it has changed (R56, R139). -/
def strictUpdate (c : Chan) : Chan :=
  let b := strictHere c
  if b = c.strictSent then c
  else { c with strictSent := b, ports := tabMap {} (fun k (x : Port) => if isUpPort k && ctrlLive x then portCtrl (strictGran b) x else x) c.ports }
/-- The last notice, which is repeated (R139, R140). -/
def lastNotice (t : TimeCore) : Option Notice :=
  (t.pendPod.toList ++ t.pendUtc ++ t.applied).foldl (fun (b : Option Notice) n => match b with
    | none => some n | some m => if serHigher n.count m.count then some n else some m) none
/-- What a beat carries of the channel (R136, R175). -/
def chanBeatCtx (c : Chan) : BeatCtx :=
  { pod := c.clk.time.pod, domain := c.clk.domain, srcState := chanSrcState c.clk, stepCount := c.clk.time.stepCount }
/-- What goes out every 64 beats (R139): upward the strict report, downward `TIME_INFO` and the last notice. -/
def chanInfoSend (p : Nat) (c : Chan) : Chan :=
  let x := chanPort c p
  if x.beat.sinceInfo < 64 then c
  else
    let y := { x with beat := { x.beat with sinceInfo := 0 } }
    if isUpPort p then setChanPort c p (portCtrl (strictGran (strictHere c)) y)
    else
      let z := portCtrl (timeInfoGran c.clk.time) y
      setChanPort c p (match lastNotice c.clk.time with | some n => portCtrl (noticeGran n) z | none => z)
/-- The stamp of a beat whose leading edge port p samples now (R107, R118, R137). DESIGN CHOICE (assumption 75): downward ports have no TDC of their own in
R118, and yet each end of a link stamps (R156); theirs is an interpolator with the nominal table. -/
def chanStamp (p : Nat) (e : EdgeIn) (c : Chan) : Chan × Option Nat :=
  if isUpPort p then
    let n := roleTdc c.clk (p - 256)
    let t := chanTdc c n
    if !t.stampMode then (c, none)
    else
      let t1 := tdcStop n c.clk.time e t
      (setChanTdc c n t1, if tdcYields c.clk.time e t && t1.result.valid then some (t1.result.value - t.dStop) else none)
  else (c, if edgeTaken false e then some (c.clk.time.pod - residual [] (fineCode e.ones)) else none)
/-- A beat arrives (R58, R137, R138, R159, R165): stamped now, kept, and from above its step count and source state are heard. -/
def chanBeatIn (p : Nat) (g : Gran) (ok : Bool) (e : EdgeIn) (c : Chan) : Chan :=
  let r := chanStamp p e c
  let c1 := chanPortIs p (beatIn (!isUpPort p) g ok r.2 c.clk.time.stepCount) r.1
  if isUpPort p && ok && ctrlLive (chanPort c p) then
    let c2 := chanHearCount (BitVec.ofNat 16 (gf g 111 96)) c1
    if hasSource c && decide (srcPort c = some p) then chanSrcHeard (gf g 83 81) c2 else c2
  else c1
/-- The port whose blocks the channel's source loop is fed from (R21, R120): with no UP port that has a TDC, the lowest UP one, whose blocks give
nothing usable (R165). -/
def feedPort (c : Chan) : Option Nat := (srcPort c).orElse (fun _ => (upPorts c).find? (chanUp c))
/-- The release instant of a block (R138, R158, R179, R479). Downward, time is taken over a bundle's lowest UP port (R21). -/
def chanRelease (p : Nat) (c : Chan) : Chan :=
  let x := chanPort c p
  let r := blockRelease (isUpPort p) x
  let c1 := setChanPort c p r.2
  let c2 := if isUpPort p then
      (if hasSource c && decide (feedPort c = some p) then
        chanSrcBlock (if (srcPort c).isNone && decide (r.1 ≠ .nothing) then .dropped else r.1) x c1 else c1)
    else if r.1 = .released ∧ (bundleUp c p).head? = some p then
      match blockValue 0 x.beat.waitPairs with
      | some b => if x.beat.waitMixed then c1 else chanClk (kidBlock p x.beat.srcState b.theta) c1
      | none => c1
    else c1
  if r.1 = .tagFailed then
    let t := tagRate (chanNs c2) c2.sec.tagFailLimit (chanPort c2 p)
    let c3 := setChanPort c2 p t.1
    if t.2 then chanViolate 7 c3 else c3
  else c2
/-- `STRICT_REPORT` from below (R56). -/
def chanStrict (p : Nat) (g : Gran) (c : Chan) : Chan :=
  strictUpdate (chanPortIs p (fun x => { x with strictBelow := gbit g 8 }) c)

/-! ### Calibration (R144 to R147, R323) -/
/-- Is a launch word for this link queued or in flight (R146): waiting, partly sent, or not yet acknowledged? -/
def launchAhead (x : Port) : Bool :=
  let word := fun (g : Gran) => decide (gf g 7 0 = 0x4C)
  x.dat.txQ.any (fun k => decide (k.vc = 1) && (k.grans.head?.any (fun g => word g.data))) || x.dat.part1.any (fun f => word f.data) ||
  x.dat.store.any (fun f => decide (f.vc = 1) && decide (f.ftype = 3 ∨ f.ftype = 4) && word f.data)
/-- May a slot that starts at pod time `t` in ns run on port p (R146): for every sheaf routed over it, no permitted fire time within one lead after it,
and no launch word? -/
def slotClear (c : Chan) (p t : Nat) : Bool :=
  let w := bundleWidth c
  (c.shv.sheaves.filter (fun s => s.route.any (fun r => decide (r.port / w = p / w)))).all (fun s =>
    decide (t + pgLead s.program < firstSlot s.program t)) && !launchAhead (chanPort c p)
/-- The TDC role that a slot of port p takes (R118, R145): its own on an upward port, else a free one of the pool. -/
def echoTdc (c : Chan) (p : Nat) : Option Nat :=
  if isUpPort p then some (p - 256) else (echoPool c).find? (fun n => !c.echoes.any (fun e => decide (e.tdc = n)))
/-- Place the slot of port p. -/
def slotPlace (p : Nat) (c : Chan) : Chan :=
  match echoTdc c p with
  | none => chanPortIs p portSlotDefer c
  | some n => chanPortIs p (portSlotOpen c.clk.time.pod) { c with echoes := { port := p, tdc := n } :: c.echoes.filter (fun e => decide (e.port ≠ p)) }
/-- `TURN_INTERVAL` in time-clock edges (R144): 0.25 s times the power of two that the image names. -/
def turnEdges (c : Chan) : Nat := edgesPerSec / 4 * 2 ^ c.start.policy.turnInterval
/-- The time-clock edge on which port p's next slot falls due (R144, R323): in CALIBRATING every 100 µs, from its start; in UP its share of each
`TURN_INTERVAL`. DESIGN CHOICE (assumption 14): the intervals are counted from the unit's reset. -/
def slotDueAt (c : Chan) (p : Nat) : Nat :=
  let x := chanPort c p
  if x.state = .calibrating then (if x.cal.dueAt < x.since then x.since else x.cal.dueAt + edgeAt 100000)
  else
    let t := turnEdges c
    let o := p * t / 256
    let n := max (x.cal.dueAt + 1) x.since
    if n ≤ o then o else o + (n - o + t - 1) / t * t
/-- When the slot that a `SLOT_BEAT` opens would start (R145, R146): three beats on, and eight slots behind the beat. -/
def slotStart (c : Chan) : Nat := chanNs c + 3 * beatNs + 100
/-- Place the slot that is due, or let it wait (R146, R323). -/
def slotTry (p : Nat) (c : Chan) : Chan :=
  if (chanPort c p).state = .calibrating ∨ slotClear c p (slotStart c) then slotPlace p c else chanPortIs p portSlotDefer c
/-- A turnaround slot falls due (R144, R146, R323). -/
def chanSlotDue (p : Nat) (c : Chan) : Chan :=
  if isUpPort p ∨ !ctrlLive (chanPort c p) then c
  else slotTry p (chanPortIs p (fun x => { x with cal := { x.cal with dueAt := c.clk.time.edges } }) c)
/-- The time-clock edge on which a deferred slot is forced (R146). -/
def slotForceAt (x : Port) : Option Nat := if ctrlLive x && x.cal.deferred then some (x.cal.dueAt + 10 * edgesPerSec) else none
/-- A slot deferred for 10 s runs regardless (R146). -/
def chanSlotForced (p : Nat) (c : Chan) : Chan :=
  if ctrlLive (chanPort c p) && (chanPort c p).cal.deferred then slotPlace p (chanPortIs p (fun y => { y with turnForced := ctrInc y.turnForced }) c)
  else c
/-- A slot of this port is over: its TDC is free. -/
def echoFree (p : Nat) (c : Chan) : Chan := { c with echoes := c.echoes.filter (fun e => decide (e.port ≠ p)) }
/-- After a result: each end's channel classifies the span (R26, R147), the first delays are compared (R463), the link may come UP. -/
def chanCalAfter (p : Nat) (c : Chan) : Chan :=
  let c1 := chanPortDo p (classifySpan p (chanSpan c p)) c
  let c2 := if delaysIn (chanPort c1 p) && ctrlLive (chanPort c1 p) then
      let r := fibreChanged p (chanPort c1 p) c1.start
      let e : CalEntry := { typ := 3, key := p, data := leBytes 8 (chanPort c1 p).delayA ++ leBytes 8 (chanPort c1 p).delayB }
      let stored := calOf c1.start.user 3 p
      chanRaiseAll { c1 with start := if stored = some e.data then r.1 else if c1.start.delaySeen.contains p then r.1 else userDue [e] r.1 } r.2
    else c1
  chanPortDo p (calJudge p) c2
/-- Does this channel's end of port p time fibre A, or B (R145)? -/
def chanTimesA (c : Chan) (p : Nat) : Bool := if isUpPort p then lowTimesA (chanPort c p).mode else upTimesA (chanPort c p).mode
def chanTimesB (c : Chan) (p : Nat) : Bool := if isUpPort p then lowTimesB (chanPort c p).mode else upTimesB (chanPort c p).mode
/-- The TDC that times port p's burst: its own, or the one of the pool that its slot has. -/
def burstTdc (c : Chan) (p : Nat) : Option Nat :=
  (if isUpPort p then some (p - 256) else (c.echoes.find? (fun e => decide (e.port = p))).map EchoSlot.tdc).map (roleTdc c.clk)
/-- A burst returns: its edge is sampled now, and the interval since the burst's start is the echo (R106, R145, R147). A result that is not valid gives
no delay and is no missed burst (assumption 75). -/
def chanEcho (p : Nat) (e : EdgeIn) (c : Chan) : Chan :=
  let x := chanPort c p
  if !x.cal.echoOn then c
  else
    match burstTdc c p with
    | none => c
    | some n =>
      let t := chanTdc c n
      let t1 := tdcStop n c.clk.time e t
      let c1 := setChanTdc c n t1
      if !tdcYields c.clk.time e t then c1
      else if !t1.result.valid then chanPortIs p (fun q => { q with cal := { q.cal with echoOn := false } }) (echoFree p c1)
      else
        let d := echoDelay (intervalOf c.clk.time t1) x.cal.tNear x.cal.rNear x.far.loopback
        chanCalAfter p (chanPortDo p (echoDone p (chanTimesA c p) d) (echoFree p c1))
/-- A burst did not return (R147): its TDC's measurement is abandoned. -/
def chanEchoMissed (p : Nat) (c : Chan) : Chan :=
  if !(chanPort c p).cal.echoOn then c
  else
    let c1 := match burstTdc c p with | some n => setChanTdc c n { chanTdc c n with measuring := false } | none => c
    chanPortDo p (echoMissed p (chanTimesA c p)) (echoFree p c1)
/-- The far end's results (R147). -/
def chanCalResult (p : Nat) (g : Gran) (c : Chan) : Chan :=
  if ctrlLive (chanPort c p) then chanCalAfter p (chanPortDo p (calResultIn p (chanTimesA c p) (chanTimesB c p) g) c) else c

/-! ### Keys (R475 to R478) -/
/-- A nonce from the far end; to an end without keys it says that the link runs unauthenticated (R478). -/
def chanKeyNonce (p : Nat) (g : Gran) (c : Chan) : Chan :=
  if (chanKeyCtx c p).keyless then chanPortDo p (noKeys p (chanKeyCtx c p)) c else
  { chanPortIs p (keyNonceAnswer (chanKeyCtx c p) (Config.free .nonce c.free) g) c with free := c.free + 1 }
/-- A rekey starts (R477). -/
def chanRekey (p : Nat) (c : Chan) : Chan :=
  { chanPortIs p (rekeyStart (chanKeyCtx c p) (Config.free .nonce c.free)) c with free := c.free + 1 }

/-! ### Data frames (R124 to R133, R376, R379) -/
/-- A frame arrives, with the code counters and an overflowing bucket's history entry. -/
def chanFrame (p : Nat) (line : BitVec 320) (c : Chan) : Chan :=
  let x := chanPort c p
  let o := (frameIn p line x).2
  let full := decide (x.bucket.level = 32) && (match o with | some y => codeFeeds y | none => false)
  let c1 := chanPortDo p (fun q => (frameIn p line q).1) { c with code := codeSeen (linkParity x) o c.code }
  if full then chanError (unitPath 1 0x05 p) opBucket c1 else c1

end Sys2Proof.Machine
end

