-- ==== Sys2Proof/Machine/ChanSheaf.lean ====
section
/-! DEFINITION. Shared operations on a channel's sheaves: finding the way, acknowledgements on their way down (R224, R227), states (R229 to
R231), deadlines (R236), a level's generations, and the records of a generation (R340, R341). -/
namespace Sys2Proof.Machine

/-! ### Finding the way (R18, R28, R29) -/
/-- Does a position lie beneath this channel? -/
def fpaBelow (c : Chan) (f : Nat) : Bool :=
  if c.clk.role = 3 then true
  else if c.clk.role = 2 then decide (some (fpaYard f) = c.yard)
  else decide (some (fpaYard f) = c.yard) && decide (some (fpaBarn f) = c.barn)
/-- Send a packet toward the unit at a position. -/
def sendToward (c : Chan) (f vc : Nat) (gs : List Granule) : Chan :=
  if fpaBelow c f then chanSend c (portToward c f) vc gs else chanSendUp c vc gs
/-- The FPA of the channel at a level (1 barn, 2 yard, 3 mill) above a position (R28). -/
def levelFpa (c : Chan) (f level : Nat) : Nat :=
  layNat [⟨31, 1, c.clk.domain⟩, ⟨29, 2, level⟩, ⟨25, 4, if level = 3 then 0 else fpaYard f⟩, ⟨19, 6, if level = 1 then fpaBarn f else 0⟩]
/-- The level of the lowest common ancestor of positions (R40). -/
def apexLevelOf : List Nat → Nat
  | [] => 1
  | f :: fs =>
    if fs.any (fun p => decide (fpaYard p ≠ fpaYard f)) then 3 else if fs.any (fun p => decide (fpaBarn p ≠ fpaBarn f)) then 2 else 1
/-- The apex over a sheaf's bindings (R40). -/
def apexOf (c : Chan) (fs : List Nat) : Nat := levelFpa c (fs.headD 0) (apexLevelOf fs)
/-- The position of the member of a serial that a packet from port p carries: the barn's own port, above it the directory's entry (R32). -/
def joinFpa (c : Chan) (serial p : Nat) : Nat :=
  if c.clk.role = 1 && !isUpPort p then childFpa c p
  else match dirFind c serial with
    | some d => d.2.1
    | none => if isUpPort p then chanFpa c else childFpa c p

/-! ### Outcomes of a join (R227) -/
def joRangeBad : Nat := 0x10
def joTaken : Nat := 0x11
def joAlready : Nat := 0x12
def joMismatch : Nat := 0x13
def joRouteFull : Nat := 0x14
def joUnreachable : Nat := 0x15
def joFormFull : Nat := 0x16
def joClosing : Nat := 0x17
def joFormTimeout : Nat := 0x18
def joAhead : Nat := 0x19
def joCorrupt : Nat := 0x1A
def joBehind : Nat := 0x1B
def joNeeded : Nat := 0x1C
/-- A join acknowledgement (R227). -/
structure AckMsg where
  outcome : Nat
  mismatch : Nat := 0
  slot    : Nat
  tag     : Nat
  rank    : Nat
  state   : Nat := 0
  next    : Nat := 0
  rc      : Nat := 0
  apex    : Nat := 0
  level   : Nat := 0
  run     : Nat := 0
  deriving DecidableEq, Repr
/-- Its granule. -/
def ackGran (a : AckMsg) : Gran :=
  lay [⟨0, 8, 0x4B⟩, ⟨8, 8, a.outcome⟩, ⟨16, 3, a.mismatch⟩, ⟨19, 5, a.slot⟩, ⟨24, 32, a.tag⟩, ⟨56, 18, a.rank⟩, ⟨74, 3, a.state⟩,
       ⟨80, 48, a.next⟩, ⟨128, 16, a.rc⟩, ⟨144, 32, a.apex⟩, ⟨176, 2, a.level⟩, ⟨192, 64, a.run⟩]
/-- A join passed this way, to be answered by the same port. -/
def noteJoin (tag rank p : Nat) (c : Chan) : Chan :=
  { c with shv := { c.shv with joins := c.shv.joins.filter (fun j => decide (j ≠ (tag, rank, p))) ++ [(tag, rank, p)] } }
/-- Forget the recorded pairs of a tag (R224). -/
def forgetPairs (tag : Nat) (c : Chan) : Chan := { c with shv := { c.shv with pairs := c.shv.pairs.filter (fun q => decide (q.tag ≠ tag)) } }
/-- Record where the apex of a tag lies; 0 forgets it. -/
def tagApex (tag a : Nat) (c : Chan) : Chan := { c with shv := { c.shv with tags := tabSet 0 c.shv.tags tag a } }
/-- A route entry is deleted: the pairs of its tag are forgotten (R224). -/
def dropRouted (c : Chan) (tag : Nat) : Chan :=
  match sheafOf c tag with
  | none => c
  | some s => if s.routed then forgetPairs tag (dropSheaf c tag) else dropSheaf c tag
/-- What a level learns of a run from an acknowledgement that passes (R227, R250): of a resumption once; of a first binding the run's start,
which is the base of generation 0 only. -/
def levelLearn (g : Gran) (s : Sheaf) : Sheaf :=
  let out := gf g 15 8
  let next := gf g 127 80
  let rc := BitVec.ofNat 16 (gf g 143 128)
  let run := gf g 255 192
  if s.isApex then s
  else if (out = 2 ∨ out = 3) ∧ ¬(s.rc = rc ∧ s.first = next ∧ s.runStart = run) then
    let toks := if s.rc = rc then (s.toks.filter (fun t => decide (next ≤ t.gen))).map (fun (t : Tok) => { t with taken := false }) else []
    { s with rc := rc, runStart := run, first := next, runFirst := if s.rc = rc then s.runFirst else next, oldest := next, gens := [], parts := [], toks := toks, state := .ready, openTo := 1 }
  else if out = 0 ∧ s.openTo = 0 then
    { s with rc := rc, runStart := run, first := if next = 0 then 0 else 2 ^ 48, runFirst := next, oldest := next, openTo := 1 }
  else s
/-- An acknowledgement goes down (R224, R227): by the port of the join it answers, the latest one where the rank is taken and else the
oldest; by the route entry where it answers no waiting join; up where neither is known. A level learns the sheaf's apex from it. -/
def ackDown (g : Gran) (c : Chan) : Chan :=
  let out := gf g 15 8
  let tag := gf g 55 24
  let rank := gf g 73 56
  let mine := c.shv.joins.filter (fun j => decide (j.1 = tag) && decide (j.2.1 = rank))
  let c0 := match sheafOf c tag with | some s => if s.isApex then c else putSheaf c (levelLearn g s) | none => c
  let c1 := if 4 ≤ out then forgetPairs tag c0 else c0
  let c2 := if out < 0x10 && decide (c.clk.role ≠ 3) then tagApex tag (gf g 175 144) c1 else c1
  match if out = joTaken then mine.getLast? else mine.head? with
  | some j => chanSoloDown { c2 with shv := { c2.shv with joins := c2.shv.joins.filter (fun k => decide (k ≠ j)) } } j.2.2 1 g
  | none =>
    match ((sheafOf c2 tag).map Sheaf.route).bind (fun r => r.find? (fun m => decide (m.rank = rank))) with
    | some m => chanSoloDown c2 m.port 1 g
    | none => if c.clk.role = 3 then c2 else chanSoloUp c2 1 g

/-! ### Sheaf states (R229, R260, R261) -/
/-- The code of a state (R260). -/
def stateCode : SheafState → Nat
  | .forming => 1 | .ready => 2 | .running => 3 | .suspended => 4 | .closing => 5 | .closed => 6
/-- A sheaf changes state: reported and recorded (R261), with what the strict report follows (R56). -/
def sheafTo (s : Sheaf) (st : SheafState) (cause : Nat) (c : Chan) : Chan :=
  let t := { s with state := st, suspendedAt := if st = .suspended then chanClock c else s.suspendedAt }
  strictUpdate (siloEv (putSheaf c t) t .sheafState [t.tag, stateCode st, cause])
/-- Is the sheaf effectively strict at this unit (R302)? -/
def sheafStrict (c : Chan) (s : Sheaf) : Bool := effStrict c.start.strictForce s.program
/-- Does the program permit straggler exclusion (R236)? -/
def straggles (c : Chan) (s : Sheaf) : Bool := decide (effStraggler c.start.strictForce s.program ≠ 0)
/-- Its own header fields in a packet. -/
def sheafFlds (s : Sheaf) : List Fld := [⟨8, 5, s.slot⟩, ⟨16, 32, s.tag⟩]
/-- The cluster whose ports include port p (R307). -/
def portCluster (p : Nat) : Nat := p / 64 % 4

/-! ### Generations (R231, R235, R236, R270) -/
/-- Generation n of the sheaf as held here. -/
def genOf (s : Sheaf) (n : Nat) : Gen := (s.gens.find? (fun g => decide (g.num = n))).getD { num := n }
/-- Put a generation, by ascending number. -/
def insGen (g : Gen) : List Gen → List Gen
  | [] => [g]
  | x :: xs => if g.num < x.num then g :: x :: xs else if g.num = x.num then g :: xs else x :: insGen g xs
/-- Replace or enter a generation. -/
def putGen (s : Sheaf) (g : Gen) : Sheaf := { s with gens := insGen g s.gens }
/-- Has it resolved? -/
def genDone (g : Gen) : Bool := decide (g.state = .launched ∨ g.state = .failed)
/-- Is generation n open for input here? The apex opens generations (R231); a level below takes any that has not resolved. -/
def genTakes (s : Sheaf) (n : Nat) : Bool :=
  decide (s.oldest ≤ n) && !genDone (genOf s n) &&
  (if s.isApex then decide (n < s.openTo) && decide (s.state ≠ .forming ∧ s.state ≠ .ready ∧ s.state ≠ .closed) else true)
/-- B_g (R236): the unpark stamp where a parked member moved it, the run start, or the fire time of g − 1 once it is known here. -/
def baseOf (s : Sheaf) (n : Nat) : Option Nat :=
  match (genOf s n).base with
  | some b => some b
  | none => if n = s.first then some s.runStart else (s.fires.find? (fun f => decide (f.1 + 1 = n))).map Prod.snd
/-- The deadline A_g. -/
def deadlineOf (s : Sheaf) (n : Nat) : Option Nat := (baseOf s n).map (fun b => b + 1000 * pgGenTimeoutUs s.program)
/-- Is a token in time for its generation (R236)? While A_g is not known here, g − 1 has not fired, so no stamp is later. -/
def inTime (s : Sheaf) (t : Tok) : Bool := match deadlineOf s t.gen with | some a => decide (t.time ≤ a) | none => true
/-- The instant of a level's cutoff, or of the apex's decision (R236, R270). -/
def cutoffOf (c : Chan) (s : Sheaf) (n : Nat) : Option Nat := (deadlineOf s n).map (fun a => a + dUp (chanLevel c))
/-- Does traffic of a run and generation reach the sheaf's current run (R235)? A sheaf formed again from `AUTO` joins takes the resumption
count of the first it sees (assumption 57). -/
def rcFits (s : Sheaf) (rc n : Nat) : Bool := (s.reformed || decide (rc = s.rc.toNat)) && decide (s.oldest ≤ n)
/-- Traffic of another run, or of a generation that has resolved, is dropped and counted (R235). -/
def countStale (c : Chan) : Chan := { c with shv := { c.shv with staleDrop := ctrInc c.shv.staleDrop } }
/-- Learn the resumption count of a run that was formed again. -/
def learnRc (rc : Nat) (s : Sheaf) : Sheaf := if s.reformed then { s with rc := BitVec.ofNat 16 rc, reformed := false } else s
/-- The kinds of a generation's payload granules, shadow granules last (R404). -/
def kindsOf (s : Sheaf) (n : Nat) : List (Nat × Nat) := genKinds s.program n
/-- Does the sheaf hold rank r beneath this channel, or anywhere when this is the apex? -/
def ranksHere (s : Sheaf) : List Nat := if s.isApex then s.members.map Member.rank else s.route.map RouteMem.rank
/-- Is a member one that generation n does not wait for (R231, R236, R253)? A fenced one whose token for it is held counts as normal (R431). -/
def excluded (c : Chan) (s : Sheaf) (n : Nat) (r : Nat) : Bool :=
  match memberOf s r with
  | none => s.isApex
  | some m => decide (n < m.start) || decide (m.state = .lost) ||
      (decide (m.state = .fenced) && straggles c s && !s.toks.any (fun t => decide (t.rank = r) && decide (t.gen = n)))
/-- The ranks generation n waits for. -/
def neededRanks (c : Chan) (s : Sheaf) (n : Nat) : List Nat := (ranksHere s).filter (fun r => !excluded c s n r)
/-- The position of a rank. -/
def rankFpa (s : Sheaf) (r : Nat) : Nat :=
  match memberOf s r with
  | some m => m.fpa
  | none => ((s.route.find? (fun x => decide (x.rank = r))).map RouteMem.fpa).getD 0
/-- Does position f lie beneath the channel at position a? -/
def fpaUnder (a f : Nat) : Bool :=
  if fpaRole a = 3 then true
  else if fpaRole a = 2 then decide (fpaYard a = fpaYard f)
  else if fpaRole a = 1 then decide (fpaYard a = fpaYard f) && decide (fpaBarn a = fpaBarn f)
  else decide (a = f)
/-- Does an exception entry stand for a rank (R273)? -/
def excCovers (s : Sheaf) (e : Exc) (r : Nat) : Bool := if e.subtree then fpaUnder e.fpa (rankFpa s r) else decide (e.rank = r)
/-- Is a rank listed among a generation's exceptions? -/
def excListed (s : Sheaf) (g : Gen) (r : Nat) : Bool := g.exc.any (fun e => excCovers s e r)
/-- Has everything that this channel will count been taken: every rank waited for is covered or listed (R270, R271)? -/
def allIn (c : Chan) (s : Sheaf) (g : Gen) : Bool := (neededRanks c s g.num).all (fun r => g.ranks.contains r || (!s.isApex && excListed s g r))
/-- A token of a rank for a generation. -/
def tokOf (s : Sheaf) (r n : Nat) : Option Tok := s.toks.find? (fun t => decide (t.rank = r) && decide (t.gen = n))
/-- The apex's members by the token of its oldest unresolved generation (R230). -/
def refreshMembers (s : Sheaf) : Sheaf :=
  if s.isApex then
    let g := genOf s s.oldest
    { s with members := s.members.map (fun m =>
        if m.state = .joined ∨ m.state = .arrived then
          { m with state := if g.ranks.contains m.rank || (tokOf s m.rank s.oldest).isSome then .arrived else .joined }
        else m) }
  else s

/-- A sheaf that is `READY` runs when a token is held, its own or one a partial stands for, except that a strict one waits while a slew is in progress
(R56, R229). A level below the apex, which hears of no state, takes it as running from the same moment. -/
def runCheck (tag : Nat) (c : Chan) : Chan :=
  match sheafOf c tag with
  | none => c
  | some s =>
    let held := s.toks.any (fun t => decide (s.oldest ≤ t.gen)) || s.gens.any (fun g => decide (s.oldest ≤ g.num) && !g.ranks.isEmpty)
    if decide (s.state = .ready) && held && !(sheafStrict c s && c.clk.time.slewing) then
      if s.isApex then sheafTo { s with openTo := satN (2 ^ 48) (s.oldest + pgInflight s.program) } .running 0 c
      else strictUpdate (putSheaf c { s with state := .running })
    else c

/-! ### The generation record and the fine window (R340, R341) -/
/-- `PAYLOAD_HASH` and `GRANULE_MAP` of a landed payload over the lane table's granules (R341). -/
def payHash (s : Sheaf) (gs : List Granule) : Nat × Nat :=
  let l := (gs.take (pgPayGranules s.program)).map Granule.data
  (leNat ((sha256 (l.flatMap granBytes)).take 8), layNat (l.zipIdx.map (fun x => (⟨2 * x.2, 2, crc32 (granBytes x.1) % 4⟩ : Fld))))
/-- The counted members of a generation at a barn: port, rank, whether forced, hash and map. -/
def countedHere (s : Sheaf) (n : Nat) : List (Nat × Nat × Bool × Nat × Nat × Nat) :=
  (s.toks.filter (fun t => decide (t.gen = n) && t.taken)).map (fun t =>
    match t.payload with
    | some gs => if t.forced then (t.port, t.rank, true, t.time, 0, 0) else let h := payHash s gs; (t.port, t.rank, false, t.time, h.1, h.2)
    | none => (t.port, t.rank, true, t.time, 0, 0))
/-- `GROUP_HASH` (R340). -/
def groupHash (l : List (Nat × Nat × Bool × Nat × Nat × Nat)) : Gran :=
  lay ((List.range 16).map (fun m =>
    let ps := (List.range 16).filterMap (fun i => l.find? (fun x => decide (x.1 = 16 * m + i)))
    let bytes := ps.flatMap (fun x => leBytes 4 x.2.1 ++ leBytes 8 x.2.2.2.2.1)
    (⟨16 * m, 16, if ps.isEmpty then 0 else leNat ((sha256 bytes).take 2)⟩ : Fld)))
/-- Write the fine-window entries of a slot for a generation (R341): one for each member beneath the barn. -/
def writeFine (s : Sheaf) (n : Nat) (l : List (Nat × Nat × Bool × Nat × Nat × Nat)) (c : Chan) : Chan :=
  let put := fun (t : Tab FineEnt) (r : RouteMem) =>
    let k := (r.port * 32 + s.slot) * 65536 + n % 65536
    match l.find? (fun x => decide (x.2.1 = r.rank)) with
    | some x => tabSet {} t k { time := x.2.2.2.1, hash := x.2.2.2.2.1, map := x.2.2.2.2.2 }
    | none => tabSet {} t k { time := 2 ^ 64 - 1, hash := 0, map := 0 }
  { c with gran := { c.gran with fine := s.route.foldl put c.gran.fine } }
/-- The generation record (R340), and at a barn the fine window: when the generation resolves at this channel. Yards and mills that are no
apex write none (R332). -/
def writeGen (s : Sheaf) (g : Gen) (c : Chan) : Chan :=
  let barn := decide (c.clk.role = 1)
  if !barn && !s.isApex then c
  else
    let l := countedHere s g.num
    let failed := decide (g.state = .failed)
    let own := (l.map (fun x => x.2.2.2.1)).foldl max 0
    let absent := if s.isApex then g.absent else popcount 256 g.absMap
    let g1 := lay [⟨0, 48, g.num⟩, ⟨48, 4, g.branch⟩, ⟨52, 1, gf g.status 206 206⟩, ⟨53, 1, b2n g.forced⟩, ⟨54, 1, b2n failed⟩,
      ⟨55, 1, b2n (g.passed = some true)⟩, ⟨56, 1, b2n s.isApex⟩, ⟨63, 1, b2n g.bumped⟩, ⟨64, 8, if failed then g.cause else 0⟩,
      ⟨80, 64, if failed then 0 else g.fire⟩, ⟨144, 64, if s.isApex then g.completion else own⟩,
      ⟨208, 19, if s.isApex then g.counted else l.length⟩, ⟨227, 19, absent⟩]
    let body := [g1, if failed then 0#256 else g.hash, g.status, BitVec.ofNat 256 g.absMap, BitVec.ofNat 256 g.lateMap, BitVec.ofNat 256 g.unhMap,
      if barn then groupHash l else 0#256]
    let r := recWriteAt c 2 s.tag s.rc.toNat body true 256
    let c1 := if r.2 then chanEv r.1 .ledgerSeqSaturated [] else r.1
    if barn then writeFine s g.num l c1 else c1

end Sys2Proof.Machine
end

