-- ==== Sys2Proof/Machine/ChanTick.lean ====
section
/-! DEFINITION. A channel's time clock (R54 to R72, R123, R201): one edge with everything that falls due on it, runs of edges to an instant, and the
rows that name one. -/
namespace Sys2Proof.Machine

/-! ### Injections that keep something dark (R439) -/
/-- Is the transmitter of a port dark by injection: the whole port, the fibre it sends on, or every port (kinds 0x01 to 0x03)? -/
def portDark (c : Chan) (p : Nat) : Bool :=
  let m := (chanPort c p).mode
  c.inj.any (fun i => (decide (i.kind = 1) && decide (i.arg = p)) || decide (i.kind = 3) ||
    (decide (i.kind = 2) && decide (i.arg = p) && (match m with
      | .singleA => decide (i.arg2 = 0) | .singleB => decide (i.arg2 = 1) | .dual => decide (i.arg2 = (if isUpPort p then 1 else 0)))))
/-- Is a reference treated as absent (kind 0x07)? -/
def refDark (c : Chan) (r : Nat) : Bool := c.inj.any (fun i => decide (i.kind = 7) && decide (i.arg = r))

/-! ### One edge -/
/-- The ports whose transmitters are lit (R20, R123, R439, R455): none in QUARANTINE or before the image names a role. -/
def litPorts (c : Chan) : List Nat :=
  if c.start.phase = 4 ∨ c.clk.role = 0 then [] else (List.range 256 ++ upPorts c).filter (fun p => !portDark c p)
/-- A grant of port p's present slot ahead of its class is counted (R321, R329). -/
def portPromote (p : Nat) (c : Chan) : Chan :=
  if (chanPort c p).dat.early then { c with shv := { c.shv with eng := { c.shv.eng with promote := ctrInc c.shv.eng.promote } } } else c
/-- A frame slot at the channel's ports, every 16 edges (R123), with what goes out every 64 beats (R139). -/
def chanFrames (c : Chan) : Chan :=
  if c.clk.time.edges % 16 ≠ 0 then c
  else (litPorts c).foldl (fun (a : Chan) p =>
    chanInfoSend p (portPromote p (chanPortDo p (portSlot p (!isUpPort p) (chanSpan a p) (chanBeatCtx a)) a))) c
/-- A slew has ended: strict sheaves that it held back may run (R56). -/
def chanSlewed (was : Bool) (c : Chan) : Chan :=
  if was && !c.clk.time.slewing then (c.shv.sheaves.map Sheaf.tag).foldl (fun (a : Chan) t => runCheck t a) c else c
/-- What the edge brings to the TDCs (R111), and to a committed switch of references (R201). -/
def chanParts (c : Chan) : Chan :=
  let c1 : Chan := { c with clk := { c.clk with tdcs := tabMap {} (fun n t => tdcEdge n c.clk.time t) c.clk.tdcs } }
  if c1.clk.sel.switch.any Switch.committed then chanClk switchFinish c1 else c1
/-- The channel as an access on its next edge finds it: time as it is after the edge, and nothing else that the edge brings (assumption 74). -/
def chanOnEdge (c : Chan) : Chan := { c with clk := (clkTime timeTick c.clk).clk }
/-- One edge of the channel's time clock on which `mid` acts: it reads time as it is after the edge, and what the edge brings comes after it
(assumption 74). -/
def chanEdgeWith (mid : Chan → Chan) (c : Chan) : Chan :=
  let o := clkTime timeTick c.clk
  let j := forwardJump c.clk.time o.clk.time
  let c1 := mid (chanOnEdge c)
  let c2 := if j = 0 then c1 else { c1 with clk := outSkips c.clk (o.clk.time.pod - j) o.clk.time.pod c1.clk }
  chanFrames (chanSlewed c.clk.time.slewing (chanParts (chanTold c.clk o c2)))
/-- One edge of the channel's time clock. -/
def chanEdge (c : Chan) : Chan := chanEdgeWith id c
/-- Edges until something has come about, `n` at most. -/
def chanRun (done : Chan → Bool) : Nat → Chan → Chan
  | 0, c => c
  | n + 1, c => if done c then c else chanRun done n (chanEdge c)
/-- `n` edges. -/
def chanEdges (n : Nat) (c : Chan) : Chan := chanRun (fun _ => false) n c
/-- Edges until the clock has counted `n` since reset: the channel's own timers, which no step or slew moves. -/
def chanToEdge (n : Nat) (c : Chan) : Chan := chanRun (fun x => decide (n ≤ x.clk.time.edges)) (n - c.clk.time.edges) c
/-- Edges until the channel's own clock has reached `ns`. -/
def chanToClock (ns : Nat) (c : Chan) : Chan := chanToEdge (edgeAt ns) c
/-- Edges until pod time has reached `ns`. -/
def chanTo (ns : Nat) (c : Chan) : Chan := chanRun (fun x => reached x.clk.time ns) (edgesTo c.clk.time ns) c
/-- Edges until pod time stands at a whole multiple of `unit` ns: none when it has just reached one. -/
def chanToWhole (unit : Nat) (c : Chan) : Chan :=
  if c.clk.time.acc % accOfNs unit < edgeStep c.clk.time then c else chanTo ((c.clk.time.ns / unit + 1) * unit) c

/-! ### Rows that name an instant (assumption 11) -/
/-- A row that names a deadline on the channel's own clock, as a time-clock edge: with none to come nothing happens; else the clock runs to it, and the
row acts if it still stands. -/
def chanAtEdge (due : Chan → Option Nat) (act : Chan → Chan) (c : Chan) : Chan :=
  match due c with
  | none => c
  | some n =>
    let c1 := chanToEdge n c
    if (due c1).any (fun m => decide (m ≤ c1.clk.time.edges)) then act c1 else c1
/-- The same for a deadline on the channel's own clock in ns. -/
def chanAtClock (due : Chan → Option Nat) (act : Chan → Chan) (c : Chan) : Chan := chanAtEdge (fun x => (due x).map edgeAt) act c
/-- The same for a deadline in pod time, in ns. -/
def chanAtPod (due : Chan → Option Nat) (act : Chan → Chan) (c : Chan) : Chan :=
  match due c with
  | none => c
  | some n =>
    let c1 := chanTo n c
    if (due c1).any (fun m => reached c1.clk.time m) then act c1 else c1
/-- A deadline of the channel's clock, and what it brings about there. -/
def chanClkAt (due : ChanClock → Option Nat) (act : ChanClock → ClockOut) (c : Chan) : Chan := chanAtEdge (fun x => due x.clk) (chanClk act) c
/-- The pending pod-time change comes due (R57, R590). -/
def chanStepRow (c : Chan) : Chan :=
  match c.clk.time.pendPod with
  | none => c
  | some n => chanRun (fun x => decide (x.clk.time.pendPod ≠ some n)) (edgesTo c.clk.time n.at_ + slewEdges c.clk.time) c
/-- The first pending UTC-offset change comes due (R63). -/
def chanUtcRow (c : Chan) : Chan :=
  match c.clk.time.pendUtc with
  | [] => c
  | n :: _ => chanTo n.at_ c
/-- The slew that runs ends (R61), and strict sheaves that it held back may run (R56). -/
def chanSlewRow (c : Chan) : Chan := chanRun (fun x => decide (x.clk.time.slews.length < c.clk.time.slews.length)) (slewEdges c.clk.time) c
/-- Pod time reaches all-ones (R69). -/
def chanSatRow (c : Chan) : Chan := chanRun (fun x => x.clk.time.saturated) (edgesTo c.clk.time (nsMax + 1)) c
/-- Port p's next beat slot comes (R135, R136): within 64 frame slots. -/
def chanBeatRow (p : Nat) (c : Chan) : Chan :=
  if ctrlLive (chanPort c p) then
    chanRun (fun x => decide ((chanPort x p).dat.slot = 0)) 1040 (chanRun (fun x => decide ((chanPort x p).dat.slot ≠ 0)) 32 c)
  else c
/-- A measurement of TDC n overflows (R111). -/
def chanOverRow (n : Nat) (c : Chan) : Chan := chanRun (fun x => !(chanTdc x n).measuring) (2 ^ 32 + 1) c
/-- Something that waits for port p to have been in a state for so many ns (R149): the state must stand, and stand to the end. -/
def chanPortAfter (p : Nat) (st : LinkState) (ns : Nat) (act : Chan → Chan) (c : Chan) : Chan :=
  chanAtEdge (fun x => if (chanPort x p).state = st then some ((chanPort x p).since + edgeAt ns) else none) act c
/-- Training restarts (R31, R149): from TRAINING after 50 ms, from FAULTED after 10 s. -/
def chanRetrainRow (p : Nat) (st : LinkState) (c : Chan) : Chan :=
  chanPortAfter p st (if st = .faulted then 10 * nsSec else 50000000) (chanRetrain p st) c
/-- 1 ms without light in training (R149). -/
def chanNoLightRow (p : Nat) (c : Chan) : Chan := chanAtEdge (fun x => noLightAt (chanPort x p)) (chanPortDo p (portNoLight p)) c
/-- A NAK is repeated (R133). -/
def chanNakRow (p : Nat) (c : Chan) : Chan :=
  if nakOpen (chanPort c p) then
    let c1 := chanRun (fun x => nakDue (chanPort x p)) (16 * 65536) c
    if nakDue (chanPort c1 p) then chanPortDo p (portNakRepeat p) c1 else c1
  else c
/-- A gear of the source loop has been held for its time (R163). -/
def chanGearRow (c : Chan) : Chan :=
  chanAtEdge (fun x => if gearRuns x.clk.loop then some (gearEnd (chanLoopK x) x.clk.loop) else none)
    (fun x => setLoop x (gearAdvance x.clk.time.edges x.clk.loop)) c
/-- A slot falls due (R144, R323): a deferred one is tried again now. -/
def chanSlotRow (p : Nat) (c : Chan) : Chan :=
  if isUpPort p ∨ !ctrlLive (chanPort c p) then c
  else if (chanPort c p).cal.deferred then slotTry p c
  else chanSlotDue p (chanToEdge (slotDueAt c p) c)
/-- A slot has been deferred for 10 s (R146). -/
def chanForceRow (p : Nat) (c : Chan) : Chan := chanAtEdge (fun x => slotForceAt (chanPort x p)) (chanSlotForced p) c
/-- Not locked 100 µs after start (R115). -/
def chanLockRow (n : Nat) (c : Chan) : Chan := chanTdcTimeout n (chanToEdge 128000 c)
/-- A whole second of pod time (R177, R178). -/
def chanLineRow (c : Chan) : Chan := chanLineSend (chanToWhole nsSec c)
def chanCombineRow (c : Chan) : Chan := chanLineCombine (chanToWhole nsSec c)
/-- No `CONFIRM` within 1 ms of `WRAP_HI` (R475, R477). -/
def confirmAt (upper : Bool) (x : Port) : Option Nat :=
  if upper && x.key.newKey.isSome && (decide (x.state = .training) || (x.key.rekeying && x.key.switchAt.isNone)) then some (x.key.wrapAt + edgeAt 1000000)
  else none
def chanConfirmRow (p : Nat) (c : Chan) : Chan :=
  chanAtEdge (fun x => confirmAt (!isUpPort p) (chanPort x p)) (chanPortDo p (keyTimeout (!isUpPort p) p)) c
/-- Is a rekey due (R477): after 2^31 blocks, or for a new fabric key? -/
def rekeyDue (x : Port) : Bool := decide (2 ^ 31 ≤ x.key.blocks) || x.key.rotate
def chanRekeyRow (p : Nat) (c : Chan) : Chan :=
  if chanUp c p && (chanPort c p).key.authenticated then
    let c1 := chanRun (fun x => rekeyDue (chanPort x p) || !chanUp x p) (2 ^ 48) c
    if rekeyDue (chanPort c1 p) then chanRekey p c1 else c1
  else c
/-- A failed rekey is tried again after 10 s (R477). -/
def chanRekeyAgain (p : Nat) (c : Chan) : Chan :=
  chanAtEdge (fun x => if 0 < (chanPort x p).key.fails then (chanPort x p).key.failAt.map (fun t => t + 10 * edgesPerSec) else none) (chanRekey p) c

end Sys2Proof.Machine
end

