-- ==== Sys2Proof/Machine/ChanLevel.lean ====
section
/-! DEFINITION. How a channel carries arrivals up the tree (R233 to R235, R270 to R274, R286 to R288) and shares the reduction among its
threshers (R308 to R315, R405): tokens, payloads, partials, tasks. -/
namespace Sys2Proof.Machine

/-! ### Injections that strike here (R439) -/
/-- The running injection of a kind and argument, with something left to strike. -/
def injFind (c : Chan) (kind arg : Nat) : Option Injection :=
  c.inj.find? (fun i => decide (i.kind = kind) && decide (i.arg = arg) && decide (i.left ≠ some 0))
/-- Replace an injection. -/
def injPut (i : Injection) (c : Chan) : Chan := { c with inj := c.inj.map (fun j => if j.id = i.id then i else j) }
/-- Kind 0x05: the granule of this generation that is poisoned on landing, if any. -/
def injPoison (tag n : Nat) (c : Chan) : Option Nat × Chan :=
  match c.inj.find? (fun i => decide (i.kind = 5) && decide (i.arg = tag) && (i.gens.contains n || decide (i.left ≠ some 0))) with
  | none => (none, c)
  | some i =>
    if i.gens.contains n then (some i.arg2, c)
    else (some i.arg2, injPut { i with gens := n :: i.gens, left := i.left.map (fun k => k - 1) } c)
/-- Poison granule k of a payload. -/
def poisonAt (k : Nat) (gs : List Granule) : List Granule := gs.mapIdx (fun i g => if i = k then { g with poison := true } else g)

/-! ### Partials (R272, R273) -/
/-- An exception entry. -/
def excWord (e : Exc) : Nat := layNat [⟨0, 32, e.fpa⟩, ⟨32, 18, e.rank⟩, ⟨50, 2, e.cls⟩, ⟨52, 1, b2n e.subtree⟩]
/-- Entries, four to a granule. -/
def excGrans (l : List Exc) : List Granule :=
  (chunks 4 l.length l).map (fun q => plain (lay (q.mapIdx (fun i e => (⟨64 * i, 64, excWord e⟩ : Fld)))))
/-- Read the entries of granules. -/
def excRead (n : Nat) (gs : List Granule) : List Exc :=
  ((gs.flatMap (fun g => (List.range 4).map (elemAt 64 g.data))).take n).map (fun w =>
    { fpa := bitsOf w 31 0, rank := bitsOf w 49 32, cls := bitsOf w 51 50, subtree := w.testBit 52 })
/-- How many ranks not covered are listed in a class. -/
def clsCount (s : Sheaf) (g : Gen) (l : List Exc) (cls : Nat) : Nat :=
  ((ranksHere s).filter (fun r => !g.ranks.contains r && l.any (fun e => decide (e.cls = cls) && excCovers s e r))).length
/-- `FORM` of a packet. -/
def packForm (k : List Granule) : Nat := match k with | g :: _ => gf g.data 14 13 | [] => 2
/-- The packets of a partial: a further one of a generation goes on with the segment numbers of the ones before it (assumption 58). -/
def partialPackets (s : Sheaf) (g : Gen) (form rank : Nat) (f : Facts) (exc : List Exc) (body : List Granule) : List (List Granule) :=
  let rest := body ++ excGrans exc
  let pieces := if rest.isEmpty then [[]] else chunks 126 rest.length rest
  let base := if form = 1 then 0 else (g.sent.filter (fun k => decide (packForm k.2 ≠ 1))).length
  let raw := decide (form = 1)
  let g1 := lay [⟨0, 64, f.maxArrive⟩, ⟨64, 32, if raw then 0 else f.nans⟩, ⟨96, 32, if raw then 0 else f.pinfs⟩,
    ⟨128, 32, if raw then 0 else f.ninfs⟩, ⟨160, 32, if raw then 0 else f.poisons⟩, ⟨192, 64, f.memSum⟩]
  pieces.mapIdx (fun i p =>
    plain (lay (⟨0, 8, 0x43⟩ :: sheafFlds s ++ [⟨13, 2, form⟩, ⟨15, 1, b2n (decide (i + 1 = pieces.length))⟩, ⟨48, 48, g.num⟩,
      ⟨96, 16, s.rc.toNat⟩, ⟨112, 8, base + i⟩, ⟨120, 18, rank⟩, ⟨138, 19, f.contrib⟩, ⟨157, 19, f.forced⟩, ⟨176, 19, clsCount s g exc 0⟩,
      ⟨195, 19, clsCount s g exc 1⟩, ⟨214, 19, clsCount s g exc 2⟩, ⟨233, 1, b2n f.freqAll⟩, ⟨234, 1, b2n f.unaligned⟩, ⟨235, 2, f.level⟩,
      ⟨237, 19, exc.length⟩])) :: plain g1 :: p)
/-- Send packets of a generation up, and keep them for a link's return (R274). -/
def sendUpKeep (tag n : Nat) (ks : List (List Granule)) (c : Chan) : Chan :=
  match sheafOf c tag with
  | none => c
  | some s =>
    let g := genOf s n
    let r := sendNoted ks c
    putSheaf r.1 (putGen s { g with sent := g.sent ++ r.2 })
/-- Change a generation of a sheaf. -/
def updGen (tag n : Nat) (f : Gen → Gen) (c : Chan) : Chan :=
  match sheafOf c tag with
  | none => c
  | some s => putSheaf c (putGen s (f (genOf s n)))
/-- Change a sheaf. -/
def updSheaf (tag : Nat) (f : Sheaf → Sheaf) (c : Chan) : Chan :=
  match sheafOf c tag with | none => c | some s => putSheaf c (f s)

/-! ### Threshers (R308 to R311) -/
/-- The thresher queue of t. -/
def thresherOf (c : Chan) (t : Nat) : Thresher := tabGet {} c.shv.eng.threshers t
/-- Replace a thresher. -/
def setThresher (c : Chan) (t : Nat) (x : Thresher) : Chan :=
  { c with shv := { c.shv with eng := { c.shv.eng with threshers := tabSet {} c.shv.eng.threshers t x } } }
/-- Granules in a queue (R309). -/
def queueGrans (x : Thresher) : Nat := (x.queue.map (fun k => k.ins.length)).sum
/-- The fill of all queues in percent (R286, R289). -/
def queueFill (c : Chan) : Nat :=
  let w := workingThreshers c
  if w.isEmpty then 0 else (w.map (fun t => queueGrans (thresherOf c t))).sum * 100 / (512 * w.length)
/-- Of some threshers, the one with the shortest queue that has room for n granules, lowest number on a tie (R309, R310). -/
def shortest (c : Chan) (n : Nat) : List Nat → Option Nat
  | [] => none
  | t :: ts =>
    let rest := shortest c n ts
    let d := queueGrans (thresherOf c t)
    if 512 < d + n then rest
    else match rest with
      | none => some t
      | some u => if queueGrans (thresherOf c u) < d then some u else some t
/-- Place a task in a cluster, or in any other where the cluster has no working thresher left; none while every queue is full (R309). -/
def placeTask (cluster : Nat) (k : Task) (c : Chan) : Option Chan :=
  let w := workingThreshers c
  let mine := w.filter (fun t => decide (t / 16 = cluster))
  match shortest c k.ins.length (if mine.isEmpty then w else mine) with
  | none => none
  | some t => let x := thresherOf c t; some (setThresher c t { x with queue := x.queue ++ [k] })
/-- Place several, or none. -/
def placeTasks (cluster : Nat) : List Task → Chan → Option Chan
  | [], c => some c
  | k :: ks, c => match placeTask cluster k c with | none => none | some d => placeTasks cluster ks d
/-- The cycles an input demands (R308, R327): two for the rank granule of an `ARG` block. -/
def inCycles (f op : Nat) : TaskIn → Nat
  | .raw _ _ => costCycles f
  | .part b => if isArg op then costCycles f + 2 else costCycles f * (blockOut f op b).length
/-- Count the cycles of the window. -/
def addCycles (ks : List (Nat × Nat)) (l : List TaskIn) (c : Chan) : Chan :=
  let n := (List.zipWith (fun (k : Nat × Nat) i => inCycles k.1 k.2 i) ks l).sum
  { c with shv := { c.shv with eng := { c.shv.eng with cycles := c.shv.eng.cycles + n } } }

/-! ### Taking inputs (R234, R262, R268, R286) -/
/-- Poisoned lanes among granules of these kinds (R289). -/
def poisonedLanes (ks : List (Nat × Nat)) (gs : List Granule) : Nat :=
  (List.zipWith (fun (k : Nat × Nat) (g : Granule) => if g.poison then fmtLanes k.1 else 0) ks gs).sum
/-- Count them. -/
def countPoison (n : Nat) (c : Chan) : Chan :=
  { c with shv := { c.shv with eng := { c.shv.eng with poisonLanes := ctrAdd c.shv.eng.poisonLanes n } } }
/-- The facts of one member (R272, R281). -/
def tokFacts (s : Sheaf) (t : Tok) : Facts :=
  let ks := payKinds (pgGroupList s.program)
  let gs := t.payload.getD []
  let x := paySpecials ks gs
  { contrib := if t.forced then 0 else 1, forced := if t.forced then 1 else 0, nans := if t.forced then 0 else x.1,
    pinfs := if t.forced then 0 else x.2.1, ninfs := if t.forced then 0 else x.2.2,
    poisons := if t.forced then 0 else poisonCount ks.length gs, memSum := memberTerm s.tag t.rank, maxArrive := t.time,
    freqAll := t.freqReq, unaligned := t.unaligned, level := t.level }
/-- The mode of a generation is fixed on its first input (R286): passed through where the channel is saturated and is no apex. The homes of
its blocks are fixed on the same edge (R310). -/
def fixMode (tag n : Nat) (c : Chan) : Chan :=
  match sheafOf c tag with
  | none => c
  | some s =>
    let g := genOf s n
    if g.passed.isSome then c
    else
      let p := c.shv.eng.saturated && !s.isApex
      let c1 := putSheaf c (putGen s { g with passed := some p, homes := workingThreshers c })
      if p then { c1 with shv := { c1.shv with eng := { c1.shv.eng with passGens := ctrInc c1.shv.eng.passGens } } } else c1
/-- Read a result's granules as lanes again (R280). -/
def resultRead : List Group → List Gran → List GroupRes
  | [], _ => []
  | k :: ks, gs =>
    let n := groupRes k
    let mine := gs.take n
    let vals := if isArg k.op then (mine.zipIdx.filter (fun x => decide (x.2 % 2 = 0))).map Prod.fst else mine
    let v := leNat (vals.flatMap granBytes)
    let w := resBits k.fmt k.form
    { group := k, lanes := (List.range (groupLanes k)).map (fun i => ({ bits := bitsOf v (w * i + w - 1) (w * i) } : ResLane)), ranks := [] } ::
      resultRead ks (gs.drop n)
/-- The ranks of members counted here for a generation whose payloads are outliers (R410). -/
def outlierRanks (s : Sheaf) (n : Nat) (ts : List Tok) : List Nat :=
  let k := pgInflight s.program
  let ref := genOf s (n - k)
  if n < s.runFirst + k ∨ ref.state ≠ .launched ∨ ref.result.isEmpty ∨ gf ref.status 170 152 = 0 then []
  else
    let rs := resultRead (pgGroupList s.program) ref.result
    (ts.filter (fun t => !t.forced && outlierMember s.program n s.runFirst (gf ref.status 170 152) rs (t.payload.getD []))).map Tok.rank
/-- An `OUTLIER_NOTE` for the flagged ranks (R410): sent up, or held at an apex; and the audit record that names them. -/
def outlierNote (tag n : Nat) (l : List Nat) (c : Chan) : Chan :=
  match sheafOf c tag with
  | none => c
  | some s =>
    if l.isEmpty then c
    else
      let low := l.foldl min (l.headD 0)
      let c1 := chanAudit c (some (s.tag, s.rc.toNat)) (0 :: n :: l.length :: l)
      if s.isApex then updGen tag n (fun g => { g with outlier := true }) c1
      else chanSoloUp c1 1 (lay (⟨0, 8, 0x4F⟩ :: sheafFlds s ++ [⟨48, 18, low⟩, ⟨80, 48, n⟩, ⟨128, 16, s.rc.toNat⟩, ⟨144, 19, l.length⟩]))
/-- Cover ranks: they leave the exceptions, and a barn notes those counted after its first partial (R271, R340). -/
def coverRanks (s : Sheaf) (l : List Nat) (g : Gen) : Gen :=
  let late := if g.sentBody then (s.route.filter (fun r => l.contains r.rank)).foldl (fun a r => Nat.lor a (2 ^ r.port)) g.lateMap else g.lateMap
  { g with ranks := g.ranks ++ l.filter (fun r => !g.ranks.contains r), exc := g.exc.filter (fun e => e.subtree || !l.contains e.rank), lateMap := late }
/-- Take a member's token into its generation: its payload is reduced here, or goes up raw (R287). -/
def takeTok (tag : Nat) (t : Tok) (c0 : Chan) : Chan :=
  let c := fixMode tag t.gen c0
  match sheafOf c tag with
  | none => c
  | some s =>
    let g := genOf s t.gen
    let ks := kindsOf s t.gen
    let gs := t.payload.getD []
    let s1 := { s with toks := s.toks.map (fun u => if u = t then { u with taken := true } else u) }
    let f := tokFacts s t
    let c1 := countPoison (poisonedLanes ks gs) c
    if g.passed = some true then
      let c2 := outlierNote tag t.gen (outlierRanks s t.gen [t]) (putSheaf c1 (putGen s1 (coverRanks s [t.rank] g)))
      sendUpKeep tag t.gen (partialPackets s g 1 t.rank f [] gs) c2
    else
      let blocks := gs.map (fun x => TaskIn.raw t.rank x)
      let g1 := { coverRanks s [t.rank] g with
        facts := factsAdd g.facts f,
        batch := if t.forced then g.batch else g.batch ++ [({ cluster := portCluster t.port, blocks := blocks } : Landed)] }
      addCycles ks (if t.forced then [] else blocks) (putSheaf c1 (putGen s1 g1))
/-- May a token be taken now? That of a member that is LOST is not counted (R236). -/
def tokReady (s : Sheaf) (t : Tok) : Bool := !t.taken && (match memberOf s t.rank with | some m => decide (m.state ≠ .lost) | none => true) && (t.forced || t.payload.isSome) && genTakes s t.gen && inTime s t &&
  !(genOf s t.gen).ranks.contains t.rank && !((genOf s t.gen).cutoff && s.isApex)
/-- Take every token that may be. -/
def takeToks (tag : Nat) (c : Chan) : Chan :=
  match sheafOf c tag with
  | none => c
  | some s => s.toks.foldl (fun (a : Chan) t => match sheafOf a tag with
    | none => a
    | some x => if tokReady x t then takeTok tag t a else a) c

/-! ### Forming tasks (R310, R405) -/
/-- Cut a list into n nearly equal pieces. -/
def splitInto {α : Type} (n : Nat) (l : List α) : List (List α) :=
  (List.range n).map (fun i => (l.drop (i * l.length / n)).take ((i + 1) * l.length / n - i * l.length / n))
/-- The tasks of a batch: one for each lane-table block. -/
def batchTasks (s : Sheaf) (g : Gen) (l : List Landed) : List Task :=
  (payKinds (pgGroupList s.program)).mapIdx (fun i k =>
    { tag := s.tag, gen := g.num, rc := s.rc.toNat, blk := i, fmt := k.1, op := k.2, ins := l.filterMap (fun x => x.blocks[i]?) })
/-- The shadow inputs of a batch. -/
def batchShadow (s : Sheaf) (l : List Landed) : List (Nat × TaskIn) :=
  let m := (payKinds (pgGroupList s.program)).length
  l.flatMap (fun x => (x.blocks.drop m).mapIdx (fun i b => (m + i, b)))
/-- Move a batch of one cluster to its threshers, when there is room. -/
def formBatch (tag n cluster : Nat) (l : List Landed) (c : Chan) : Chan :=
  match sheafOf c tag with
  | none => c
  | some s =>
    let g := genOf s n
    let ts := batchTasks s g l
    match placeTasks cluster ts c with
    | none => c
    | some d => updGen tag n (fun x => { x with batch := x.batch.filter (fun y => !l.contains y), tasks := x.tasks + ts.length,
                                                shadowIn := x.shadowIn ++ batchShadow s l }) d
/-- Has the last input a cluster expects landed, or the cutoff passed? -/
def clusterDone (c : Chan) (s : Sheaf) (g : Gen) (k : Nat) : Bool :=
  g.cutoff || allIn c s g ||
  (s.route.filter (fun r => decide (portCluster r.port = k))).all (fun r =>
    g.ranks.contains r.rank || excluded c s g.num r.rank || (!s.isApex && excListed s g r.rank))
/-- Batches of one cluster: full ones of 16, and the rest when no more is expected. -/
def formCluster (tag n k : Nat) : Nat → Chan → Chan
  | 0, c => c
  | fuel + 1, c =>
    match sheafOf c tag with
    | none => c
    | some s =>
      let g := genOf s n
      let mine := g.batch.filter (fun x => decide (x.cluster = k))
      if mine.isEmpty then c
      else if 16 ≤ mine.length ∨ clusterDone c s g k then formCluster tag n k fuel (formBatch tag n k (mine.take 16) c)
      else c
/-- The value of the channel's local shadow granule: rank 262,143 (R405). -/
def localShadow (fmt gen : Nat) : TaskIn := .raw 262143 { data := shadowGran fmt 262143 gen }
/-- The shadow tasks of a generation: each working thresher runs exactly one, over shadow inputs or over the local shadow granule (R405). -/
def formShadow (tag n : Nat) (c : Chan) : Chan :=
  match sheafOf c tag with
  | none => c
  | some s =>
    let g := genOf s n
    if g.shadowIn.isEmpty ∨ !g.batch.isEmpty ∨ !(g.cutoff || allIn c s g) then c
    else
      let w := workingThreshers c
      if w.isEmpty then c else
      let ks := kindsOf s n
      let m := (payKinds (pgGroupList s.program)).length
      let sh := ks.drop m
      let per := max 1 (w.length / sh.length)
      let piece := fun (i : Nat) (k : Nat × Nat) =>
        (splitInto (if i + 1 = sh.length then max 1 (w.length - per * i) else per) ((g.shadowIn.filter (fun x => decide (x.1 = m + i))).map Prod.snd)).map
          (fun l => ({ tag := s.tag, gen := n, rc := s.rc.toNat, blk := m + i, fmt := k.1, op := 0,
                       ins := if l.isEmpty then [localShadow k.1 n] else l, own := l.isEmpty, shadow := true } : Task))
      let ts := (sh.mapIdx piece).flatten
      let real := (ts.filter (fun k => !k.own)).length
      let c1 := ts.zipIdx.foldl (fun (a : Chan) x =>
        let k := w.getD (x.2 % w.length) 0
        let t := thresherOf a k
        setThresher a k { t with queue := t.queue ++ [x.1] }) c
      updGen tag n (fun x => { x with shadowIn := [], tasks := x.tasks + real }) c1
/-- Form what tasks of a generation can be formed. -/
def formTasks (tag n : Nat) (c : Chan) : Chan :=
  formShadow tag n ((List.range 4).foldl (fun (a : Chan) k => formCluster tag n k 64 a) c)

/-! ### Sending partials (R270, R271, R286, R287, R410, R431) -/
/-- Has every task of what has landed been merged? -/
def genIdle (g : Gen) : Bool := decide (g.tasks = 0) && g.batch.isEmpty && g.shadowIn.isEmpty
/-- The blocks held, empty ones where nothing was merged. -/
def genBlocks (s : Sheaf) (g : Gen) : List Block := if g.blocks.isEmpty then emptyBlocks (kindsOf s g.num) else g.blocks
/-- A held fence notice goes on when the barn has sent its partials for every generation in which it holds the member's token (R431). -/
def releaseFences (tag : Nat) (c : Chan) : Chan :=
  match sheafOf c tag with
  | none => c
  | some s =>
    let busy := fun (r : Nat) => s.toks.any (fun t => decide (t.rank = r) && decide (s.oldest ≤ t.gen) && !genDone (genOf s t.gen) &&
      !((genOf s t.gen).sentBody || (decide ((genOf s t.gen).passed = some true) && t.taken)))
    let go := s.fenceHeld.filter (fun h => !busy h.2)
    go.foldl (fun (a : Chan) h => chanSoloUp a 1 h.1) (putSheaf c { s with fenceHeld := s.fenceHeld.filter (fun h => busy h.2) })
/-- A level sends its partial for a generation once everything it will count is merged, or at its cutoff; what lands later goes up in a
further partial (R270, R271). In pass-through a collecting level sends its exceptions alone, at the cutoff, were there none; another level where
it has any (R287). -/
def sendPartial (tag n : Nat) (c : Chan) : Chan :=
  match sheafOf c tag with
  | none => c
  | some s =>
    let g := genOf s n
    if s.isApex ∨ genDone g ∨ !(g.cutoff || allIn c s g) then c
    else if g.passed = some true ∨ g.passed = none then
      if g.cutoff && !g.sentBody && (decide (c.clk.role = 1) || !g.exc.isEmpty) then
        sendUpKeep tag n (partialPackets s g 2 0 {} g.exc []) (putSheaf c (putGen s { g with sentBody := true }))
      else c
    else if !genIdle g ∨ (g.sentBody ∧ covered g.facts = 0) then c
    else
      let body := if g.facts.contrib = 0 then [] else blocksOut (kindsOf s n) (genBlocks s g)
      let ps := partialPackets s g (if g.facts.contrib = 0 then 2 else 0) 0 g.facts g.exc body
      let mine := s.toks.filter (fun t => decide (t.gen = n) && t.taken)
      let c1 := if c.clk.role = 1 then outlierNote tag n (outlierRanks s n mine) c else c
      sendUpKeep tag n ps (updGen tag n (fun x => { x with facts := {}, blocks := [], sentBody := true }) c1)
/-- An apex arms a generation once it holds a token from every member that is heard and waited for (R231). -/
def armGen (tag n : Nat) (c : Chan) : Chan :=
  match sheafOf c tag with
  | none => c
  | some s =>
    let g := genOf s n
    let heard := fun (r : Nat) => (match memberOf s r with | some m => m.unheard.isNone | none => true) &&
      !g.exc.any (fun e => decide (e.cls = 1) && excCovers s e r)
    let held := fun (r : Nat) => g.ranks.contains r || (match tokOf s r n with | some t => inTime s t | none => false)
    if s.isApex && decide (g.state = .opened) && genTakes s n && ((neededRanks c s n).filter heard).all held &&
       !(neededRanks c s n).isEmpty && (g.ranks.length != 0 || (neededRanks c s n).any held) then
      putSheaf c (putGen s { g with state := .armed })
    else c
/-- After anything that lands: take tokens, form tasks, send partials, arm, let fence notices go. -/
def pump (tag : Nat) (c : Chan) : Chan :=
  let c1 := takeToks tag c
  let ns := match sheafOf c1 tag with | none => [] | some s => (s.gens.filter (fun g => !genDone g)).map Gen.num
  let c2 := ns.foldl (fun (a : Chan) n => armGen tag n (sendPartial tag n (formTasks tag n a))) c1
  let c3 := match sheafOf c2 tag with
    | none => c2
    | some s => if s.isApex then armGen tag s.oldest c2 else c2
  releaseFences tag (updSheaf tag refreshMembers c3)

/-! ### Tokens and payloads (R39, R229, R233 to R235) -/
/-- The barn's answer to an arrival of no member (R39). -/
def notMemberGran (g : Gran) : Gran := lay [⟨0, 8, Config.pktType .notMember⟩, ⟨8, 5, gf g 12 8⟩, ⟨16, 32, gf g 47 16⟩, ⟨48, 18, gf g 65 48⟩]
/-- While a sheaf is suspended, each member's tokens of its four highest generations are held (R229). -/
def keepFour (s : Sheaf) (r : Nat) : List Tok :=
  let mine := (s.toks.filter (fun t => decide (t.rank = r))).map Tok.gen
  let drop := mine.filter (fun n => decide (4 ≤ (mine.filter (fun m => decide (n < m))).length))
  s.toks.filter (fun t => !(decide (t.rank = r) && drop.contains t.gen))
/-- An arrival token lands at the member's barn (R233, R235, R39). -/
def chanToken (p : Nat) (g : Gran) (c : Chan) : Chan :=
  let tag := gf g 47 16
  let rank := gf g 65 48
  match sheafOf c tag with
  | none => chanSoloDown c p 1 (notMemberGran g)
  | some s0 =>
    if !s0.route.any (fun r => decide (r.rank = rank) && decide (r.port = p)) then chanSoloDown c p 1 (notMemberGran g)
    else if !rcFits s0 (gf g 143 128) (gf g 127 80) then countStale c
    else
      let s := learnRc (gf g 143 128) s0
      let n := gf g 127 80
      if s.toks.any (fun t => decide (t.rank = rank) && decide (t.gen = n)) then putSheaf c s
      else
        let t : Tok := { rank := rank, gen := n, rc := gf g 143 128, time := gf g 207 144, count := gf g 72 66, paySeq := gf g 247 208,
                         level := gf g 74 73, freqReq := gbit g 13, unaligned := gbit g 14, forced := gbit g 15, port := p }
        let s1 := { s with toks := s.toks ++ [t] }
        let s2 := if s.isApex && decide (s.state = .suspended) then { s1 with toks := keepFour s1 rank }
          else s1
        strictUpdate (pump tag (runCheck tag (putSheaf c s2)))
/-- A payload lands (R234): it is matched to its token; a payload of another count, or without its token, is discarded. -/
def chanPayload (p : Nat) (gs : List Granule) (c : Chan) : Chan :=
  match gs with
  | [] => c
  | h :: body0 =>
    let g := h.data
    let tag := gf g 47 16
    let rank := gf g 65 48
    let n := gf g 127 80
    match sheafOf c tag with
    | none => c
    | some s =>
      if !s.route.any (fun r => decide (r.rank = rank) && decide (r.port = p)) then c
      else if !rcFits s (gf g 143 128) n then countStale c
      else
        let hit := s.toks.any (fun t => decide (t.rank = rank) && decide (t.gen = n) && decide (t.rc = gf g 143 128) &&
          decide (t.paySeq = gf g 247 208) && t.payload.isNone && decide (t.count = body0.length) && decide (t.count = gf g 72 66))
        if !hit then c
        else
          let j := injPoison tag n c
          let body := match j.1 with | some k => poisonAt k body0 | none => body0
          let put := fun (t : Tok) => if t.rank = rank ∧ t.gen = n then { t with payload := some body } else t
          pump tag (updSheaf tag (fun x => { x with toks := x.toks.map put }) j.2)

/-! ### Partials from below (R271 to R274, R236) -/
/-- A partial lands whole: form, rank, facts, exceptions, inputs by block. None: its body disagrees with its lengths (R274). -/
structure PartMsg where
  form  : Nat
  rank  : Nat
  facts : Facts
  exc   : List Exc
  ins   : List TaskIn
  deriving DecidableEq, Repr
/-- Read a landed partial from its segments in order. -/
def partRead (s : Sheaf) (n : Nat) (segs : List (List Granule)) : Option PartMsg :=
  match segs.head? with
  | some (h :: k :: _) =>
    let g := h.data
    let form := gf g 14 13
    let rest := segs.flatMap (fun x => x.drop 2)
    let ne := gf g 255 237
    let ks := kindsOf s n
    let f : Facts :=
      { contrib := gf g 156 138, forced := gf g 175 157, nans := gf k.data 95 64, pinfs := gf k.data 127 96,
        ninfs := gf k.data 159 128, poisons := gf k.data 191 160, memSum := gf k.data 255 192, maxArrive := gf k.data 63 0,
        freqAll := gbit g 233, unaligned := gbit g 234, level := gf g 236 235 }
    let want := (ne + 3) / 4
    if form = 1 then
      let body := rest.take ks.length
      if rest.length ≠ ks.length + want ∨ (rest.drop ks.length).any Granule.poison then none
      else
        let x := paySpecials (payKinds (pgGroupList s.program)) body
        let f1 := { f with contrib := 1, forced := 0, nans := x.1, pinfs := x.2.1, ninfs := x.2.2,
                           poisons := poisonCount (payKinds (pgGroupList s.program)).length body }
        some { form := 1, rank := gf g 137 120, facts := f1, exc := excRead ne (rest.drop ks.length),
               ins := body.map (fun b => TaskIn.raw (gf g 137 120) b) }
    else if form = 0 then
      match blocksIn ks rest with
      | none => none
      | some (bs, t) => if t.length ≠ want ∨ t.any Granule.poison then none else some { form := 0, rank := 0, facts := f, exc := excRead ne t, ins := bs.map TaskIn.part }
    else if rest.length ≠ want ∨ rest.any Granule.poison then none
    else some { form := 2, rank := 0, facts := f, exc := excRead ne rest, ins := [] }
  | _ => none
/-- A partial is discarded (R274, R290): as if it had never landed. -/
def partDiscard (tag n sender : Nat) (c : Chan) : Chan :=
  let c1 := { c with shv := { c.shv with eng := { c.shv.eng with partDiscard := ctrInc c.shv.eng.partDiscard } } }
  match sheafOf c1 tag with
  | none => c1
  | some s => siloEv (putSheaf c1 { s with parts := s.parts.filter (fun x => !(decide (x.sender = sender) && decide (x.gen = n))) }) s .partialDiscard
      [tag, n, sender]
/-- Unheard members that a partial lists start their 10 ms; those it covers break theirs (R236). -/
def heardBy (c : Chan) (cov : List Nat) (exc : List Exc) (s : Sheaf) : Sheaf :=
  if s.isApex then
    { s with members := s.members.map (fun m =>
        if cov.contains m.rank then { m with unheard := none, below := false }
        else if exc.any (fun e => decide (e.cls = 1) && excCovers s e m.rank) then
          { m with unheard := some (m.unheard.getD (chanClock c)), below := true }
        else m) }
  else s
/-- Merge a landed partial (R271, R276, R286, R287). `raws` are its packets as they came. -/
def partMerge (tag n p sender : Nat) (m : PartMsg) (raws : List (List Granule)) (c0 : Chan) : Chan :=
  let c := fixMode tag n c0
  match sheafOf c tag with
  | none => c
  | some s0 =>
    let g := genOf s0 n
    let under := (ranksHere s0).filter (fun r => fpaUnder sender (rankFpa s0 r))
    let cov := (if m.form = 1 then [m.rank] else if m.form = 2 ∧ m.facts.forced = 0 then []
      else under.filter (fun r => !m.exc.any (fun e => excCovers s0 e r))).filter (fun r => !g.ranks.contains r)
    let s := heardBy c cov m.exc s0
    let keep := if m.form = 1 then g.exc else g.exc.filter (fun e => !(fpaUnder sender (if e.subtree then e.fpa else rankFpa s e.rank)))
    let g1 := coverRanks s cov { g with exc := keep ++ m.exc, senders := if m.form = 1 then g.senders else sender :: g.senders }
    let c1 := countPoison (poisonedLanes (kindsOf s n) (m.ins.filterMap (fun i => match i with | .raw _ x => some x | .part _ => none))) c
    if g.passed = some true then sendUpKeep tag n raws (putSheaf c1 (putGen s g1))
    else
      let bt := if m.ins.isEmpty then g1.batch else g1.batch ++ [({ cluster := portCluster p, blocks := m.ins } : Landed)]
      let g2 := { g1 with facts := factsAdd g1.facts m.facts, batch := bt }
      let f0 := if covered m.facts = 0 then { g2 with facts := g1.facts } else g2
      addCycles (kindsOf s n) m.ins (putSheaf c1 (putGen s f0))
/-- An input poisoned on landing (R439, kind 0x05). -/
def poisonIn : TaskIn → TaskIn
  | .raw r x => .raw r { x with poison := true }
  | .part b => .part (b.map (fun (a : Lane) => { a with poison := true }))
/-- A channel below the apex, or the apex, takes a partial's segment (R272, R274, R235). `sender` is the FPA of the channel that formed it. -/
def chanPartial (p sender : Nat) (gs : List Granule) (c : Chan) : Chan :=
  match gs with
  | h :: k :: _ =>
    let g := h.data
    let tag := gf g 47 16
    let n := gf g 95 48
    match sheafOf c tag with
    | none => c
    | some s0 =>
      let decided := s0.isApex && (genOf s0 n).cutoff && (genOf s0 n).waiting.isEmpty && decide ((genOf s0 n).state = .armed)
      if !rcFits s0 (gf g 111 96) n ∨ genDone (genOf s0 n) ∨ decided then countStale c
      else if h.poison || k.poison then partDiscard tag n sender c
      else
        let s := learnRc (gf g 111 96) s0
        let raw := decide (gf g 14 13 = 1)
        let rank := if raw then gf g 137 120 else 0
        let same := fun (x : PartIn) => decide (x.sender = sender) && decide (x.gen = n) && decide (x.rc = gf g 111 96) &&
          decide ((x.form = 1) = (raw = true)) && decide (x.rank = rank)
        let x0 := (s.parts.find? same).getD
          { sender := sender, port := p, gen := n, rc := gf g 111 96, form := if raw then 1 else 0, rank := rank }
        let seg := gf g 119 112
        if seg < x0.next ∨ x0.segs.any (fun y => decide (y.1 = seg)) ∨ (raw ∧ 0 < x0.next) then putSheaf c s
        else
          let x1 := { x0 with segs := x0.segs ++ [(seg, gs)], began := if x0.segs.isEmpty then c.clk.time.edges else x0.began, lasts := if gbit g 15 then x0.lasts ++ [seg] else x0.lasts }
          let last := x1.lasts.foldl (fun (a : Option Nat) k => if k < x1.next then a else match a with | none => some k | some b => some (min b k)) none
          let whole := match last with
            | none => none
            | some l => let run := (List.range (l + 1 - x1.next)).map (fun i => (x1.segs.find? (fun (y : Nat × List Granule) => decide (y.1 = x1.next + i))).map Prod.snd)
              if run.all Option.isSome then some (l, run.filterMap id) else none
          let put := fun (x : PartIn) (a : Chan) => updSheaf tag (fun y => { y with parts := x :: y.parts.filter (fun z => !same z) }) a
          match whole with
          | none => put x1 (putSheaf c s)
          | some (l, run) =>
            match partRead s n run with
            | none => partDiscard tag n sender (putSheaf c s)
            | some m =>
              let c1 := put { x1 with next := l + 1, segs := x1.segs.filter (fun y => decide (l < y.1)), began := c.clk.time.edges } (putSheaf c s)
              let j := injPoison tag n c1
              let m1 := match j.1 with
                | none => m
                | some k => { m with ins := m.ins.mapIdx (fun i (t : TaskIn) => if i = k then poisonIn t else t) }
              pump tag (runCheck tag (partMerge tag n p sender m1 run j.2))
  | _ => c
/-- The time-clock edge by which a partial that is landing must be whole (R274). DEDUCED (assumption 58): the generation timeout counts from its first
segment. -/
def partDue (tag n sender : Nat) (c : Chan) : Option Nat :=
  (sheafOf c tag).bind (fun s =>
    (s.parts.find? (fun x => decide (x.sender = sender) && decide (x.gen = n) && !x.segs.isEmpty)).map (fun x => x.began + edgeAt (1000 * pgGenTimeoutUs s.program)))
/-- A partial has not landed whole within the generation timeout (R274). -/
def chanPartialTimeout (tag n sender : Nat) (c : Chan) : Chan := chanAtEdge (partDue tag n sender) (partDiscard tag n sender) c

/-! ### The cutoff (R270, R271, R273) -/
/-- What this channel does not cover, by its own links and members. -/
def ownExc (c : Chan) (s : Sheaf) (n : Nat) : List Exc :=
  let g := genOf s n
  let a := (deadlineOf s n).getD 0
  let open_ := s.route.filter (fun r => !g.ranks.contains r.rank)
  if c.clk.role = 1 then
    open_.map (fun r =>
      let w : Bool := match memberOf s r.rank with | some m => decide (m.state = .parked) && decide (m.parkAt ≤ a) | none => false
      ({ fpa := r.fpa, rank := r.rank, cls := cond w 2 (cond (chanUp c r.port) 0 1) } : Exc))
  else
    let kids := ((open_.filter (fun r => !excListed s g r.rank)).map (fun r => levelFpa c r.fpa (chanLevel c - 1))).dedup
    kids.map (fun f => ({ fpa := f, rank := 0, cls := if (bundleUp c (portToward c f)).isEmpty then 1 else 3, subtree := true } : Exc))
/-- Ports of members of these ranks, as a map. -/
def portMap (s : Sheaf) (l : List Nat) : Nat := (s.route.filter (fun r => l.contains r.rank)).foldl (fun a r => Nat.lor a (2 ^ r.port)) 0
/-- Members absent for a generation, by straggler count (R236): the barn keeps the same count as the apex, from the same stamps. -/
def countAbsent (c : Chan) (l cov : List Nat) (s : Sheaf) : Sheaf :=
  let lim := effStraggler c.start.strictForce s.program
  { s with members := s.members.map (fun m =>
      if cov.contains m.rank then { m with absences := 0 }
      else if l.contains m.rank then
        let k := m.absences + 1
        { m with absences := k, state := if lim ≠ 0 ∧ lim ≤ k ∧ m.state ≠ .fenced then .lost else m.state }
      else m) }
/-- A level below the apex reaches its cutoff for a generation. -/
def chanCutoff (tag n : Nat) (c0 : Chan) : Chan :=
  match sheafOf c0 tag with
  | none => c0
  | some s0 =>
    match cutoffOf c0 s0 n with
    | none => c0
    | some at_ =>
      if s0.isApex ∨ !genTakes s0 n ∨ (genOf s0 n).cutoff then c0
      else
        let c := fixMode tag n (takeToks tag (chanTo at_ c0))
        match sheafOf c tag with
        | none => c
        | some s =>
          let g := genOf s n
          let own := ownExc c s n
          let barn := decide (c.clk.role = 1)
          let abs := (own.filter (fun e => decide (e.cls = 0))).map Exc.rank
          let unh := if barn then portMap s ((own.filter (fun e => decide (e.cls = 1))).map Exc.rank) else 0
          let g1 := { g with cutoff := true, exc := g.exc ++ own, absMap := if barn then portMap s abs else 0, unhMap := unh }
          pump tag (putSheaf c (putGen (countAbsent c (if barn then abs else []) g.ranks s) g1))

/-! ### A task ends (R311 to R315) -/
/-- What a task computes. -/
def taskOut (k : Task) : Block :=
  k.ins.foldl (fun b i => match i with | .raw r g => blockAdd k.fmt k.op r b g | .part x => blockMerge k.fmt k.op b x) (emptyBlock k.fmt)
/-- Merge a task's output into the channel's block (R310). -/
def taskMerge (k : Task) (out : Block) (c : Chan) : Chan :=
  match sheafOf c k.tag with
  | none => c
  | some s =>
    let g := genOf s k.gen
    if k.own ∨ k.rc ≠ s.rc.toNat ∨ genDone g ∨ g.tasks = 0 then c
    else
      let bs := (genBlocks s g).mapIdx (fun i b => if i = k.blk then blockMerge k.fmt k.op b out else b)
      pump k.tag (putSheaf c (putGen s { g with blocks := bs, tasks := g.tasks - 1 }))
/-- The result form of a block's group. -/
def blockForm (s : Sheaf) (blk : Nat) : Nat :=
  ((pgGroupList s.program).flatMap (fun g => List.replicate g.pay g.form)).getD blk 0
/-- The class of a unit (R415). -/
def histClass (h : History) (path : Nat) : Nat :=
  match histFind path h.entries with
  | some i => (tabGet {} h.entries i).cls
  | none => match h.vol.find? (fun e => decide (e.path = path)) with | some e => e.cls | none => 0
/-- The operation of a task (R412). -/
def taskOp (c : Chan) (k : Task) : Nat :=
  let form := match sheafOf c k.tag with | some s => blockForm s k.blk | none => 0
  layNat [⟨12, 4, if k.shadow then 4 else 1⟩, ⟨8, 4, k.fmt⟩, ⟨4, 4, k.op⟩, ⟨0, 4, form⟩]
/-- The report of a failed check (R315, R412, R413). -/
def taskReport (c : Chan) (t : Nat) (k : Task) : List Nat :=
  let path := unitPath 1 0x01 t
  reportVals { path := path, op := taskOp c k, cls := histClass c.history path, gen := k.gen, tag := k.tag, blk := k.blk }
/-- Where a failed task runs once more: the next working thresher of its core, ascending and wrapping; with none, of its cluster (R315). -/
def rerunAt (c : Chan) (t : Nat) : Option Nat :=
  let core := (List.range 3).map (fun i => t / 4 * 4 + (t + 1 + i) % 4)
  let clus := (List.range 15).map (fun i => t / 16 * 16 + (t + 1 + i) % 16)
  (core ++ clus).find? (thresherWorks c)
/-- A thresher finishes the task at the head of its queue; `ok` says whether its check passed (R313 to R315, R405, R439). -/
def chanTask (t : Nat) (ok : Bool) (c0 : Chan) : Chan :=
  let x := thresherOf c0 t
  match x.queue with
  | [] => c0
  | k :: ks =>
    if !thresherWorks c0 t then c0
    else
      let c := setThresher c0 t { x with queue := ks }
      match (if ok then injFind c 6 t else none), ok with
      | none, true => taskMerge k (taskOut k) c
      | i, _ =>
        let c1 := match i with | some j => injPut { j with left := j.left.map (fun n => n - 1) } c | none => chanError (unitPath 1 0x01 t) (taskOp c k) c
        let c2 := { c1 with shv := { c1.shv with eng := { c1.shv.eng with residueErr := ctrInc c1.shv.eng.residueErr } } }
        let ev := fun (e : Ev) (a : Chan) => chanRaiseAt i.isSome (some (k.tag, k.rc)) a { ev := e, vals := taskReport a t k }
        let c3 := ev .thresherCheckFail c2
        if k.own then { c3 with localShadow := ctrInc c3.localShadow }
        else
          match (if k.rerun then none else rerunAt c3 t) with
          | some u => let y := thresherOf c3 u; setThresher c3 u { y with queue := { k with rerun := true } :: y.queue }
          | none =>
            let c4 := ev .thresherRerunFail { c3 with shv := { c3.shv with eng := { c3.shv.eng with rerunFail := ctrInc c3.shv.eng.rerunFail } } }
            taskMerge k ((emptyBlock k.fmt).map (fun (a : Lane) => { a with poison := true, has := true })) c4
/-- The victims of a thief, tier by tier (R311): thresher, and the depth it must have. -/
def victims (t : Nat) : List (Nat × Nat × Nat) :=
  let core := (List.range 3).map (fun i => (t / 4 * 4 + (t + 1 + i) % 4, 2, 0))
  let clus := (List.range 12).map (fun i => (t / 16 * 16 + ((t / 4 + 1) * 4 + i) % 16, 4, 1))
  let rem := (List.range 48).map (fun i => ((t / 16 + 1 + i / 16) % 4 * 16 + i % 16, 16, 2))
  core ++ clus ++ rem
/-- A thresher whose queue is empty takes the tail task of the first victim that has enough (R311); a shadow task is not stolen (R405). With
none it does idle work, which changes nothing. -/
def chanSteal (t : Nat) (c : Chan) : Chan :=
  if !(thresherOf c t).queue.isEmpty ∨ !thresherWorks c t then c
  else
    let can := fun (v : Nat × Nat × Nat) =>
      let q := (thresherOf c v.1).queue
      thresherWorks c v.1 && decide (v.2.1 ≤ q.length) && (match q.getLast? with | some k => !k.shadow | none => false)
    match (victims t).find? can with
    | none => c
    | some v =>
      let y := thresherOf c v.1
      match y.queue.getLast? with
      | none => c
      | some k =>
        let c1 := setThresher (setThresher c v.1 { y with queue := y.queue.dropLast }) t { thresherOf c t with queue := [k] }
        let e := c1.shv.eng
        let e1 := if v.2.2 = 0 then { e with stealCore := ctrInc e.stealCore } else if v.2.2 = 1 then { e with stealCluster := ctrInc e.stealCluster }
          else { e with stealRemote := ctrInc e.stealRemote }
        { c1 with shv := { c1.shv with eng := e1 } }

end Sys2Proof.Machine
end

