-- ==== Sys2Proof/Machine/ChanCompare.lean ====
section
/-! DEFINITION. Compare mode (R356, R357) and the end of a generation at a channel: its findings, its record, path sweeps (R402, R403). -/
namespace Sys2Proof.Machine

/-! ### Path sweeps (R402) -/
/-- A sweep order for the channels on a sheaf's routes. -/
def sweepGran (s : Sheaf) : Gran := lay (⟨0, 8, Config.pktType .sweepOrder⟩ :: sheafFlds s)
/-- A channel takes up a path sweep; the order goes on down the routes. -/
def sweepTake (tag : Nat) (c : Chan) : Chan :=
  let c1 := { c with sweeps := if c.sweeps.contains tag then c.sweeps else c.sweeps ++ [tag] }
  match sheafOf c1 tag with
  | none => c1
  | some s => if c1.clk.role = 1 then c1 else soloRoute c1 s 3 (sweepGran s)

/-! ### Compare mode (R356, R357) -/
/-- The generation record of a run held here. -/
def genRecord (c : Chan) (tag rc n : Nat) : Option Rec :=
  c.gran.recs.find? (fun r => decide (r.typ = 2) && decide (r.tag = tag) && decide (r.rc = rc) && decide (gf (r.grans.getD 1 0#256) 47 0 = n))
/-- A `COMPARE_FIND` packet (R357): its fields in the token's positions, the kind behind the rank, the detail in a granule of its own. -/
def findPacket (s : Sheaf) (f : Finding) : List Granule :=
  [plain (lay (⟨0, 8, 0x66⟩ :: sheafFlds s ++ [⟨48, 18, f.rank⟩, ⟨66, 4, f.kind⟩, ⟨80, 48, f.gen⟩, ⟨128, 16, s.rc.toNat⟩])),
   plain (BitVec.ofNat 256 f.detail)]
/-- The lowest of findings: generation, then kind, then rank. -/
def lowestFind : List Finding → Option Finding
  | [] => none
  | f :: fs => match lowestFind fs with
    | none => some f
    | some g => if f.gen < g.gen ∨ (f.gen = g.gen ∧ (f.kind < g.kind ∨ (f.kind = g.kind ∧ f.rank ≤ g.rank))) then some f else some g
/-- Generations of which only the result differs (R357): a `RESULT` finding, which points to the fabric. -/
def resultOnly (l : List Finding) : List Nat :=
  ((l.map Finding.gen).dedup).filter (fun n => l.all (fun f => decide (f.gen ≠ n) || decide (f.kind = 4)))
/-- What the apex does with its findings of resolved generations: it reports the lowest divergence, once for the run (R357), and every `RESULT` finding
orders a path sweep (R403). -/
def compareRaise (tag : Nat) (c : Chan) : Chan :=
  match sheafOf c tag with
  | none => c
  | some s =>
    match s.compare with
    | none => c
    | some k =>
      let l := k.finds.filter (fun f => decide (f.gen < s.oldest))
      let new := (resultOnly l).filter (fun n => !k.swept.contains n)
      let t := { s with compare := some { k with raised := k.raised || !l.isEmpty, swept := k.swept ++ new } }
      let c1 := putSheaf c t
      let c2 := match (if k.raised then none else lowestFind l) with
        | none => c1
        | some f => siloEv c1 t .replayDiverged [tag, f.gen, f.kind, f.rank, f.detail]
      if new.isEmpty then c2 else sweepTake tag c2
/-- A finding of this channel: held at the apex, sent to it from below. -/
def compareFound (f : Finding) (tag : Nat) (c : Chan) : Chan :=
  match sheafOf c tag with
  | none => c
  | some s =>
    if s.isApex then putSheaf c { s with compare := s.compare.map (fun k => { k with finds := k.finds ++ [f] }) }
    else chanSendUp c 3 (findPacket s f)
/-- The ranks bound at this barn when a record was written, by the binding records held (R342, R385). -/
def ranksAt (c : Chan) (tag at_ : Nat) : List Nat :=
  ((c.gran.recs.filter (fun r => decide (r.typ = 5) && decide (r.tag = tag) && decide (r.at_ ≤ at_) &&
    decide (gf (r.grans.getD 2 0#256) 7 0 = 0x4D))).map (fun r => gf (r.grans.getD 2 0#256) 65 48)).dedup
/-- The payload granules whose `GRANULE_MAP` bits differ. -/
def mapDiff (a b : Nat) : Nat := layNat ((List.range 64).map (fun j => (⟨j, 1, b2n (decide (bitsOf a (2 * j + 1) (2 * j) ≠ bitsOf b (2 * j + 1) (2 * j)))⟩ : Fld)))
/-- What a barn finds in a generation (R356, R357). -/
def barnFinds (c : Chan) (s : Sheaf) (g : Gen) (k : Compare) (r : Rec) : List Finding :=
  let l := countedHere s g.num
  let src := (Int.ofNat g.num - k.offset).toNat
  let old := fun (m : RouteMem) => tabGet {} c.gran.fine ((m.port * 32 + s.slot) * 65536 + src % 65536)
  let held := s.route.all (fun m => decide ((old m).time ≠ 0))
  let ms := s.route.filterMap (fun m =>
    let o := old m
    let x := match l.find? (fun y => decide (y.2.1 = m.rank)) with | some y => (y.2.2.2.2.1, y.2.2.2.2.2) | none => (0, 0)
    if o.hash ≠ x.1 ∨ o.map ≠ x.2 then some ({ gen := g.num, kind := 1, rank := m.rank, detail := mapDiff o.map x.2 } : Finding) else none)
  let am := (r.grans.getD 4 0#256).toNat
  let ab := if am ≠ g.absMap then [({ gen := g.num, kind := 2, rank := 0, detail := Nat.xor am g.absMap } : Finding)] else []
  let gh := (groupHash l).toNat
  let og := (r.grans.getD 7 0#256).toNat
  let gr := if held ∨ gh = og then [] else
    [({ gen := g.num, kind := 3, rank := 0, detail := chanFpa c * 65536 + layNat ((List.range 16).map (fun m =>
      (⟨m, 1, b2n (decide (bitsOf gh (16 * m + 15) (16 * m) ≠ bitsOf og (16 * m + 15) (16 * m)))⟩ : Fld))) } : Finding)]
  (if held then ms else []) ++ ab ++ gr
/-- The comparisons of a generation that resolves here (R356). -/
def compareGen (s : Sheaf) (g : Gen) (c : Chan) : Chan :=
  match s.compare with
  | none => c
  | some k =>
    let src := (Int.ofNat g.num - k.offset).toNat
    match genRecord c k.srcTag k.srcRc src with
    | none => c
    | some r =>
      let skip := decide (c.clk.role = 1) && (let a := ranksAt c k.srcTag r.at_
        let b := s.route.map RouteMem.rank
        !(a.all b.contains && b.all a.contains))
      let c1 := if skip && !k.skipped then
          siloEv (updSheaf s.tag (fun x => { x with compare := x.compare.map (fun y => { y with skipped := true }) }) c) s .compareSkipped [s.tag, g.num]
        else c
      let mine := if decide (c.clk.role = 1) && !skip then barnFinds c s g k r else []
      let ap := if s.isApex && (decide (r.grans.getD 2 0#256 ≠ (if g.state = .failed then 0#256 else g.hash)) ||
          decide (gf (r.grans.getD 1 0#256) 51 48 ≠ g.branch) || decide (gf (r.grans.getD 1 0#256) 226 208 ≠ g.counted)) then
          [({ gen := g.num, kind := 4, rank := 0 } : Finding)] else []
      (mine ++ ap).foldl (fun (a : Chan) f => compareFound f s.tag a) c1
/-- A finding from below (R357): passed up, or held at the apex, which reports once the generation has resolved. -/
def chanCompareFind (g d : Gran) (c : Chan) : Chan :=
  let tag := gf g 47 16
  match sheafOf c tag with
  | none => c
  | some s =>
    if s.isApex then
      let f : Finding := { gen := gf g 127 80, kind := gf g 69 66, rank := gf g 65 48, detail := d.toNat }
      compareRaise tag (compareFound f tag c)
    else chanSendUp c 3 [plain g, plain d]

/-! ### A generation resolves at this channel -/
/-- Its comparisons, its record, and what earlier ones left to report (assumption 59: a difference of the result alone is reported when the
next generation resolves, as findings of the barns land after the word). -/
def genResolve (tag n : Nat) (c : Chan) : Chan :=
  match sheafOf c tag with
  | none => c
  | some s =>
    let g := genOf s n
    writeGen s g (compareGen s g (if s.isApex then compareRaise tag c else c))

end Sys2Proof.Machine
end

