-- ==== Sys2Proof/Machine/ChanApex.lean ====
section
/-! DEFINITION. The apex (R231, R236, R239 to R241, R246, R259, R277 to R285, R404 to R409): the decision time, threshing, launching, failing,
suspension and closing; fences and parking (R249, R254 to R257, R431); and the words as they pass a level on their way down. -/
namespace Sys2Proof.Machine

/-! ### Words (R240, R241, R244) -/
/-- A launch word. -/
def launchGran (c : Chan) (s : Sheaf) (g : Gen) : Gran :=
  lay [⟨0, 8, 0x4C⟩, ⟨8, 5, s.slot⟩, ⟨13, 4, g.branch⟩, ⟨17, 1, c.clk.domain⟩, ⟨18, 1, b2n g.freq⟩, ⟨19, 1, b2n (decide (0 < g.absent))⟩,
       ⟨20, 1, b2n g.forced⟩, ⟨24, 32, s.tag⟩, ⟨56, 48, g.num⟩, ⟨104, 16, s.rc.toNat⟩, ⟨120, 64, g.fire⟩, ⟨184, 64, gf g.hash 63 0⟩,
       ⟨248, 8, g.result.length⟩]
/-- A failure word. -/
def failGran (c : Chan) (s : Sheaf) (g : Gen) : Gran :=
  lay [⟨0, 8, 0x46⟩, ⟨8, 5, s.slot⟩, ⟨17, 1, c.clk.domain⟩, ⟨24, 32, s.tag⟩, ⟨56, 48, g.num⟩, ⟨104, 16, s.rc.toNat⟩, ⟨120, 8, g.cause⟩]
/-- The result granules and the status granule, as packets behind the word. DESIGN CHOICE (assumption 5): the spec gives them no header; it
holds the run and generation in the token's positions, the first granule's index, and how many there are. -/
def resultPackets (s : Sheaf) (g : Gen) : List (List Granule) :=
  let all := g.result ++ [g.status]
  (chunks 127 all.length all).mapIdx (fun i p =>
    plain (lay (⟨0, 8, Config.pktType .result⟩ :: sheafFlds s ++ [⟨80, 48, g.num⟩, ⟨128, 16, s.rc.toNat⟩, ⟨144, 9, 127 * i⟩, ⟨153, 9, all.length⟩])) ::
      p.map plain)
/-- Send a word down the sheaf's routes; an injection discards it instead (R439, kind 0x04). -/
def sendWord (s : Sheaf) (w : Gran) (c : Chan) : Chan :=
  match (if gf w 7 0 = 0x4C then injFind c 4 s.tag else none) with
  | some i => injPut { i with left := i.left.map (fun n => n - 1) } c
  | none => soloRoute c s 1 w

/-! ### Failing, suspending (R229, R241) -/
/-- The oldest unresolved generation moves past those that have resolved. -/
def advanceOldest : Nat → Sheaf → Sheaf
  | 0, s => s
  | n + 1, s => if genDone (genOf s s.oldest) then advanceOldest n { s with oldest := s.oldest + 1 } else s
/-- What a resolved generation leaves: the oldest moves, and while the sheaf runs, further ones open (R231), none past 2^48 − 1 (R69). The last eight stay for the
checks that refer to them (R410). -/
def settleGens (s : Sheaf) : Sheaf :=
  let s1 := advanceOldest (s.openTo + 1 - s.oldest) s
  let o := if s1.state = .running then satN (2 ^ 48) (max s1.openTo (s1.oldest + pgInflight s1.program)) else s1.openTo
  { s1 with openTo := o, gens := s1.gens.filter (fun g => decide (s1.oldest ≤ g.num + 8)), parts := s1.parts.filter (fun x => decide (s1.oldest ≤ x.gen)) }
/-- One generation fails: its failure word and its record (R241, R340). -/
def failGen (tag n cause : Nat) (c : Chan) : Chan :=
  match sheafOf c tag with
  | none => c
  | some s =>
    let g := { genOf s n with state := .failed, cause := cause }
    let c1 := putSheaf c (putGen s g)
    genResolve tag n (sendWord s (failGran c1 s g) c1)
/-- Generations fail in order. -/
def failGens (tag cause : Nat) (l : List Nat) (c : Chan) : Chan := l.foldl (fun a n => failGen tag n cause a) c
/-- The unresolved open generations from n on. -/
def openFrom (s : Sheaf) (n : Nat) : List Nat :=
  ((List.range (s.openTo - n)).map (fun i => n + i)).filter (fun k => decide (s.oldest ≤ k) && !genDone (genOf s k))
/-- The domain is suspended (R229). `reach`: only because members became unreachable in it (R252). -/
def suspendSheaf (tag cause : Nat) (reach : Bool) (c : Chan) : Chan :=
  match sheafOf c tag with
  | none => c
  | some s0 =>
    let s := settleGens s0
    if s.state = .running ∨ s.state = .ready then
      let s1 := { s with catchup := reach, members := s.members.map (fun (m : Member) => { m with resume := none, auto := false }) }
      sheafTo (s1.members.foldl (fun (a : Sheaf) (m : Member) => { a with toks := keepFour a m.rank }) s1) .suspended cause c
    else if s.state = .suspended then putSheaf c { s with catchup := s.catchup && reach }
    else putSheaf c s
/-- A sheaf goes CLOSING (R259): generations that are OPEN fail; ARMED and THRESHED ones complete. One that is FORMING is CLOSED at once. -/
def closeSheaf (tag cause : Nat) (c : Chan) : Chan :=
  match sheafOf c tag with
  | none => c
  | some s =>
    if s.state = .closing ∨ s.state = .closed ∨ !s.isApex then c
    else if s.state = .forming then sheafTo { s with closeCause := cause, openTo := s.oldest } .closed cause c
    else
      let c1 := sheafTo { s with closeCause := cause } .closing cause c
      match sheafOf c1 tag with
      | none => c1
      | some s1 =>
        let l := (openFrom s1 s1.oldest).filter (fun k => decide ((genOf s1 k).state = .opened))
        updSheaf tag settleGens (failGens tag 5 l c1)
/-- Generation 2^48 − 1 has resolved: the sheaf goes CLOSING with `GEN_EXHAUSTED` (R69). -/
def exhaust (tag : Nat) (c : Chan) : Chan :=
  match sheafOf c tag with
  | none => c
  | some s => if 2 ^ 48 ≤ s.oldest then closeSheaf tag 4 c else c
/-- A generation fails, and with it every later unresolved one; the sheaf is suspended, unless it is closing (R229, R241). -/
def failFrom (tag n cause : Nat) (c : Chan) : Chan :=
  let c1 := failGen tag n cause c
  match sheafOf c1 tag with
  | none => c1
  | some s => exhaust tag (suspendSheaf tag cause false (failGens tag 3 (openFrom s (n + 1)) c1))

/-! ### Threshing (R231, R280 to R285, R404 to R409) -/
/-- The result of a generation whose tasks have all been merged: flags of the chaff checks, status, branch, result. -/
structure Threshed where
  gen    : Gen
  poison : Bool
  shadow : Bool
  ovf    : Nat
  deriving DecidableEq, Repr
/-- Glaze, form the status granule, evaluate the checks and the predicates. -/
def threshForm (s : Sheaf) (g : Gen) : Threshed :=
  let gs := pgGroupList s.program
  let m := (payKinds gs).length
  let ks := kindsOf s g.num
  let bs := genBlocks s g
  let forced := (s.toks.filter (fun t => t.forced && decide (t.gen = g.num))).map Tok.rank
  let rsum := ((g.ranks.filter (fun r => !forced.contains r)).map (fun r => r + 1)).sum
  let sh := ((ks.drop m).zip (bs.drop m)).any (fun x => shadowBad g.num rsum x.1 x.2)
  let rs := groupResults (decide (g.facts.contrib = 0)) s.digest g.num gs (bs.take m)
  let absent := s.n - covered g.facts
  let chaff := chaffField s.program s.rates rs g.outlier sh
  let fl := statusFields s.digest g.num g.facts absent chaff rs ++ [⟨207, 1, b2n g.forced⟩]
  let br := branchOf s.program g.num (lay fl) rs
  let st := lay (fl ++ [⟨190, 4, br.2⟩, ⟨194, 4, br.1⟩])
  let res := rs.flatMap groupGrans
  let freq := g.facts.freqAll && pgFreqOk s.program && decide (0 < covered g.facts)
  let g1 := { g with state := .threshed, status := st, result := res, hash := granOf (sha256 ((res ++ [st]).flatMap granBytes)),
                     counted := covered g.facts, absent := absent, branch := br.2, freq := freq,
                     completion := g.forcedAt.getD g.facts.maxArrive }
  { gen := g1, poison := decide (0 < poisonLanes rs), shadow := sh, ovf := ovfLanes rs }
/-- Is a generation ready to be threshed (R231): everything counted has landed and is merged, or the decision time has passed? -/
def threshReady (c : Chan) (s : Sheaf) (n : Nat) : Bool :=
  let g := genOf s n
  s.isApex && decide (g.state = .armed) && genIdle g && decide (s.oldest ≤ n) && (g.cutoff || allIn c s g)
/-- The order for a path sweep in this domain (R401, R402, R406). -/
def orderSweep (tag : Nat) (c : Chan) : Chan := sweepTake tag c
/-- Thresh a generation: the counted set is final, the result formed; a poisoned one fails (R283), a forced one in a strict sheaf too (R258). -/
def threshGen (tag n : Nat) (c : Chan) : Chan :=
  match sheafOf c tag with
  | none => c
  | some s =>
    let r := threshForm s (genOf s n)
    let e := c.shv.eng
    let c1 := putSheaf { c with shv := { c.shv with eng := { e with ovfLanes := ctrAdd e.ovfLanes r.ovf } } } (putGen s r.gen)
    let c2 := if r.shadow then
        let v := reportVals { path := 0, op := 0x4000, gen := n, tag := tag }
        orderSweep tag (siloEv { c1 with shadowFails := ctrInc c1.shadowFails } s .shadowFail v)
      else c1
    if r.poison then failFrom tag n 2 c2
    else if r.gen.forced && sheafStrict c s then failFrom tag n 6 c2
    else c2

/-! ### Launching (R239, R240, R409) -/
/-- The oldest unresolved generation launches once it is threshed. -/
def launchGen (tag : Nat) (c : Chan) : Chan :=
  match sheafOf c tag with
  | none => c
  | some s =>
    let n := s.oldest
    let g := genOf s n
    let r := fireTime s.program s.level g.facts.level g.completion (chanNs c) s.prevFire (skipTarget c.clk.time)
    if nsMax < r.1 then failFrom tag n 7 c
    else
      let g1 := { g with state := .launched, fire := r.1, bumped := r.2 }
      let rs := resultRead (pgGroupList s.program) g.result
      let late := (s.members.filter (fun m => decide (m.start ≤ n) && !g.ranks.contains m.rank)).map Member.rank
      let s1 := countAbsent c late g.ranks (putGen s g1)
      let s2 := { s1 with prevFire := r.1, fires := ((n, r.1) :: s1.fires).take 16, rates := rateUpdate s.program s.rates rs }
      let c1 := sendWord s (launchGran c s g1) (putSheaf c s2)
      let c2 := (resultPackets s g1).foldl (fun (a : Chan) k => sendRoute a s 1 k) c1
      let c3 := genResolve tag n c2
      let c4 := if r.2 then siloEv { c3 with shv := { c3.shv with bumped := ctrInc c3.shv.bumped } } s .launchBumped [tag, n, r.1] else c3
      let c5 := updSheaf tag (fun x => settleGens { x with toks := x.toks.filter (fun t => decide (t.gen ≠ n)) }) c4
      exhaust tag c5
/-- Launch what can be launched, in order; a generation whose predecessor failed fails (R231). -/
def launchNext (tag : Nat) : Nat → Chan → Chan
  | 0, c => c
  | fuel + 1, c =>
    match sheafOf c tag with
    | none => c
    | some s =>
      if s.isApex && decide ((genOf s s.oldest).state = .threshed) then
        if s.first < s.oldest && decide ((genOf s (s.oldest - 1)).state = .failed) then launchNext tag fuel (updSheaf tag settleGens (failGen tag s.oldest 3 c))
        else launchNext tag fuel (launchGen tag c)
      else c
/-- All counted payloads of a generation are reduced: it is threshed, and launched when it is its turn (R231). Nothing otherwise. -/
def chanThreshed (tag n : Nat) (c : Chan) : Chan :=
  match sheafOf c tag with
  | none => c
  | some s => if threshReady c s n then pump tag (launchNext tag 8 (threshGen tag n c)) else c

/-! ### The decision time (R236, R256) -/
/-- Ranks that an apex waits for and does not hold, with the deadline. -/
def missingRanks (c : Chan) (s : Sheaf) (n : Nat) : List Nat := (neededRanks c s n).filter (fun r => !(genOf s n).ranks.contains r)
/-- Does a missing rank wait, parked in time (R256)? -/
def rankWaits (s : Sheaf) (g : Gen) (a r : Nat) : Bool :=
  (match memberOf s r with | some m => decide (m.state = .parked) && decide (m.parkAt ≤ a) | none => false) ||
  g.exc.any (fun e => decide (e.cls = 2) && excCovers s e r)
/-- Is a missing rank unheard in this domain? -/
def rankUnheard (c : Chan) (s : Sheaf) (g : Gen) (r : Nat) : Bool :=
  (match memberOf s r with | some m => m.unheard.isSome | none => false) ||
  g.exc.any (fun e => decide (e.cls = 1) && excCovers s e r) ||
  (match s.route.find? (fun x => decide (x.rank = r)) with | some x => (bundleUp c x.port).isEmpty | none => false)
/-- The decision time of a generation is reached at the apex. -/
def chanDecision (tag n : Nat) (c0 : Chan) : Chan :=
  match sheafOf c0 tag with
  | none => c0
  | some s0 =>
    match cutoffOf c0 s0 n with
    | none => c0
    | some at_ =>
      if !s0.isApex ∨ !genTakes s0 n then c0
      else
        let c := takeToks tag (chanTo at_ c0)
        match sheafOf c tag with
        | none => c
        | some s =>
          let g := genOf s n
          let a := (deadlineOf s n).getD 0
          let miss := missingRanks c s n
          let waits := miss.filter (rankWaits s g a)
          let unh := miss.filter (fun r => !waits.contains r && rankUnheard c s g r)
          let unhMap := if c.clk.role = 1 then portMap s unh else 0
          if g.state = .threshed ∨ (g.state = .armed ∧ g.cutoff) ∨ miss.isEmpty then c
          else if !waits.isEmpty ∨ !unh.isEmpty then putSheaf c (putGen s { g with waiting := waits, unhMap := unhMap })
          else
            let g1 := { g with waiting := [], absMap := if c.clk.role = 1 then portMap s miss else 0, unhMap := unhMap }
            let c1 := putSheaf c (putGen s g1)
            if sheafStrict c s ∨ effPartialMax c.start.strictForce s.program < miss.length then
              let late := countAbsent c miss g.ranks (putGen s { g1 with absent := s.n - g1.ranks.length })
              pump tag (failFrom tag n 1 (putSheaf c1 late))
            else pump tag (putSheaf c1 (putGen s { g1 with cutoff := true, state := .armed }))
/-- When a member will have been unheard for 10 ms without a break (R236), in ns of the unit's own clock; a parked one stays parked (R436). -/
def unheardDue (tag rank : Nat) (c : Chan) : Option Nat :=
  (sheafOf c tag).bind (fun s => (memberOf s rank).bind (fun m =>
    if !s.isApex ∨ s.state = .forming ∨ m.state = .parked ∨ m.state = .lost ∨ m.state = .fenced then none else m.unheard.map (fun t => t + 10000000)))
/-- A member has been unheard for 10 ms without a break (R236): it is LOST, the domain is suspended, its unresolved generations fail. -/
def chanUnheard (tag rank : Nat) (c0 : Chan) : Chan :=
  chanAtClock (unheardDue tag rank) (fun c =>
    match sheafOf c tag with
    | none => c
    | some s0 =>
      let s := updMember rank (fun m => { m with state := .lost, unreached := true }) s0
      suspendSheaf tag 4 true (failGens tag 4 (openFrom s s.oldest) (putSheaf c s))) c0

/-! ### Closing (R259) -/
/-- The notice that a sheaf is CLOSED. -/
def closedGran (s : Sheaf) (cause : Nat) : Gran := lay (⟨0, 8, Config.pktType .sheafClosed⟩ :: sheafFlds s ++ [⟨48, 8, cause⟩])
/-- Seal a silo (R331, R339): its head shows the time and the cause. -/
def sealSilo (tag rc cause : Nat) (c : Chan) : Chan :=
  let put := fun (r : Rec) =>
    if r.typ = 1 ∧ r.tag = tag ∧ r.rc = rc then
      { r with grans := r.grans.mapIdx (fun i g => if i = 2 then g ||| lay [⟨64, 64, chanNs c⟩, ⟨148, 1, 1⟩, ⟨149, 8, cause⟩] else g) }
    else r
  { c with gran := { c.gran with logs := c.gran.logs.map put, unchained := c.gran.unchained.map put } }
/-- A channel lets a closed sheaf go: its route entry is deleted, its pairs forgotten (R224), its silo sealed. -/
def forgetSheaf (tag cause : Nat) (c : Chan) : Chan :=
  match sheafOf c tag with
  | none => c
  | some s =>
    let c1 := forgetPairs tag (sealSilo tag s.rc.toNat cause (dropSheaf c tag))
    strictUpdate { c1 with shv := { c1.shv with tags := tabSet 0 c1.shv.tags tag 0, joins := c1.shv.joins.filter (fun j => decide (j.1 ≠ tag)) } }
/-- With no generation unresolved a CLOSING sheaf is CLOSED (R229): the notice goes down every route, deleting the entries, and up to the
mill, whose directory forgets the tag. DESIGN CHOICE (assumption 60): one notice does both. -/
def chanClosed (tag : Nat) (c : Chan) : Chan :=
  match sheafOf c tag with
  | none => c
  | some s =>
    if !s.isApex ∨ !(s.state = .closing ∨ s.state = .closed) ∨ !(openFrom s s.oldest).isEmpty then c
    else
      let g := closedGran s s.closeCause
      let ports := ((c.shv.joins.filter (fun j => decide (j.1 = tag))).map (fun j => j.2.2) ++ routePorts s)
      let w := bundleWidth c
      let c1 := ((ports.map (fun p => p / w)).dedup).foldl (fun (a : Chan) b => chanSoloDown a (b * w) 1 g) c
      let c2 := if c1.clk.role = 3 then c1 else chanSoloUp c1 1 g
      let c3 := if s.state = .closing then sheafTo s .closed s.closeCause c2 else c2
      forgetSheaf tag s.closeCause c3
/-- The notice passes a channel on its way down, or up to the mill, which keeps the apex of a sheaf that is formed again (cause 0, R253). -/
def levelClosed (p : Nat) (g : Gran) (c : Chan) : Chan :=
  let tag := gf g 47 16
  if isUpPort p then
    match sheafOf c tag with
    | none => forgetPairs tag c
    | some s =>
      let w := bundleWidth c
      let ports := ((c.shv.joins.filter (fun j => decide (j.1 = tag))).map (fun j => j.2.2) ++ routePorts s)
      forgetSheaf tag (gf g 55 48) (((ports.map (fun p => p / w)).dedup).foldl (fun (a : Chan) b => chanSoloDown a (b * w) 1 g) c)
  else
    let c1 := if c.clk.role = 3 then c else chanSoloUp c 1 g
    let a := if gf g 55 48 = 0 then tabGet 0 c1.shv.tags tag else 0
    forgetSheaf tag (gf g 55 48) (tagApex tag 0 { c1 with shv := { c1.shv with was := tabSet 0 c1.shv.was tag a } })
/-- When a sheaf has been suspended for the program's time (R251), in ns of the unit's own clock. -/
def suspendDue (tag : Nat) (c : Chan) : Option Nat :=
  (sheafOf c tag).bind (fun s => if s.isApex ∧ s.state = .suspended then some (s.suspendedAt + pgSuspendTimeoutS s.program * nsSec) else none)
/-- A sheaf suspended for the program's time closes (R251). -/
def chanSuspendTimeout (tag : Nat) (c : Chan) : Chan := chanAtClock (suspendDue tag) (closeSheaf tag 3) c
/-- The apex of a tag that is known to lie beneath this channel: at the mill from its directory, elsewhere as learnt in passing. -/
def apexBelow (c : Chan) (tag : Nat) : Option Nat :=
  let a := tabGet 0 c.shv.tags tag
  if a ≠ 0 && decide (a ≠ chanFpa c) && decide (a / 2 ^ 29 % 4 < chanLevel c) && fpaBelow c a then some a else none
/-- Pass a member's notice on toward the apex: down where it is known to lie beneath this channel, else up, except at the mill. -/
def towardApex (tag vc : Nat) (gs : List Granule) (c : Chan) : Chan :=
  match apexBelow c tag with
  | some a => sendToward c a vc gs
  | none => if c.clk.role = 3 then c else chanSendUp c vc gs
/-- Is the channel the apex of a tag? -/
def apexHere (c : Chan) (tag : Nat) : Bool := match sheafOf c tag with | some s => s.isApex | none => false
/-- A member leaves (R259). -/
def chanLeave (g : Gran) (c : Chan) : Chan :=
  let tag := gf g 47 16
  if apexHere c tag then closeSheaf tag 1 c else towardApex tag 1 [plain g] c

/-! ### Fences (R38, R249, R431) -/
/-- What a fence does to the generations of a sheaf that it suspends: those from the first that the member has not arrived for can never be `ARMED`,
and fail with `ROLLED_BACK`; where none of them is open, the word alone tells the leaves. DESIGN CHOICE (assumption 57). -/
def fenceFails (tag rank : Nat) (c : Chan) : Chan :=
  match sheafOf c tag with
  | none => c
  | some s =>
    if !(s.state = .ready ∨ s.state = .running) then c
    else
      let n := ((List.range (s.openTo - s.oldest)).map (fun i => s.oldest + i)).find? (fun k => !(s.toks.any (fun t => decide (t.rank = rank ∧ t.gen = k)) ||
        (genOf s k).ranks.contains rank))
      match n with
      | some k => failGens tag 8 (openFrom s k) c
      | none => sendWord s (failGran c s { genOf s s.openTo with num := s.openTo, cause := 8 }) c
/-- The apex takes a fence or withdraw notice: the member is FENCED; past FORMING the sheaf is suspended, unless the program permits straggler
exclusion. Its record says whether the fence was injected (R441). -/
def memberFence (tag rank cause : Nat) (inj : Bool) (c : Chan) : Chan :=
  match sheafOf c tag with
  | none => c
  | some s =>
    match memberOf s rank with
    | none => c
    | some m =>
      if m.state = .fenced then c
      else
        let s1 := updMember rank (fun x => { x with state := .fenced, unreached := false }) s
        let c1 := chanRaiseAt inj (some (tag, s1.rc.toNat)) (putSheaf c s1) { ev := .memberFenced, vals := [tag, rank, m.serial, cause] }
        if s.state = .forming ∨ straggles c s then pump tag c1 else suspendSheaf tag 0 false (fenceFails tag rank c1)
/-- A fence notice (R249, R431): the barn holds it until its partials are sent; each level passes it up; the apex applies it. -/
def chanFenceNotice (g : Gran) (c : Chan) : Chan :=
  let tag := gf g 47 16
  let rank := gf g 65 48
  match sheafOf c tag with
  | none => towardApex tag 1 [plain g] c
  | some s =>
    if s.isApex then memberFence tag rank (gf g 215 208) (gbit g 216) c
    else if c.clk.role = 1 && s.route.any (fun r => decide (r.rank = rank)) then
      let s1 := updMember rank (fun m => { m with state := .fenced }) s
      pump tag (putSheaf c { s1 with fenceHeld := s1.fenceHeld.filter (fun h => decide (h.2 ≠ rank)) ++ [(g, rank)] })
    else towardApex tag 1 [plain g] c
/-- A withdraw notice (R38): as a fence notice, with cause 0. -/
def chanWithdraw (g : Gran) (c : Chan) : Chan :=
  chanFenceNotice (g &&& BitVec.ofNat 256 (2 ^ 208 - 1)) c

/-! ### Parking (R254, R256, R257) -/
/-- A park notice: the collecting barn and the apex hold the member parked. -/
def chanPark (g : Gran) (c : Chan) : Chan :=
  let tag := gf g 47 16
  let rank := gf g 65 48
  let park := fun (m : Member) => if m.state = .fenced ∨ m.state = .lost then m else { m with state := .parked, parkAt := gf g 207 144, unheard := none }
  let c1 := updSheaf tag (updMember rank park) c
  if apexHere c1 tag then c1 else towardApex tag 1 [plain g] c1
/-- Generations that waited on a rank take the unpark stamp for B_g (R257). -/
def unparkGens (rank stamp : Nat) (s : Sheaf) : Sheaf :=
  { s with gens := s.gens.map (fun g =>
      let w := g.waiting.contains rank || g.exc.any (fun e => decide (e.cls = 2) && decide (e.rank = rank) && !e.subtree)
      if genDone g || !w then g
      else { g with base := some stamp, waiting := g.waiting.filter (fun r => decide (r ≠ rank)), cutoff := false,
                    exc := g.exc.filter (fun e => !(decide (e.cls = 2) && decide (e.rank = rank) && !e.subtree)) }) }
/-- An unpark notice: the member is JOINED again, and the apex acknowledges with the sheaf's state (R227, R257). -/
def chanUnpark (g : Gran) (c : Chan) : Chan :=
  let tag := gf g 47 16
  let rank := gf g 65 48
  let un := fun (m : Member) => if m.state = .parked then { m with state := .joined } else m
  let c1 := updSheaf tag (fun s => unparkGens rank (gf g 207 144) (updMember rank un s)) c
  match sheafOf c1 tag with
  | none => towardApex tag 1 [plain g] c1
  | some s =>
    if s.isApex then
      let a : AckMsg := { outcome := 5, slot := s.slot, tag := tag, rank := rank, state := stateCode s.state, next := s.oldest,
                          rc := s.rc.toNat, apex := chanFpa c1, level := s.level, run := s.runStart }
      ackDown (ackGran a) (pump tag c1)
    else towardApex tag 1 [plain g] (pump tag c1)

/-! ### Forced sync objects (R258) -/
/-- May `FORCE_ARRIVE` act: the generation is OPEN, the rank bound, no token of it held? -/
def forceArriveOk (s : Sheaf) (rank n : Nat) : Bool :=
  s.isApex && genTakes s n && decide ((genOf s n).state = .opened) && (memberOf s rank).isSome && (tokOf s rank n).isNone &&
  !(genOf s n).ranks.contains rank
/-- Make a forced token (R258). -/
def chanForceArrive (tag rank n : Nat) (c : Chan) : Chan :=
  match sheafOf c tag with
  | none => c
  | some s =>
    if !forceArriveOk s rank n then c
    else
      let c1 := chanAudit c (some (tag, s.rc.toNat)) [tag, n, rank, 1]
      let t : Tok := { rank := rank, gen := n, rc := s.rc.toNat, time := chanNs c, count := 0, paySeq := 0, level := s.level, forced := true }
      let s1 := putGen { s with toks := s.toks ++ [t] } { genOf s n with forced := true }
      if sheafStrict c s then pump tag (failFrom tag n 6 (putSheaf c1 s1)) else pump tag (putSheaf c1 s1)
/-- May `FORCE_RELEASE` act? -/
def forceReleaseOk (s : Sheaf) (n : Nat) : Bool :=
  s.isApex && genTakes s n && decide ((genOf s n).state = .opened ∨ (genOf s n).state = .armed)
/-- Take a generation to THRESHED with the members that have landed (R258). -/
def chanForceRelease (tag n : Nat) (c : Chan) : Chan :=
  match sheafOf c tag with
  | none => c
  | some s =>
    if !forceReleaseOk s n then c
    else
      let c1 := chanAudit c (some (tag, s.rc.toNat)) [tag, n, 0, 2]
      let s1 := putGen s { genOf s n with forced := true, forcedAt := some (chanNs c), cutoff := true, state := .armed, waiting := [] }
      if sheafStrict c s then pump tag (failFrom tag n 6 (putSheaf c1 s1)) else chanThreshed tag n (pump tag (putSheaf c1 s1))

/-! ### Outlier notes (R410) -/
/-- An `OUTLIER_NOTE` goes up ahead of the level's partial, and sets the flag at the apex. -/
def chanOutlier (g : Gran) (c : Chan) : Chan :=
  let tag := gf g 47 16
  match sheafOf c tag with
  | none => c
  | some s =>
    let n := gf g 127 80
    if !rcFits s (gf g 143 128) n then countStale c
    else if s.isApex then updGen tag n (fun x => { x with outlier := true }) c
    else chanSoloUp c 1 g

/-! ### Words as they pass a level (R235, R240, R244, R340) -/
/-- What a level keeps once its oldest unresolved generation has moved: the last eight resolved ones, and partials still to land. -/
def levelTrim (s : Sheaf) : Sheaf :=
  { s with gens := s.gens.filter (fun g => decide (s.oldest ≤ g.num + 8)), parts := s.parts.filter (fun x => decide (s.oldest ≤ x.gen)) }
/-- The level's sheaf as a word or an answer shows it (R56): it runs, or it is suspended. -/
def levelState (st : SheafState) (s : Sheaf) : Sheaf := if s.isApex then s else { s with state := st }
/-- A launch or failure word passes on its way down: it resolves the generation at this channel. -/
def levelWord (g : Gran) (c : Chan) : Chan :=
  let tag := gf g 55 24
  match sheafOf c tag with
  | none => c
  | some s =>
    let n := gf g 103 56
    if s.isApex then c
    else if gf g 7 0 = 0x4C then
      match injFind c 4 tag with
      | some i => injPut { i with left := i.left.map (fun k => k - 1) } c
      | none =>
        let x := { genOf s n with state := .launched, fire := gf g 183 120, branch := gf g 16 13, forced := gbit g 20 }
        let s1 := levelTrim (levelState .running { putGen s x with fires := ((n, gf g 183 120) :: s.fires).take 16, oldest := max s.oldest (n + 1) })
        strictUpdate (soloRoute (putSheaf c s1) s 1 g)
    else
      let x := { genOf s n with state := .failed, cause := gf g 127 120 }
      let s1 := levelTrim (putGen { s with oldest := max s.oldest (n + 1) } x)
      let s2 := if gf g 127 120 = 5 then s1 else levelState .suspended s1
      let c1 := genResolve tag n (soloRoute (putSheaf c s2) s 1 g)
      releaseFences tag (strictUpdate (updSheaf tag (fun y => { y with toks := y.toks.filter (fun t => decide (t.gen ≠ n)) }) c1))
/-- A result packet passes: at a barn the result is kept, and when the status granule is in, the record is written (R332, R340, R410). -/
def levelResult (gs : List Granule) (c : Chan) : Chan :=
  match gs with
  | [] => c
  | h :: body =>
    let g := h.data
    let tag := gf g 47 16
    match sheafOf c tag with
    | none => c
    | some s =>
      let n := gf g 127 80
      let c1 := sendRoute c s 1 gs
      if s.isApex ∨ c.clk.role ≠ 1 ∨ (genOf s n).state ≠ .launched ∨ gf g 143 128 ≠ s.rc.toNat then c1
      else
        let x := genOf s n
        let all := x.result ++ body.map Granule.data
        if x.result.length ≠ gf g 152 144 then c1
        else if all.length < gf g 161 153 then putSheaf c1 (putGen s { x with result := all })
        else
          let st := (all.getLast?).getD 0#256
          let y := { x with result := all.dropLast, status := st, hash := granOf (sha256 (all.flatMap granBytes)) }
          let c2 := genResolve tag n (putSheaf c1 (putGen s y))
          updSheaf tag (fun z => { z with toks := z.toks.filter (fun t => decide (t.gen ≠ n)) }) c2

end Sys2Proof.Machine
end

