-- ==== Sys2Proof/Machine/ChanForm.lean ====
section
/-! DEFINITION. Forming, binding and resuming a sheaf (R35 to R45, R222 to R228, R250 to R253), the run fingerprint and the silo head (R339,
R385 to R389). -/
namespace Sys2Proof.Machine

/-! ### The run fingerprint and the silo head (R339, R385 to R387) -/
/-- The FPAs of the channels on a sheaf's routes beneath its apex. -/
def routeChans (c : Chan) (s : Sheaf) : List Nat :=
  ((List.range (chanLevel c - 1)).flatMap (fun i => s.route.map (fun r => levelFpa c r.fpa (i + 1)))).dedup
/-- The run fingerprint an apex forms (R387). -/
def runFp (c : Chan) (s : Sheaf) : List Gran :=
  let own : RouteVer := { fpa := chanFpa c, ver := c.start.unitVersion, sem := c.start.semVersion, force := c.start.strictForce }
  let on := routeChans c s
  let vs := own :: s.vers.filter (fun v => on.contains v.fpa)
  let sems := vs.map RouteVer.sem ++ s.members.map Member.fpSem
  let vers := vs.map RouteVer.ver
  let lv := s.members.map Member.fpVer
  let lo := fun (l : List Nat) => l.foldl min (l.headD 0)
  let hi := fun (l : List Nat) => l.foldl max 0
  let sum := fun (f : Member → Nat) => s.members.foldl (fun a m => (a + leNat (sha256 (leBytes 4 m.rank ++ leBytes 8 (f m)))) % 2 ^ 256) 0
  [lay [⟨0, 8, 1⟩, ⟨8, 1, b2n (sheafStrict c s)⟩, ⟨9, 1, b2n (pgStrict s.program)⟩, ⟨10, 1, b2n (vs.any RouteVer.force)⟩, ⟨11, 1, c.clk.domain⟩,
     ⟨16, 19, s.n⟩, ⟨48, 4, lo sems⟩, ⟨52, 4, hi sems⟩, ⟨64, 8, lo vers⟩, ⟨72, 8, hi vers⟩, ⟨80, 8, lo lv⟩, ⟨88, 8, hi lv⟩, ⟨96, 16, s.rc.toNat⟩,
     ⟨128, 64, s.runStart⟩, ⟨192, 19, vs.length⟩],
   s.digest, BitVec.ofNat 256 (sum Member.fpFw), BitVec.ofNat 256 (sum Member.fpDum)]
/-- The mask of differences of two fingerprints (R388). -/
def fpMask (a b : List Gran) (amended : Bool) : Nat :=
  let x := a.getD 0 0#256
  let y := b.getD 0 0#256
  let ne := fun (i : Nat) => b2n (decide (a.getD i 0#256 ≠ b.getD i 0#256))
  layNat [⟨0, 1, b2n (decide (gf x 7 0 ≠ gf y 7 0))⟩, ⟨1, 1, b2n (decide (gf x 8 8 ≠ gf y 8 8))⟩, ⟨2, 1, b2n (decide (gf x 34 16 ≠ gf y 34 16))⟩,
    ⟨3, 1, b2n (decide (gf x 55 48 ≠ gf y 55 48 ∨ gf x 51 48 ≠ gf x 55 52 ∨ gf y 51 48 ≠ gf y 55 52))⟩, ⟨4, 1, ne 1⟩, ⟨5, 1, ne 2⟩, ⟨6, 1, ne 3⟩,
    ⟨7, 1, b2n amended⟩]
/-- The silo head (R339). -/
def writeHead (s : Sheaf) (n : Nat) (fp : List Gran) (c : Chan) : Chan :=
  let g2 := lay [⟨0, 64, chanNs c⟩, ⟨128, 19, n⟩, ⟨147, 1, b2n (sheafStrict c s)⟩, ⟨157, 8, fp.length⟩]
  let r := recWriteAt c 1 s.tag s.rc.toNat ([s.digest, g2] ++ fp ++ granules s.program) false 0
  updSheaf s.tag (fun x => { x with runFp := fp, amended := false }) (if r.2 then chanEv r.1 .ledgerSeqSaturated [] else r.1)
/-- The run fingerprint's packet (R386). DESIGN CHOICE (assumption 5): the spec gives it no header. -/
def runFpPacket (s : Sheaf) : List Granule :=
  plain (lay (⟨0, 8, Config.pktType .runFingerprint⟩ :: sheafFlds s ++ [⟨80, 48, s.first⟩, ⟨128, 16, s.rc.toNat⟩])) :: s.runFp.map plain
/-- A channel that holds the silo takes the run fingerprint: it writes its silo head and passes it down (R386). -/
def chanRunFp (gs : List Granule) (c : Chan) : Chan :=
  match gs with
  | [] => c
  | h :: fp =>
    let g := h.data
    let tag := gf g 47 16
    match sheafOf c tag with
    | none => c
    | some s =>
      if s.isApex then c
      else
        let c1 := sendRoute c s 3 gs
        let t := { s with rc := BitVec.ofNat 16 (gf g 143 128) }
        writeHead t (gf ((fp.headD {}).data) 34 16) (fp.map Granule.data) (putSheaf c1 t)
/-- The sheaf enters READY at its apex (R226, R229, R386, R409): its chaff state starts at zero, unless the run goes on (R252); the fingerprint goes to every channel that
holds the silo, and with a token held it runs. -/
def enterReady (tag : Nat) (c : Chan) : Chan :=
  match sheafOf c tag with
  | none => c
  | some s =>
    let s1 := refreshMembers { s with rates := if s.catchup then s.rates else [], catchup := false }
    let c1 := sheafTo s1 .ready 0 c
    let c2 := writeHead { s1 with state := .ready } s1.n (runFp c1 s1) c1
    match sheafOf c2 tag with
    | none => c2
    | some s2 =>
      let c3 := if c2.clk.role = 1 then c2 else sendRoute c2 s2 3 (runFpPacket s2)
      let c4 := if !s.catchup && decide (256 < (rateLanes s2.program).length) then siloEv c3 s2 .chaffStateFull [tag] else c3
      pump tag (runCheck tag c4)

/-! ### Routes (R43 to R45) -/
/-- A route update: add or remove a member at every channel on its path whose level is at most `top`. DESIGN CHOICE (assumption 56): the spec
gives its content in part and no layout. -/
def routeGran (c : Chan) (s : Sheaf) (j : RouteJob) : Gran :=
  lay (⟨0, 8, Config.pktType .routeUpdate⟩ :: sheafFlds s ++ [⟨13, 1, b2n j.add⟩, ⟨48, 18, j.rank⟩, ⟨66, 19, s.n⟩, ⟨85, 2, j.top⟩, ⟨96, 32, j.fpa⟩,
    ⟨128, 16, s.rc.toNat⟩, ⟨144, 64, j.serial⟩, ⟨208, 32, chanFpa c⟩])
/-- Its acknowledgement, with the version, the semantics version and the strict force bit of the channel (R44, R386). -/
def routeAckGran (c : Chan) (g : Gran) (full : Bool) : Gran :=
  lay [⟨0, 8, Config.pktType .routeAck⟩, ⟨8, 5, gf g 12 8⟩, ⟨13, 1, gf g 13 13⟩, ⟨14, 1, b2n full⟩, ⟨15, 1, b2n c.start.strictForce⟩,
       ⟨16, 32, gf g 47 16⟩, ⟨48, 18, gf g 65 48⟩, ⟨66, 8, c.start.unitVersion⟩, ⟨74, 4, c.start.semVersion⟩, ⟨96, 32, chanFpa c⟩,
       ⟨144, 64, gf g 207 144⟩, ⟨208, 32, gf g 239 208⟩]
/-- Add to a channel's own entry. -/
def routeAdd (c : Chan) (rank serial fpa : Nat) (s : Sheaf) : Sheaf :=
  let m : RouteMem := { rank := rank, serial := serial, fpa := fpa, port := portToward c fpa }
  let x : Member := { rank := rank, serial := serial, fpa := fpa, otherFpa := 0 }
  { s with routed := true, route := s.route.filter (fun r => decide (r.rank ≠ rank)) ++ [m],
           members := if s.isApex ∨ c.clk.role ≠ 1 then s.members else s.members.filter (fun y => decide (y.rank ≠ rank)) ++ [x] }
/-- Take from it. -/
def routeDel (c : Chan) (rank serial : Nat) (s : Sheaf) : Sheaf :=
  let held := s.route.any (fun r => decide (r.rank = rank) && decide (r.serial = serial))
  { s with route := s.route.filter (fun r => !(decide (r.rank = rank) && decide (r.serial = serial))),
           members := if s.isApex ∨ c.clk.role ≠ 1 ∨ !held then s.members else s.members.filter (fun y => decide (y.rank ≠ rank)),
           toks := if held then s.toks.filter (fun t => decide (t.rank ≠ rank)) else s.toks }
/-- The levels of the channels that a route toward position f runs through below this apex, or below the turn when f lies elsewhere. -/
def routeTop (c : Chan) (f : Nat) : Nat :=
  if fpaBelow c f then chanLevel c - 1 else if some (fpaYard f) = c.yard then 2 else 3
/-- Start a route update: the own entry at once, the others by a packet each awaits (R44). `top` is the highest level it applies at. -/
def startRoute (tag rank serial fpa top outcome : Nat) (add : Bool) (c : Chan) : Chan :=
  match sheafOf c tag with
  | none => c
  | some s =>
    let ls := ((List.range top).map (fun i => top - i)).map (levelFpa c fpa)
    let own := fpaBelow c fpa && decide (s.state ≠ .forming ∨ apexLevelOf (s.members.map Member.fpa) = chanLevel c)
    let s1 := if !own then s else if add then routeAdd c rank serial fpa s else routeDel c rank serial s
    let j : RouteJob := { rank := rank, serial := serial, fpa := fpa, add := add, top := top, waits := ls, began := chanClock c, sent := chanClock c, outcome := outcome }
    let same := fun (k : RouteJob) => decide (k.rank = rank) && decide (k.serial = serial) && decide (k.add = add)
    let c1 := putSheaf c { s1 with jobs := s1.jobs.filter (fun k => !same k) ++ [j] }
    if ls.isEmpty then c1 else sendToward c1 fpa 1 [plain (routeGran c s j)]
/-- Remove a route without waiting for its acknowledgements, as a refused join and a moved apex do. -/
def dropRoute (tag rank serial fpa : Nat) (c : Chan) : Chan :=
  match sheafOf c tag with
  | none => c
  | some s =>
    let j : RouteJob := { rank := rank, serial := serial, fpa := fpa, add := false, top := routeTop c fpa, waits := [], began := chanClock c }
    let c1 := putSheaf c (routeDel c rank serial s)
    if j.top = 0 then c1 else sendToward c1 fpa 1 [plain (routeGran c s j)]
/-- A route entry that is empty is deleted (R43). -/
def dropEmpty (tag : Nat) (c : Chan) : Chan :=
  match sheafOf c tag with
  | none => c
  | some s => if s.isApex ∨ !s.route.isEmpty then c else strictUpdate (dropRouted c tag)
/-- A channel takes a route update (R43, R44): applied once, passed on, acknowledged; refused where its 4,096 entries are in use. -/
def routeUpdate (p : Nat) (g : Gran) (c : Chan) : Chan :=
  let tag := gf g 47 16
  let f := gf g 127 96
  let rank := gf g 65 48
  let serial := gf g 207 144
  let add := gbit g 13
  if !fpaBelow c f then (if isUpPort p then c else chanSendUp c 1 [plain g])
  else if gf g 86 85 < chanLevel c then sendToward c f 1 [plain g]
  else
    let ack := fun (full : Bool) (a : Chan) => sendToward a (gf g 239 208) 1 [plain (routeAckGran a g full)]
    let entries := (c.shv.sheaves.filter Sheaf.routed).length
    match sheafOf c tag with
    | none =>
      if !add then ack false (if 1 < chanLevel c then sendToward c f 1 [plain g] else c)
      else if 4096 ≤ entries then ack true c
      else
        let pr := c.shv.pairs.find? (fun q => decide (q.tag = tag))
        let s : Sheaf := { tag := tag, slot := gf g 12 8, n := gf g 84 66, digest := match pr with | some q => q.digest | none => 0#256,
                           program := match pr with | some q => q.program | none => [], state := .ready, rc := BitVec.ofNat 16 (gf g 143 128),
                           level := chanLevel c, applied := [(rank, serial, true)] }
        ack false ((fun (a : Chan) => if 1 < chanLevel a then sendToward a f 1 [plain g] else a) (putSheaf c (routeAdd c rank serial f s)))
    | some s =>
      let s1 := if s.applied.contains (rank, serial, add) then s
        else
          let keep := s.applied.filter (fun x => !(decide (x.1 = rank) && decide (x.2.1 = serial))) ++ [(rank, serial, add)]
          let t := { s with applied := keep }
          if add then routeAdd c rank serial f t else routeDel c rank serial t
      let c1 := putSheaf c s1
      let c2 := if 1 < chanLevel c then sendToward c1 f 1 [plain g] else c1
      ack false (dropEmpty tag c2)

/-! ### Handing a sheaf to its apex (R41, R226) -/
/-- The hand-over to the channel that is the apex next: run, members, versions, program, and the apex that it moves from, 0 for none. DESIGN CHOICE (assumption 56): its layout, which the
spec does not give. -/
def passPacket (s : Sheaf) (apex old : Nat) : List Granule :=
  let h := lay (⟨0, 8, Config.pktType .apexPass⟩ :: sheafFlds s ++ [⟨13, 1, b2n (decide (s.state = .ready))⟩, ⟨14, 1, b2n s.catchup⟩,
    ⟨15, 1, b2n s.reformed⟩, ⟨48, 19, s.n⟩, ⟨67, 19, s.members.length⟩, ⟨86, 13, s.vers.length⟩, ⟨99, 9, (granules s.program).length⟩,
    ⟨108, 16, s.rc.toNat⟩, ⟨124, 64, s.runStart⟩, ⟨192, 32, apex⟩, ⟨224, 32, old⟩])
  let h2 := lay [⟨0, 48, s.first⟩, ⟨48, 48, s.oldest⟩, ⟨96, 64, s.prevFire⟩]
  let ms := s.members.flatMap (fun m =>
    [lay [⟨0, 18, m.rank⟩, ⟨18, 3, match m.state with | .joined => 0 | .arrived => 1 | .fenced => 2 | .lost => 3 | .rebound => 4 | .parked => 5⟩,
       ⟨21, 1, b2n m.resume.isSome⟩, ⟨22, 1, b2n m.auto⟩, ⟨23, 1, b2n m.unreached⟩, ⟨24, 1, b2n m.fpIn⟩, ⟨32, 32, m.fpa⟩, ⟨64, 32, m.otherFpa⟩,
       ⟨96, 64, m.serial⟩, ⟨160, 64, m.joinTime⟩],
     lay [⟨0, 64, m.lastFire⟩, ⟨64, 48, m.resume.getD 0⟩, ⟨112, 8, m.fpVer⟩, ⟨120, 4, m.fpSem⟩, ⟨128, 64, m.fpFw⟩, ⟨192, 64, m.fpDum⟩]])
  let vs := s.vers.map (fun v => lay [⟨0, 32, v.fpa⟩, ⟨32, 8, v.ver⟩, ⟨40, 4, v.sem⟩, ⟨44, 1, b2n v.force⟩])
  ([h, h2, s.digest] ++ ms ++ vs ++ granules s.program).map plain
/-- Read a member of a hand-over. -/
def passMember (a b : Gran) : Member :=
  { rank := gf a 17 0, serial := gf a 159 96, fpa := gf a 63 32, otherFpa := gf a 95 64,
    state := match gf a 20 18 with | 0 => .joined | 1 => .arrived | 2 => .fenced | 3 => .lost | 4 => .rebound | _ => .parked,
    joinTime := gf a 223 160, lastFire := gf b 63 0, resume := if gbit a 21 then some (gf b 111 64) else none, auto := gbit a 22,
    unreached := gbit a 23, fpVer := gf b 119 112, fpSem := gf b 123 120, fpFw := gf b 191 128, fpDum := gf b 255 192, fpIn := gbit a 24 }
/-- Members from their granules, two each. -/
def passMembers : Nat → List Gran → List Member
  | 0, _ => []
  | n + 1, a :: b :: t => passMember a b :: passMembers n t
  | _ + 1, _ => []
/-- A hand-over that has only a header tells the mill where the apex of a tag lies now. -/
def tagPacket (c : Chan) (s : Sheaf) (apex : Nat) : List Granule :=
  [plain (lay (⟨0, 8, Config.pktType .apexPass⟩ :: sheafFlds s ++ [⟨192, 32, apex⟩, ⟨224, 32, chanFpa c⟩]))]
/-- Tell the mill where the apex lies now. -/
def tellMill (s : Sheaf) (c : Chan) : Chan :=
  if c.clk.role = 3 then tagApex s.tag (chanFpa c) c
  else chanSendUp c 1 (tagPacket c s (chanFpa c))
/-- The apex of the members' positions. -/
def sheafApex (c : Chan) (s : Sheaf) : Nat := apexOf c (s.members.map Member.fpa)
/-- The apex has moved from position `old` to this channel (R42): reported where its level is another. -/
def apexMoved (s : Sheaf) (old : Nat) (c : Chan) : Chan :=
  if old = 0 ∨ old / 2 ^ 29 % 4 = chanLevel c then c else siloEv c s .apexMoved [s.tag, old, chanFpa c]
/-- A hand-over arrives. At the new apex: of a sheaf just formed, it is READY; of one that resumes, the routes are drawn anew first (R41). On
its way down it ends the entries of channels above the new apex, which learn where it lies. -/
def passIn (p : Nat) (gs : List Granule) (c : Chan) : Chan :=
  match gs.map Granule.data with
  | [] => c
  | h :: rest =>
    let tag := gf h 47 16
    let apex := gf h 223 192
    match rest with
    | [] => if c.clk.role = 3 then tagApex tag apex c else chanSendUp (tagApex tag apex c) 1 gs
    | h2 :: r =>
      if apex ≠ chanFpa c then sendToward (tagApex tag apex (if isUpPort p then dropRouted c tag else c)) apex 1 gs
      else
        let m := gf h 85 67
        let v := gf h 98 86
        let ms := passMembers m (r.drop 1)
        let vs := ((r.drop (1 + 2 * m)).take v).map (fun g => ({ fpa := gf g 31 0, ver := gf g 39 32, sem := gf g 43 40, force := gbit g 44 } : RouteVer))
        let old := sheafOf c tag
        let s0 : Sheaf := { tag := tag, slot := gf h 12 8, n := gf h 66 48, digest := r.headD 0#256,
                            program := ((r.drop (1 + 2 * m + v)).take (gf h 107 99)).flatMap granBytes }
        let s := { s0 with isApex := true, routed := true, apexFpa := apex, level := chanLevel c, rc := BitVec.ofNat 16 (gf h 123 108),
                           runStart := gf h 187 124, first := gf h2 47 0, runFirst := gf h2 47 0, oldest := gf h2 95 48, openTo := gf h2 95 48, prevFire := gf h2 159 96,
                           members := ms, vers := vs, reformed := gbit h 15, catchup := gbit h 14, applied := match old with | some o => o.applied | none => [],
                           toks := match old with | some o => o.toks | none => [] }
        let from_ := gf h 255 224
        if gbit h 13 then
          enterReady tag (apexMoved s from_ (putSheaf c (ms.foldl (fun (a : Sheaf) x => routeAdd c x.rank x.serial x.fpa a) s)))
        else
          let c1 := apexMoved s from_ (tellMill s (putSheaf c { s with state := .suspended }))
          ms.foldl (fun (a : Chan) x => startRoute tag x.rank x.serial x.fpa (chanLevel c - 1) 0xFF true a) c1

/-! ### Resumption (R250, R252) -/
/-- May the sheaf resume: every rank bound to a member that can run, and the joins it waits for in? -/
def resumeOk (s : Sheaf) : Bool :=
  s.isApex && decide (s.state = .suspended) && s.jobs.isEmpty && decide (s.members.length = s.n) &&
  s.members.all (fun m => decide (m.state ≠ .fenced ∧ m.state ≠ .lost)) &&
  (if s.catchup then s.members.any (fun m => m.resume.isSome) && s.members.all (fun m => !m.unreached || m.resume.isSome)
   else s.members.all (fun m => m.resume.isSome))
/-- The run that begins when the sheaf resumes (R239, R250, R252). DEDUCED (assumption 57): where nothing has fired yet, a catch-up takes B of its
first generation from the run start. -/
def resumeRun (s : Sheaf) : Sheaf :=
  let rs := s.members.filter (fun m => m.resume.isSome)
  let gs := rs.filterMap Member.resume
  let g := gs.foldl min (gs.headD 0)
  let fs := (rs.map Member.lastFire).filter (fun f => decide (f ≠ 0))
  let f := fs.foldl min (fs.headD 0)
  let catch_ := s.catchup || s.reformed
  let start := fun (m : Member) => if s.reformed && decide (m.lastFire = 0) then m.resume.getD 0 else 0
  let ms := s.members.map (fun (m : Member) =>
    { m with state := if m.state = .rebound then .joined else m.state, start := start m, absences := 0, unreached := false })
  let toks := if catch_ then (s.toks.filter (fun t => decide (g ≤ t.gen))).map (fun (t : Tok) => { t with taken := false }) else []
  { s with rc := if catch_ then s.rc else s.rc + 1#16, runStart := if !catch_ then (rs.map Member.joinTime).foldl max 0 else if f ≠ 0 then f else if s.reformed then (rs.map Member.joinTime).foldl max 0 else s.runStart,
           first := g, runFirst := if catch_ then s.runFirst else g, oldest := g,
           openTo := g, prevFire := f, fires := [], gens := [], parts := [], members := ms, toks := toks }
/-- The acknowledgements of a resumption: each member learns the generation it runs from (R250). -/
def resumeAcks (s : Sheaf) (c : Chan) : Chan :=
  s.members.foldl (fun (a : Chan) m =>
    let low := match m.resume with | some r => decide (r ≠ s.first) | none => false
    let k : AckMsg := { outcome := if low then 3 else 2, slot := s.slot, tag := s.tag, rank := m.rank, next := s.first, rc := s.rc.toNat,
                        apex := s.apexFpa, level := s.level, run := s.runStart }
    ackDown (ackGran k) a) c
/-- The sheaf resumes when it can; where its apex moves it is handed over first (R41, R42, R250). -/
def tryResume (tag : Nat) (cIn : Chan) : Chan :=
  match sheafOf cIn tag with
  | none => cIn
  | some sIn =>
    -- a rollback: what is still unresolved fails first, under the old count (R241)
    let cr := if sIn.catchup || sIn.reformed then cIn else failGens tag 8 (openFrom sIn sIn.oldest) cIn
    let c := if resumeOk sIn then cr else cIn
    let s := (sheafOf c tag).getD sIn
    if !resumeOk sIn then c
    else if sheafApex c s ≠ chanFpa c then
      let a := sheafApex c s
      let below := fpaBelow c a
      let c1 := sendToward c a 1 (passPacket s a (chanFpa c))
      let left := { s with isApex := false, members := if c.clk.role = 1 then s.members.filter (fun m => fpaBelow c m.fpa) else [], jobs := [],
                           route := s.route.filter (fun r => fpaBelow c r.fpa) }
      if below then dropRouted (tagApex tag a c1) tag else dropEmpty tag (putSheaf c1 left)
    else
      let s1 := resumeRun { s with apexFpa := chanFpa c, level := chanLevel c }
      let c1 := resumeAcks s1 (putSheaf c s1)
      enterReady tag (updSheaf tag (fun x => { x with members := x.members.map (fun (m : Member) => { m with resume := none, auto := false }) }) c1)

/-! ### Binding (R35 to R37, R225, R250, R253) -/
/-- Which of digest, N and slot differ from the sheaf's (R225, R227). -/
def joinDiff (s : Sheaf) (j : JoinMsg) : Nat := b2n (decide (j.digest ≠ s.digest)) + 2 * b2n (decide (j.n ≠ s.n)) + 4 * b2n (decide (j.slot ≠ s.slot))
/-- What the rank table answers. -/
structure Bound where
  sheaf : Sheaf
  out   : Nat
  /-- a binding was made: routes are to be drawn -/
  fresh : Bool := false
  old   : Option Member := none
  deriving DecidableEq, Repr
/-- The member a join makes. -/
def joinMember (s : Sheaf) (j : JoinMsg) (old : Option Member) : Member :=
  let base : Member := match old with
    | some m => if m.serial = j.serial then m else { rank := j.rank, serial := j.serial, fpa := j.fpa, otherFpa := j.otherFpa }
    | none => { rank := j.rank, serial := j.serial, fpa := j.fpa, otherFpa := j.otherFpa }
  let run := decide (s.state = .running ∨ s.state = .ready)
  { base with fpa := j.fpa, otherFpa := j.otherFpa, joinTime := j.joinTime, lastFire := j.lastFire, auto := j.auto, absences := 0, unheard := none,
              below := false, state := if s.state = .forming ∧ old.isNone then .joined else .rebound,
              resume := if j.resumeValid && !run then some j.resumeGen else none, start := if run then j.resumeGen else 0 }
/-- Would a join into a running sheaf come behind (R253)? -/
def joinBehind (s : Sheaf) (j : JoinMsg) : Bool :=
  !j.resumeValid || decide (j.resumeGen < s.oldest) ||
  s.gens.any (fun g => decide (j.resumeGen ≤ g.num) && decide (g.state = .armed ∨ g.state = .threshed ∨ g.state = .launched ∨ g.state = .failed))
/-- Bind, repeat, rebind or refuse (R35 to R37, R250, R253). DEDUCED (assumption 57): the order of the refusals, and that an `AUTO` join, which
names the leaf's own oldest generation (R252), is never `RESUME_AHEAD`. -/
def bindJoin (s : Sheaf) (j : JoinMsg) : Bound :=
  let run := decide (s.state = .running ∨ s.state = .ready)
  let other := s.members.any (fun m => decide (m.serial = j.serial) && decide (m.rank ≠ j.rank))
  let old := memberOf s j.rank
  let free := match old with | none => true | some m => decide (m.state = .fenced ∨ m.state = .lost)
  let ahead := decide (s.state = .suspended) && j.resumeValid && !j.auto && decide (s.oldest < j.resumeGen)
  if s.state = .closing ∨ s.state = .closed then { sheaf := s, out := joClosing }
  else if joinDiff s j ≠ 0 then { sheaf := s, out := joMismatch }
  else if s.n ≤ j.rank then { sheaf := s, out := joRangeBad }
  else if ahead then { sheaf := s, out := joAhead }
  else
    match old with
    | some m =>
      if m.serial = j.serial ∧ !free then
        let again := fun (x : Member) => if j.resumeValid && decide (s.state = .suspended ∨ s.reformed) then
          { x with resume := some j.resumeGen, lastFire := j.lastFire, joinTime := j.joinTime, auto := j.auto, fpa := j.fpa, otherFpa := j.otherFpa } else x
        { sheaf := updMember j.rank again s, out := 1 }
      else if !free then { sheaf := s, out := joTaken }
      else if other then { sheaf := s, out := joAlready }
      else if run && joinBehind s j then { sheaf := s, out := joBehind }
      else { sheaf := { s with members := s.members.map (fun x => if x.rank = j.rank then joinMember s j (some m) else x) }, out := 0, fresh := true,
             old := some m }
    | none =>
      if other then { sheaf := s, out := joAlready }
      else if run && joinBehind s j then { sheaf := s, out := joBehind }
      else { sheaf := { s with members := s.members ++ [joinMember s j none] }, out := 0, fresh := true }
/-- Two joins of one cycle go by leaf serial (R37): a member bound on this very edge gives way to a lower serial whose join would have been bound in
its place. The sheaf without it, and the member. -/
def bindTie (now : Nat) (s : Sheaf) (j : JoinMsg) : Option (Sheaf × Member) :=
  (memberOf s j.rank).bind (fun m =>
    let t := { s with members := s.members.filter (fun x => decide (x.rank ≠ j.rank)) }
    if m.bound = some now ∧ j.serial < m.serial ∧ (bindJoin t j).fresh then some (t, m) else none)
/-- A member's binding takes the edge it is made on (R37). -/
def boundNow (now rank : Nat) (s : Sheaf) : Sheaf := updMember rank (fun m => { m with bound := some now }) s
/-- A refusal, or a repeat. -/
def joinAnswer (c : Chan) (s : Sheaf) (j : JoinMsg) (out : Nat) : Gran :=
  ackGran { outcome := out, mismatch := if out = joMismatch then joinDiff s j else 0, slot := j.slot, tag := j.tag, rank := j.rank,
            next := if out < 0x10 then s.oldest else 0, rc := if out < 0x10 then s.rc.toNat else 0, apex := chanFpa c, level := s.level,
            run := if out < 0x10 then s.runStart else 0 }
/-- A refusal with no sheaf behind it. -/
def joinRefuse (c : Chan) (j : JoinMsg) (out : Nat) : Gran :=
  ackGran { outcome := out, slot := j.slot, tag := j.tag, rank := j.rank, apex := chanFpa c, level := chanLevel c }
/-- A binding that a join of the same cycle takes over: its acknowledgement, if it waits to be sent, is withdrawn, its route goes, and its leaf is
answered `RANK_TAKEN` (R37). -/
def tieLost (j : JoinMsg) (s : Sheaf) (m : Member) (c : Chan) : Chan :=
  let mine := fun (k : Packet) => k.grans.head?.any (fun x =>
    decide (gf x.data 15 0 = 0x4B) && decide (gf x.data 55 24 = j.tag) && decide (gf x.data 73 56 = j.rank))
  let w := bundleWidth c
  let q := portToward c m.fpa
  let c1 : Chan := { c with
    ports := tabMap {} (fun k p => if k / w = q / w then { p with dat := { p.dat with txQ := p.dat.txQ.filter (fun x => !mine x) } } else p) c.ports,
    shv := { c.shv with joins := c.shv.joins.filter (fun x => !(decide (x.1 = j.tag) && decide (x.2.1 = j.rank) && decide (x.2.2 / w = q / w))) } }
  let c2 := putSheaf c1 { s with jobs := s.jobs.filter (fun k => decide (k.rank ≠ j.rank)) }
  let c3 := if s.jobs.any (fun k => decide (k.rank = j.rank)) || s.route.any (fun r => decide (r.rank = j.rank) && decide (r.serial = m.serial))
    then dropRoute j.tag j.rank m.serial m.fpa c2 else c2
  sendToward c3 m.fpa 1 [plain (joinAnswer c s j joTaken)]
/-- Bind a join in the order of R37: the sheaf to bind it in, what that answers, and the channel after the one that gives way. -/
def bindInOrder (j : JoinMsg) (s : Sheaf) (c : Chan) : Chan × Sheaf :=
  match bindTie c.clk.time.edges s j with
  | none => (c, s)
  | some (t, m) =>
    let c1 := tieLost j t m (putSheaf c t)
    (c1, (sheafOf c1 j.tag).getD t)
/-- Read a join (R223). -/
def joinOf (c : Chan) (p : Nat) (gs : List Granule) : JoinMsg :=
  let g := (gs.headD {}).data
  let k := (gs.getD 2 {}).data
  { slot := gf g 12 8, hasProgram := gbit g 13, resumeValid := gbit g 14, auto := gbit g 15, tag := gf g 47 16, rank := gf g 65 48, n := gf g 84 66,
    resumeGen := gf g 143 96, serial := gf g 207 144, digest := (gs.getD 1 {}).data, joinTime := gf k 63 0, otherFpa := gf k 95 64,
    lastFire := gf k 159 96, program := (gs.drop 3).flatMap (fun x => granBytes x.data), fpa := joinFpa c (gf g 207 144) p, port := p }

/-! ### Forming at the mill (R225, R226, R228) -/
/-- The set is complete: the apex is computed and the routes are drawn (R226). -/
def startForm (tag : Nat) (c : Chan) : Chan :=
  match sheafOf c tag with
  | none => c
  | some s =>
    let ok := s.members.filter (fun m => decide (m.state ≠ .fenced))
    if s.state ≠ .forming ∨ ok.length ≠ s.n ∨ !s.jobs.isEmpty then c
    else
      let top := min (apexLevelOf (s.members.map Member.fpa)) (chanLevel c - 1)
      s.members.foldl (fun (a : Chan) m => startRoute tag m.rank m.serial m.fpa top 0 true a) c
/-- Every route of a forming sheaf is acknowledged: the sheaf is handed to its apex, then the members are acknowledged (R226). -/
def formDone (tag : Nat) (c : Chan) : Chan :=
  match sheafOf c tag with
  | none => c
  | some s =>
    let a := sheafApex c s
    let lv := apexLevelOf (s.members.map Member.fpa)
    let base := { s with apexFpa := a, level := lv, members := s.members.map (fun (m : Member) => { m with state := .joined }) }
    let s1 := if s.reformed then resumeRun base else { base with runStart := (s.members.map Member.joinTime).foldl max 0 }
    let ack := fun (m : Member) => ackGran { outcome := if s.reformed then 2 else 0, slot := s.slot, tag := tag, rank := m.rank, next := s1.first,
                                             rc := s1.rc.toNat, apex := a, level := lv, run := s1.runStart }
    let acks := fun (x : Chan) => s1.members.foldl (fun (y : Chan) m => ackDown (ack m) y) x
    let s2 := { s1 with members := s1.members.map (fun (m : Member) => { m with resume := none, auto := false }), oldApex := 0 }
    let c1 := putSheaf (tagApex tag a c) s2
    if a = chanFpa c then enterReady tag (acks (apexMoved s2 s.oldApex c1))
    else dropRouted (acks (sendToward c1 a 1 (passPacket { s2 with state := .ready } a s.oldApex))) tag
/-- A join for a forming sheaf; one that would need a 4,097th route entry at the mill itself is refused (R43). -/
def formJoin (j : JoinMsg) (s0 : Sheaf) (c0 : Chan) : Chan :=
  let t := bindInOrder j s0 c0
  let c := t.1
  let s := t.2
  let r := bindJoin s j
  let ok := r.sheaf.members.filter (fun m => decide (m.state ≠ .fenced))
  let full := decide (ok.length = s.n) && decide (apexLevelOf (r.sheaf.members.map Member.fpa) = chanLevel c) &&
    decide (4096 ≤ (c.shv.sheaves.filter Sheaf.routed).length) && !s.routed
  if r.fresh && full then ackDown (joinAnswer c s j joRouteFull) (putSheaf c s)
  else if r.fresh then
    startForm j.tag (chanAudit (putSheaf c (boundNow c.clk.time.edges j.rank r.sheaf)) (some (j.tag, s.rc.toNat)) [j.serial, j.rank, j.tag])
  else ackDown (joinAnswer c s j r.out) (putSheaf c r.sheaf)
/-- A join for an unknown tag (R225, R303): it opens a forming entry, if it carries its program whole and valid and there is room. -/
def openForm (j : JoinMsg) (c : Chan) : Chan :=
  let forming := (c.shv.sheaves.filter (fun s => decide (s.state = .forming))).length
  let bad := if granOf (sha256 j.program) = j.digest then progCheck c.start.semVersion j.program else 1
  if !j.hasProgram then ackDown (joinRefuse c j joNeeded) c
  else if 4096 ≤ forming ∨ 1048576 ≤ c.shv.tags.length then ackDown (joinRefuse c j joFormFull) c
  else if j.n = 0 ∨ 262144 < j.n ∨ j.n ≤ j.rank then ackDown (joinRefuse c j joRangeBad) c
  else if bad ≠ 0 then ackDown (joinRefuse c j joCorrupt) (chanEv c .sheafState [j.tag, 0, bad])
  else
    let s : Sheaf := { tag := j.tag, slot := j.slot, n := j.n, digest := j.digest, program := j.program, isApex := true, apexFpa := chanFpa c,
                       level := chanLevel c, openedAt := chanClock c, reformed := j.auto, oldApex := if j.auto then tabGet 0 c.shv.was j.tag else 0 }
    let c1 := tagApex j.tag (chanFpa c) { c with shv := { c.shv with was := tabSet 0 c.shv.was j.tag 0 } }
    formJoin j s (sheafTo s .forming 0 c1)
/-- When `FORM_TIMEOUT_S` has passed since the entry opened (R228), on the unit's clock in ns. -/
def formDue (tag : Nat) (c : Chan) : Option Nat :=
  (sheafOf c tag).bind (fun s => if s.state = .forming then some (s.openedAt + pgFormTimeoutS s.program * nsSec) else none)
/-- A sheaf that did not form in time is CLOSED, every bound member answered (R228). -/
def chanFormTimeout (tag : Nat) (c0 : Chan) : Chan :=
  chanAtClock (formDue tag) (fun c =>
    match sheafOf c tag with
    | none => c
    | some s =>
      let ack := fun (m : Member) => ackGran { outcome := joFormTimeout, slot := s.slot, tag := tag, rank := m.rank, apex := s.apexFpa, level := s.level }
      let c1 := s.members.foldl (fun (a : Chan) m => ackDown (ack m) a) c
      forgetSheaf tag 5 (sheafTo { s with closeCause := 5 } .closed 5 c1)) c0

/-! ### Joins at the apex (R36, R44, R45, R253) -/
/-- The routes of a binding: add toward the member, remove toward the one it replaces (R44). -/
def joinRoutes (j : JoinMsg) (old : Option Member) (out : Nat) (c : Chan) : Chan :=
  let c1 := match old with
    | some m => if m.serial = j.serial ∧ m.fpa = j.fpa then c else startRoute j.tag m.rank m.serial m.fpa (routeTop c m.fpa) out false c
    | none => c
  startRoute j.tag j.rank j.serial j.fpa (routeTop c j.fpa) out true c1
/-- The acknowledgement of a join whose routes are drawn (R44, R253). -/
def routedAck (c : Chan) (s : Sheaf) (m : Member) (out : Nat) : Gran :=
  ackGran { outcome := out, slot := s.slot, tag := s.tag, rank := m.rank, next := if s.state = .suspended then s.oldest else m.start, rc := s.rc.toNat,
            apex := chanFpa c, level := s.level, run := s.runStart }
/-- Route updates that have come to an end: a join is acknowledged once all of its updates are in; a forming sheaf is formed, a suspended one
resumes when it can (R44, R226, R250). A join sent for catching up is answered by the resumption (R252). -/
def routeSettle (tag : Nat) (c : Chan) : Chan :=
  match sheafOf c tag with
  | none => c
  | some s =>
    let open_ := (s.jobs.filter (fun j => !j.waits.isEmpty)).map RouteJob.rank
    let done := (s.jobs.filter (fun j => !open_.contains j.rank && j.add)).map (fun j => (j.rank, j.outcome))
    let c1 := putSheaf c { s with jobs := s.jobs.filter (fun j => open_.contains j.rank) }
    if s.state = .forming then
      if open_.isEmpty && decide ((s.members.filter (fun m => decide (m.state ≠ .fenced))).length = s.n) then formDone tag c1 else c1
    else
      let c2 := done.foldl (fun (a : Chan) d => match memberOf s d.1 with
        | none => a
        | some m => if d.2 = 0xFF || (m.auto && decide (s.state = .suspended)) then a else ackDown (routedAck a s m d.2) a) c1
      tryResume tag c2
/-- A join is undone: its route cannot be drawn (R43, R45). DESIGN CHOICE (assumption 56): its rank is left vacant; an old fenced or lost member of the rank,
whose binding it took, does not come back. -/
def joinUndo (tag rank out : Nat) (c : Chan) : Chan :=
  match sheafOf c tag with
  | none => c
  | some s =>
    match memberOf s rank with
    | none => c
    | some m =>
      let s1 := { s with jobs := s.jobs.filter (fun j => decide (j.rank ≠ rank)), members := s.members.filter (fun x => decide (x.rank ≠ rank)) }
      let c1 := dropRoute tag rank m.serial m.fpa (putSheaf c s1)
      ackDown (ackGran { outcome := out, slot := s.slot, tag := tag, rank := rank, apex := chanFpa c, level := s.level }) c1
/-- An acknowledgement of a route update: taken by the apex that waits for it, else passed toward it. -/
def chanRouteAck (g : Gran) (c : Chan) : Chan :=
  let tag := gf g 47 16
  if gf g 239 208 ≠ chanFpa c then sendToward c (gf g 239 208) 1 [plain g]
  else
    match sheafOf c tag with
    | none => c
    | some s =>
      let rank := gf g 65 48
      let mine := fun (j : RouteJob) => decide (j.rank = rank) && decide (j.serial = gf g 207 144) && decide (j.add = gbit g 13)
      if !s.jobs.any mine then c
      else if gbit g 14 then joinUndo tag rank joRouteFull c
      else
        let f := gf g 127 96
        let v : RouteVer := { fpa := f, ver := gf g 73 66, sem := gf g 77 74, force := gbit g 15 }
        let s1 := { s with vers := s.vers.filter (fun x => decide (x.fpa ≠ f)) ++ [v],
                           jobs := s.jobs.map (fun (j : RouteJob) => if mine j then { j with waits := j.waits.filter (fun x => decide (x ≠ f)) } else j) }
        routeSettle tag (putSheaf c s1)
/-- When the next route update of a sheaf is sent again: 100 µs after it went out last (R44). -/
def resendDue (tag : Nat) (c : Chan) : Option Nat :=
  (sheafOf c tag).bind (fun s => ((s.jobs.filter (fun j => !j.waits.isEmpty)).map (fun j => j.sent + 100000)).min?)
/-- 100 µs without an acknowledgement: the updates that have waited so long go out again (R44, R45). -/
def chanRouteResend (tag : Nat) (c0 : Chan) : Chan :=
  chanAtClock (resendDue tag) (fun c =>
    match sheafOf c tag with
    | none => c
    | some s =>
      let due := fun (j : RouteJob) => !j.waits.isEmpty && decide (edgeAt (j.sent + 100000) ≤ c.clk.time.edges)
      let s1 := { s with jobs := s.jobs.map (fun (j : RouteJob) => if due j then { j with sent := chanClock c } else j) }
      (s.jobs.filter due).foldl (fun (a : Chan) j => sendToward a j.fpa 1 [plain (routeGran a s j)]) (putSheaf c s1)) c0
/-- When a join's route has been without a path for 10 s (R45). -/
def unreachableDue (tag rank : Nat) (c : Chan) : Option Nat :=
  (sheafOf c tag).bind (fun s =>
    ((s.jobs.filter (fun j => decide (j.rank = rank) && !j.waits.isEmpty)).map (fun j => j.began + 10 * nsSec)).min?)
/-- 10 s without a path: the join is refused (R45). -/
def chanUnreachable (tag rank : Nat) (c : Chan) : Chan :=
  chanAtClock (unreachableDue tag rank) (fun x => routeSettle tag (joinUndo tag rank joUnreachable x)) c
/-- A re-form notice (R253). -/
def reformGran (s : Sheaf) : Gran := lay (⟨0, 8, 0x57⟩ :: sheafFlds s ++ [⟨128, 16, s.rc.toNat⟩])
/-- The apex would move while the sheaf runs (R253): the domain is suspended, every member is told to form it again, and the apex deletes its
routes and its state. -/
def reformSheaf (tag newFpa : Nat) (c : Chan) : Chan :=
  let c0 := suspendSheaf tag 0 false c
  match sheafOf c0 tag with
  | none => c0
  | some s =>
    let c1 := sendToward (soloRoute c0 s 1 (reformGran s)) newFpa 1 [plain (reformGran s)]
    let c2 := s.route.foldl (fun (a : Chan) r => dropRoute tag r.rank r.serial r.fpa a) c1
    let c3 := tagApex tag 0 c2
    let c4 := if c3.clk.role = 3 then { c3 with shv := { c3.shv with was := tabSet 0 c3.shv.was tag (chanFpa c) } } else chanSoloUp c3 1 (closedGran s 0)
    strictUpdate (dropRouted c4 tag)
/-- A join at the apex of a sheaf past FORMING. -/
def apexJoin (j : JoinMsg) (s0 : Sheaf) (c0 : Chan) : Chan :=
  let t := bindInOrder j s0 c0
  let c := t.1
  let s := t.2
  let r := bindJoin s j
  if !r.fresh then
    let c1 := putSheaf c r.sheaf
    let quiet := r.out = 1 ∧ j.auto ∧ s.state = .suspended
    tryResume j.tag (if quiet then c1 else ackDown (joinAnswer c s j r.out) c1)
  else
    let c1 := chanAudit (putSheaf c (boundNow c.clk.time.edges j.rank r.sheaf)) (some (j.tag, s.rc.toNat)) [j.serial, j.rank, j.tag]
    if s.state ≠ .suspended ∧ sheafApex c r.sheaf ≠ chanFpa c then reformSheaf j.tag j.fpa c1
    else routeSettle j.tag (joinRoutes j r.old 0 c1)
/-- A join goes down toward the apex at position a (R225). Where it came up by the same bundle its answer does not pass this way. -/
def joinDown (a : Nat) (j : JoinMsg) (gs : List Granule) (c : Chan) : Chan :=
  let w := bundleWidth c
  let back := fun (x : Nat × Nat × Nat) => decide (x.1 = j.tag) && decide (x.2.1 = j.rank) && decide (x.2.2 / w = portToward c a / w)
  sendToward { c with shv := { c.shv with joins := c.shv.joins.filter (fun x => !back x) } } a 1 gs
/-- A join at the mill (R225): with no sheaf of its tag, older joins of it are past. -/
def joinAtMill (p : Nat) (gs : List Granule) (c : Chan) : Chan :=
  let j := joinOf c p gs
  match sheafOf c j.tag with
  | some s =>
    let c1 := noteJoin j.tag j.rank p c
    if s.state = .forming then formJoin j s c1 else if s.isApex then apexJoin j s c1 else c1
  | none =>
    let a := tabGet 0 c.shv.tags j.tag
    if a = 0 then openForm j (noteJoin j.tag j.rank p { c with shv := { c.shv with joins := c.shv.joins.filter (fun x => decide (x.1 ≠ j.tag)) } })
    else joinDown a j gs (noteJoin j.tag j.rank p c)
/-- A join reaches the apex (R36): at the mill as R225 says; at a lower apex, sent on by the mill, and passed on by a yard above it (R225). -/
def joinAtApex (p : Nat) (gs : List Granule) (c : Chan) : Chan :=
  if c.clk.role = 3 then joinAtMill p gs c
  else
    let j := joinOf c p gs
    if apexHere c j.tag then (match sheafOf c j.tag with | some s => apexJoin j s c | none => c)
    else match apexBelow c j.tag with
      | some a => joinDown a j gs c
      | none => c
/-- A channel forwards a join upward (R224): the program goes with the first of its tag and digest only, and always with an `AUTO` join. One that comes
from above is on its way down to the apex (R225). -/
def joinForward (p : Nat) (gs : List Granule) (c : Chan) : Chan :=
  if c.clk.role = 3 then c
  else if isUpPort p then joinAtApex p gs c
  else
    let j := joinOf c p gs
    let c1 := noteJoin j.tag j.rank p c
    let known := c1.shv.pairs.any (fun q => decide (q.tag = j.tag) && decide (q.digest = j.digest))
    let bare : List Granule := match gs with
      | g :: t => plain (g.data &&& ~~~(BitVec.ofNat 256 (2 ^ 13))) :: t.take 2
      | [] => []
    if !j.hasProgram then chanSendUp c1 1 gs
    else if known then chanSendUp c1 1 (if j.auto then gs else bare)
    else if c1.shv.pairs.length < 4096 then
      let q : Pair := { tag := j.tag, digest := j.digest, at_ := chanClock c1, program := j.program }
      chanSendUp { c1 with shv := { c1.shv with pairs := c1.shv.pairs ++ [q] } } 1 gs
    else chanSendUp c1 1 gs
/-- When a recorded pair is forgotten: 10 s after it was recorded, while no route entry of its tag is held (R224). -/
def pairDue (tag : Nat) (digest : Gran) (c : Chan) : Option Nat :=
  if (sheafOf c tag).any Sheaf.routed then none
  else (c.shv.pairs.find? (fun q => decide (q.tag = tag) && decide (q.digest = digest))).map (fun q => q.at_ + 10 * nsSec)
/-- 10 s have passed since a pair was recorded (R224): it is forgotten. -/
def chanForgetPair (tag : Nat) (digest : Gran) (c0 : Chan) : Chan :=
  chanAtClock (pairDue tag digest) (fun c =>
    { c with shv := { c.shv with pairs := c.shv.pairs.filter (fun q => !(decide (q.tag = tag) && decide (q.digest = digest))) } }) c0

/-! ### Member fingerprints (R385, R389) -/
/-- A member fingerprint: the barn writes the binding record with it and the leaf's serial; the apex holds the latest of each rank. -/
def chanMemberFp (p : Nat) (g : Gran) (c : Chan) : Chan :=
  let tag := gf g 47 16
  let rank := gf g 65 48
  let rc := match sheafOf c tag with | some s => s.rc.toNat | none => 0
  let c1 := if c.clk.role = 1 && !isUpPort p then
      let e : EvRec := { ev := .memberBound, vals := [(chanPort c p).far.serial] }
      let r := recWriteAt c 5 tag rc [evGran1 c false e, g, BitVec.ofNat 256 (chanPort c p).far.serial] true 128
      { r.1 with free := r.1.free + 2 }
    else c
  match sheafOf c1 tag with
  | none => towardApex tag 1 [plain g] c1
  | some s =>
    if !s.isApex then towardApex tag 1 [plain g] c1
    else
      match memberOf s rank with
      | none => c1
      | some m =>
        let diff := m.fpIn && decide (m.fpFw ≠ gf g 143 80 ∨ m.fpDum ≠ gf g 207 144) && decide (s.state = .running ∨ s.state = .ready)
        let s1 := updMember rank (fun x => { x with fpVer := gf g 73 66, fpSem := gf g 77 74, fpFw := gf g 143 80, fpDum := gf g 207 144, fpIn := true }) s
        let s2 := if diff then { s1 with amended := true } else s1
        let c2 := putSheaf c1 s2
        if diff then siloEv c2 s2 .memberFpChanged [tag, rank, m.fpFw, gf g 143 80, m.fpDum, gf g 207 144] else c2

/-! ### ROUTE_UPDATE, the hand-over, and joins in transit -/
/-- A packet of the apex to the channels on a sheaf's routes: an update, or a hand-over. -/
def chanRouteUpdate (p : Nat) (gs : List Granule) (c : Chan) : Chan :=
  match gs with
  | [] => c
  | [g] => if gf g.data 7 0 = Config.pktType .apexPass then passIn p gs c else routeUpdate p g.data c
  | _ => passIn p gs c

end Sys2Proof.Machine
end

