-- ==== Sys2Proof/Machine/ChanGran.lean ====
section
/-! DEFINITION. The granary of a channel (R331 to R360): ledger roots, capture records, retention, regions and stacks, replay streams, compare
mode's start (R356, R388), test packs, and the gleaner (R376 to R378). -/
namespace Sys2Proof.Machine

/-! ### Ledger roots (R351, R352) -/
/-- The bytes of a record. -/
def recAll (r : Rec) : Bytes := r.grans.flatMap granBytes
/-- C after the records not yet taken into it (R351). -/
def chainOn (k : Gran) (l : List Rec) : Gran :=
  l.foldl (fun a r => granOf (sha256 (granBytes a ++ sha256 (recAll r)))) k
/-- Are roots written unsigned (R352)? -/
def unsignedNow (c : Chan) : Bool := c.sec.keyless || c.sec.ledgerSeed.isNone
/-- A ledger root at the next whole second (R352): the chain is taken up to the last record, the root written and signed, kept 30 days, and sent as telemetry. -/
def chanLedgerRoot (c0 : Chan) : Chan :=
  let c := chanToWhole nsSec c0
  let k := chainOn c.gran.chain c.gran.unchained
  let u := unsignedNow c
  let g1 := lay [⟨0, 64, c.gran.lastSeq⟩, ⟨64, 64, chanNs c⟩, ⟨128, 64, c.serial⟩, ⟨192, 1, c.clk.domain⟩, ⟨193, 1, b2n u⟩]
  let sig := if u then List.replicate 64 0#8 else Config.ed25519Sign (c.sec.ledgerSeed.getD []) (granBytes g1 ++ granBytes k)
  let r := recWriteAt { c with gran := { c.gran with chain := k, unchained := [] } } 6 0 0 [g1, k, granOf sig, granOf (sig.drop 32)] false 0
  let g := r.1.gran
  let kept := (g.roots.filter (fun x => decide (chanNs c < x.at_ + 30 * nsDay)))
  let c1 := { r.1 with gran := { g with roots := g.logs.take 1 ++ kept, logs := g.logs.drop 1, rootLast := chanNs c, unsigned := u },
                       tele := teleAdd r.1.tele 1 none 0 (chanNs c) false 0 (granBytes g1 ++ granBytes k ++ sig) }
  if r.2 then chanTele c1 false { ev := .ledgerSeqSaturated } else c1

/-! ### Captures at the barn (R345 to R347) -/
/-- Is a record of this leaf, slot's sheaf and sequence number sealed here? -/
def capSealed (c : Chan) (serial tag seq : Nat) : Bool :=
  c.gran.recs.any (fun r => decide (r.typ = 3) && decide (r.tag = tag) && decide (gf (r.grans.getD 1 0#256) 151 88 = seq) &&
    decide (gf (r.grans.getD 2 0#256) 63 0 = serial))
/-- The open record a packet belongs to. -/
def capMine (p : Nat) (g : Gran) (k : OpenCap) : Bool :=
  decide (k.port = p) && decide (k.slot = gf g 13 9) && decide (k.tag = gf g 47 16) && decide (k.seq = gf g 207 144)
/-- A packet for no open record: discarded, and counted when its record is sealed (R346). -/
def capLate (p : Nat) (g : Gran) (c : Chan) : Chan :=
  if capSealed c (chanPort c p).far.serial (gf g 47 16) (gf g 207 144) then
    { c with gran := { c.gran with lateDrop := ctrInc c.gran.lateDrop } }
  else c
/-- A record lies at a barn's replay on its way through (R353): the port of a rank. -/
def passPort (c : Chan) (tag rank : Nat) : Nat :=
  match ((sheafOf c tag).map Sheaf.route).bind (fun r => r.find? (fun m => decide (m.rank = rank))) with
  | some m => m.port
  | none => 256
/-- A replay packet on its way through a channel: an open packet names the rank, the others follow it (assumption 61). -/
def capPass (gs : List Granule) (c : Chan) : Chan :=
  let g := (gs.headD {}).data
  let tag := gf g 47 16
  let seq := gf g 207 144
  let open_ := decide (gf g 7 0 = 0x60)
  let p := if open_ then passPort c tag (gf g 65 48)
    else ((c.gran.passing.find? (fun x => decide (x.1 = tag) && decide (x.2.1 = seq))).map (fun x => x.2.2)).getD 256
  let keep := c.gran.passing.filter (fun x => !(decide (x.1 = tag) && decide (x.2.1 = seq)))
  chanSend { c with gran := { c.gran with passing := if gf g 7 0 = 0x62 then keep else (tag, seq, p) :: keep } } p 2 gs true
/-- A capture open packet (R345, R350). -/
def chanCapOpen (p : Nat) (o0 o1 : Gran) (c : Chan) : Chan :=
  if gbit o0 8 then capPass [plain o0, plain o1] c
  else
    match sheafOf c (gf o0 47 16) with
    | none => c
    | some s =>
      if c.gran.caps.any (capMine p o0) then c
      else if capSealed c (chanPort c p).far.serial s.tag (gf o0 207 144) then capLate p o0 c
      else
        let k : OpenCap := { port := p, slot := gf o0 13 9, tag := s.tag, rank := gf o0 65 48, seq := gf o0 207 144,
                             full := gbit o0 14 && !s.descOnly, source := gf o0 95 80, genTag := gf o0 143 96, time := gf o1 63 0,
                             hostRef := gf o1 127 64, length := gf o1 159 128, switched := s.descOnly,
                             desc := !effLedgerFull c.start.strictForce s.program, lastAt := chanClock c }
        { c with gran := { c.gran with caps := c.gran.caps ++ [k] } }
/-- Capture data (R345): the bytes stand at their offset. -/
def chanCapData (p : Nat) (d0 : Gran) (gs : List Granule) (c : Chan) : Chan :=
  if gbit d0 8 then capPass (plain d0 :: gs) c
  else
    match c.gran.caps.find? (capMine p d0) with
    | none => capLate p d0 c
    | some k =>
      let add := gs.zipIdx.map (fun x => (gf d0 79 48 + 32 * x.2, x.1))
      let k1 := { k with data := if k.full then k.data ++ add else k.data, lastAt := chanClock c }
      { c with gran := { c.gran with caps := c.gran.caps.map (fun x => if capMine p d0 x then k1 else x) } }
/-- Data granules by offset, each once. -/
def insData (x : Nat × Granule) : List (Nat × Granule) → List (Nat × Granule)
  | [] => [x]
  | y :: ys => if x.1 < y.1 then x :: y :: ys else if x.1 = y.1 then x :: ys else y :: insData x ys
/-- Write a capture record (R347). -/
def capWrite (k : OpenCap) (torn : Bool) (bytes : Nat) (hash : Gran) (c0 : Chan) : Chan :=
  let c := { c0 with gran := { c0.gran with caps := c0.gran.caps.filter (fun x => decide (x ≠ k)) } }
  let ds := k.data.foldl (fun a x => insData x a) []
  let held := (ds.map (fun x => min 32 (bytes - x.1))).sum
  let serial := (chanPort c k.port).far.serial
  let g1 := lay [⟨0, 18, k.rank⟩, ⟨18, 1, b2n (decide (held = k.length))⟩, ⟨19, 1, b2n torn⟩, ⟨20, 1, b2n k.desc⟩, ⟨21, 1, b2n k.switched⟩,
    ⟨24, 16, k.source⟩, ⟨40, 48, k.genTag⟩, ⟨88, 64, k.seq⟩, ⟨152, 64, k.time⟩, ⟨216, 32, k.length⟩]
  let g2 := lay [⟨0, 64, serial⟩, ⟨64, 64, k.hostRef⟩, ⟨128, 32, held⟩]
  let rc := match sheafOf c k.tag with | some s => s.rc.toNat | none => 0
  let size := if k.switched then 32 * (4 + granCount k.length) else 32 * (4 + ds.length)
  let r := recWriteAt c 3 k.tag rc ([g1, g2, hash] ++ ds.map (fun x => x.2.data)) true size
  let bad := (ds.zipIdx.filter (fun x => x.1.2.poison)).map (fun x => x.2 + 4)
  let c1 := { r.1 with gran := { r.1.gran with recs := r.1.gran.recs.mapIdx (fun i x => if i = 0 then { x with bad := bad } else x),
                                               torn := if torn then ctrInc r.1.gran.torn else r.1.gran.torn } }
  let c2 := if r.2 then chanEv c1 .ledgerSeqSaturated [] else c1
  match sheafOf c2 k.tag with
  | some s => if torn then siloEv c2 s .captureTorn [serial, k.seq] else c2
  | none => if torn then chanEv c2 .captureTorn [serial, k.seq] else c2
/-- A capture close (R345, R347). -/
def chanCapClose (p : Nat) (c0 c1 : Gran) (c : Chan) : Chan :=
  if gbit c0 8 then capPass [plain c0, plain c1] c
  else
    match c.gran.caps.find? (capMine p c0) with
    | none => capLate p c0 c
    | some k => capWrite k (gbit c0 14) (gf c0 79 48) c1 c
/-- A close has not landed within 1 s of the record's last packet (R346): the record is sealed with the bytes it holds. The hash of granule 3
comes from the close packet, so that here it is a free value (assumption 62). -/
def chanCapTimeout (p slot seq : Nat) (c : Chan) : Chan :=
  let open_ := fun (x : Chan) => x.gran.caps.find? (fun k => decide (k.port = p) && decide (k.slot = slot) && decide (k.seq = seq))
  chanAtClock (fun x => (open_ x).map (fun k => k.lastAt + nsSec)) (fun b =>
    match open_ b with
    | none => b
    | some k => capWrite k true k.length (BitVec.ofNat 256 (Config.free .choice b.free)) { b with free := b.free + 1 }) c

/-! ### Retention (R348 to R350) -/
/-- A `SILO_MODE` packet (R350). -/
def siloModeGran (s : Sheaf) (full : Bool) : Gran := lay [⟨0, 8, 0x63⟩, ⟨9, 5, s.slot⟩, ⟨14, 1, b2n full⟩, ⟨16, 32, s.tag⟩]
/-- Is P below m minutes? With nothing written P is unbounded. -/
def projBelow (c : Chan) (m : Nat) : Bool := decide (ringBytes c < m * 60 * loadRate c)
/-- P in seconds, sticking at all-ones (R359). -/
def projS (c : Chan) : Nat := if loadRate c = 0 then 0xFFFFFFFF else satN 0xFFFFFFFF (ringBytes c / loadRate c)
/-- Switch a silo's mode (R350). -/
def siloSwitch (full : Bool) (s : Sheaf) (c : Chan) : Chan :=
  let t := { s with descOnly := !full }
  let c1 := soloRoute (putSheaf c t) t 3 (siloModeGran t full)
  let c2 := { c1 with gran := { c1.gran with switches := if full then c1.gran.switches else ctrInc c1.gran.switches } }
  siloEv c2 t (if full then .siloFullRestored else .siloDescriptorOnly) [t.tag]
/-- A sheaf's full-capture load (R350): the bytes of its capture records of the last 600 s. -/
def capLoad (c : Chan) (s : Sheaf) : Nat :=
  ((c.gran.recs.filter (fun r => decide (r.typ = 3) && decide (r.tag = s.tag) && decide (chanNs c < r.at_ + 600 * nsSec))).map recBytes).sum
/-- Sheaves by their full-capture load, the largest first. -/
def insLoad (c : Chan) (s : Sheaf) : List Sheaf → List Sheaf
  | [] => [s]
  | x :: xs => if capLoad c x < capLoad c s then s :: x :: xs else x :: insLoad c s xs
/-- Since when a condition has held. -/
def since (b : Bool) (t : Option Nat) (now : Nat) : Option Nat := if b then some (t.getD now) else none
/-- Has it held for n seconds? -/
def heldFor (n : Nat) (t : Option Nat) (now : Nat) : Bool := match t with | some a => decide (a + n * nsSec ≤ now) | none => false
/-- The retention steps (R350). As L counts a switched silo at full size, switching does not raise P, and every silo that may be switched is. -/
def chanRetention (c : Chan) : Chan :=
  let now := chanClock c
  let m := c.start.policy.retainMin
  let low := projBelow c m
  let ok := !decide (4 * ringBytes c < 5 * m * 60 * loadRate c)
  let g : Granary := { c.gran with lowFrom := since (projBelow c 30) c.gran.lowFrom now, okFrom := since (!projBelow c 35) c.gran.okFrom now,
                                   fullFrom := since ok c.gran.fullFrom now }
  let c1 := { c with gran := g }
  let cand := (c1.shv.sheaves.filter (fun s => decide (c1.clk.role = 1) && s.routed && !s.descOnly && !sheafStrict c1 s &&
    effLedgerFull c1.start.strictForce s.program)).foldl (fun a s => insLoad c1 s a) []
  let c2 := if low then cand.foldl (fun (a : Chan) s => siloSwitch false s a) c1
    else if heldFor 600 g.fullFrom now then (c1.shv.sheaves.filter Sheaf.descOnly).foldl (fun (a : Chan) s => siloSwitch true s a) c1
    else c1
  if !g.degraded && heldFor 60 g.lowFrom now then chanEv { c2 with gran := { c2.gran with degraded := true } } .ledgerDegraded [projS c2]
  else if g.degraded && heldFor 600 g.okFrom now then chanEv { c2 with gran := { c2.gran with degraded := false } } .ledgerRestored [projS c2]
  else c2

/-! ### Stacks and regions (R335, R336) -/
/-- Evict to the ring's present capacity. -/
def evict (c : Chan) : Chan := { c with gran := { c.gran with recs := keepFit (ringBytes c) c.gran.recs } }
/-- Mark a record `LOST_STACK`: a capture record shows it (R336, R347). -/
def markLost (s : Nat) (r : Rec) : Rec :=
  if r.stks.contains s then
    { r with lost := true, grans := if r.typ = 3 then r.grans.mapIdx (fun i g => if i = 1 then g ||| BitVec.ofNat 256 (2 ^ 22) else g) else r.grans }
  else r
/-- The stack a fine-window entry lies on: entries of 32 bytes striped by 4 KiB over the 16 stacks (assumption 51). -/
def fineStack (k : Nat) : Nat := k / 128 % 16
/-- A whole stack fails (R336). -/
def chanStackLost (s : Nat) (c : Chan) : Chan :=
  if c.gran.lostStacks.contains s then c
  else
    let g := c.gran
    let c1 := { c with gran := { g with recs := g.recs.map (markLost s), packs := g.packs.filter (fun p => !p.stks.contains s),
                                        fine := g.fine.filter (fun x => decide (fineStack x.1 ≠ s)) } }
    evict (chanEv { c1 with gran := { c1.gran with lostStacks := s :: g.lostStacks } } .stackLost [s])
/-- Change a region. -/
def updRegion (i : Nat) (f : Region → Region) (c : Chan) : Chan :=
  { c with gran := { c.gran with regions := tabUpd {} c.gran.regions i f } }
/-- A region is retired without replacement (R335): its records count as evicted. -/
def retireRegion (i : Nat) (c : Chan) : Chan :=
  let c1 := updRegion i (fun r => { r with retired := true, copying := false }) c
  let ring := ringRegion c (i % 192)
  let c2 := { c1 with gran := { c1.gran with retired := satN 0xFFF (c1.gran.retired + 1),
                                             recs := if ring then c1.gran.recs.filter (fun r => !r.rgns.contains i) else c1.gran.recs } }
  evict (chanEv c2 .regionRetired [unitPath 1 0x07 i])
/-- A region must be replaced (R335): copied to a spare of its stack, or with none left retired. -/
def replaceRegion (i : Nat) (c : Chan) : Chan :=
  let r := tabGet {} c.gran.regions i
  if r.copying ∨ r.retired then c
  else if tabGet 0 c.gran.sparesUsed (i / 192) < 12 then
    { updRegion i (fun x => { x with copying := true }) c with
      gran := { (updRegion i (fun x => { x with copying := true }) c).gran with
                sparesUsed := tabUpd 0 c.gran.sparesUsed (i / 192) (fun n => n + 1) } }
  else retireRegion i c
/-- A region copy completes (R335): the spare serves in the old region's place. -/
def chanRegionDone (i : Nat) (c : Chan) : Chan :=
  if (tabGet {} c.gran.regions i).copying then chanEv (updRegion i (fun _ => {}) c) .regionMigrated [unitPath 1 0x07 i] else c

/-! ### Buckets and the gleaner (R376 to R378) -/
/-- What a bucket's add brings about: its event once, and the history entry of every overflow (R376). -/
def bucketRaise (path level : Nat) (fired : Bool) (c : Chan) : Chan :=
  let c1 := if fired then chanEv c .bucketOverflow [path] else c
  if level = 32 then chanError path opBucket c1 else c1
/-- A correction in a region (R335, R376): two overflows within 24 h replace it. -/
def regionCorrect (i : Nat) (c : Chan) : Chan :=
  let r := tabGet {} c.gran.regions i
  let b := bucketAdd r.bucket
  let ovr := decide (r.bucket.level = 32)
  let twice := ovr && (match r.overflow with | some t => decide (chanClock c ≤ t + nsDay) | none => false)
  let c1 := updRegion i (fun x => { x with bucket := b.1, overflow := if ovr then some (chanClock c) else x.overflow }) c
  let c2 := bucketRaise (unitPath 1 0x07 i) r.bucket.level b.2 c1
  if twice then replaceRegion i c2 else c2
/-- A correction in a cache slice (R376). -/
def sliceCorrect (k : Nat) (c : Chan) : Chan :=
  let x := tabGet {} c.buckets (64 + k)
  let b := bucketAdd x
  bucketRaise (unitPath 1 0x08 k) x.level b.2 { c with buckets := tabSet {} c.buckets (64 + k) b.1 }
/-- What the gleaner reads: a region's granule, a cache slice's granule, or the flash. -/
inductive GleanAt where
  | region (i : Nat)
  | slice (k : Nat)
  | flash
  deriving DecidableEq, Repr
/-- Granules of a pass (R333, R377): 192 regions of 256 MiB in each working stack; four slices of 64 MiB, of the islands that work; a region. -/
def granaryGrans (c : Chan) : Nat := (workingStacks c).length * 192 * (regionBytes / 32)
def cacheGrans (c : Chan) : Nat := ((List.range 4).filter (clusterWorks c)).length * 2097152
def regionGrans : Nat := regionBytes / 32
/-- The unit whose pass it is, and its base period in ns (R377, R416): a region's own pass has an eighth of the granary's. -/
def passPath : GleanAt → Nat
  | .region i => if i < 3072 then unitPath 1 0x07 i else unitPath 1 0x06 0
  | .slice _ => unitPath 1 0x08 0
  | .flash => unitPath 1 0x0B 0
def passBase (c : Chan) : GleanAt → Nat
  | .region _ => c.start.policy.scrubGranaryH * nsHour
  | .slice _ => 60 * nsSec
  | .flash => c.start.policy.scrubFlashMin * nsMin
/-- When a pass falls due; of one region of its own only while it is SUSPECT (R416). -/
def passDue (w : GleanAt) (c : Chan) : Option Nat :=
  let own := match w with | .region i => decide (i < 3072) && !isSuspect c.history (passPath w) | _ => false
  -- the granary and the caches are no units of the history: their periods are the base ones
  let whole := match w with | .region i => decide (3072 ≤ i) | .slice _ => true | .flash => false
  if own then none
  else if whole then some (tabGet 0 c.history.tested (passPath w) + passBase c w)
  else some (testDue c.history (passPath w) (passBase c w))
/-- A pass begins: one still running is late, and the next starts when it ends (R377). -/
def passBegin (w : GleanAt) (c : Chan) : Chan :=
  match w with
  | .region i =>
    -- 3,072 and above: the whole granary; below, the own pass of a SUSPECT region (R416)
    if i < 3072 then
      if c.glean.regions.any (fun x => decide (x.1 = i)) then c else { c with glean := { c.glean with regions := (i, 0) :: c.glean.regions } }
    else if c.glean.granary then chanEv { c with glean := { c.glean with late := true } } .scrubLate [unitPath 1 0x06 0]
    else { c with glean := { c.glean with granary := true, read := 0 } }
  | .slice _ =>
    if c.glean.cache then chanEv { c with glean := { c.glean with cacheLate := true } } .scrubLate [unitPath 1 0x08 0]
    else { c with glean := { c.glean with cache := true, cacheRead := 0 } }
  | .flash =>
    let r := flashPassDue c.start
    let c1 := { c with start := r.1 }
    if r.2 then chanEv c1 .scrubLate [unitPath 1 0x0B 0] else c1
/-- A pass falls due (R377). -/
def chanGleanStart (w : GleanAt) (c : Chan) : Chan :=
  chanAtClock (passDue w) (fun x => passBegin w { x with history := testMark (passPath w) (chanClock x) x.history }) c
/-- A granule has been read in the passes that run over it, and a pass that has read its last one ends; one that is late starts again at once. -/
def passRead (w : GleanAt) (c : Chan) : Chan :=
  let g := c.glean
  match w with
  | .region i =>
    if g.regions.any (fun x => decide (x.1 = i)) then
      { c with glean := { g with regions := (g.regions.map (fun x => if x.1 = i then (x.1, x.2 + 1) else x)).filter (fun x => decide (x.2 < regionGrans)) } }
    else if !g.granary then c
    else if g.read + 1 < granaryGrans c then { c with glean := { g with read := g.read + 1 } }
    else { c with glean := { g with granary := g.late, late := false, lastPass := chanNs c, read := 0 } }
  | .slice _ =>
    if !g.cache then c
    else if g.cacheRead + 1 < cacheGrans c then { c with glean := { g with cacheRead := g.cacheRead + 1 } }
    else { c with glean := { g with cache := g.cacheLate, cacheLate := false, cacheRead := 0 } }
  | .flash =>
    let r := flashPassEnd c.serial (chanNs c) c.start
    chanRaiseAll { c with start := r.1 } r.2
/-- Does a pass run over what the gleaner reads? -/
def passRuns (w : GleanAt) (c : Chan) : Bool :=
  match w with
  | .region i => c.glean.granary || c.glean.regions.any (fun x => decide (x.1 = i))
  | .slice _ => c.glean.cache
  | .flash => c.start.flashPass
/-- A granule that the gleaner finds beyond correction: it is written back poisoned, reported and entered (R370, R377, R415). `seq` and `gran`
name the record's granule that stands there, where one does. -/
def gleanBad (path seq gran : Nat) (c : Chan) : Chan :=
  let put := fun (r : Rec) => if r.seq = seq ∧ gran ≠ 0 then { r with bad := if r.bad.contains gran then r.bad else gran :: r.bad } else r
  let c1 := chanEv c .scrubUncorrectable [path]
  chanError path opScrub { c1 with gran := { c1.gran with recs := c1.gran.recs.map put } }
/-- The gleaner has read a granule in a pass, stored bits `g` under fold `f` (R364, R367, R377, R378); `raced`: a foreground write to its address won,
and the write-back is cancelled. For the flash the pass itself is what completes. -/
def chanGleanGranule (w : GleanAt) (g f : Nat) (raced : Bool) (seq gran : Nat) (c : Chan) : Chan :=
  let o := rsOutcome g f
  if !passRuns w c then c
  else passRead w (match w with
    | .flash => c
    | _ =>
      let c0 := { c with code := codeCount o c.code }
      let wb := codeFeeds o || !codeUsable o
      let c0 := if raced && wb then { c0 with code := { c0.code with scrubRace := ctrInc c0.code.scrubRace } } else c0
      let path := match w with | .region i => unitPath 1 0x07 i | .slice k => unitPath 1 0x08 k | .flash => 0
      let ca := if codeFeeds o then (match w with | .region i => regionCorrect i c0 | .slice k => sliceCorrect k c0 | .flash => c0) else c0
      if !codeUsable o && !raced then gleanBad path seq gran ca else ca)
/-- Every bucket leaks by one (R376), `BUCKET_LEAK_MIN` after the last. -/
def chanLeak (c0 : Chan) : Chan :=
  let c := chanToClock (c0.start.leakAt + c0.start.policy.bucketLeakMin * nsMin) c0
  { c with start := { c.start with leakAt := chanClock c }, ports := tabMap {} (fun _ (p : Port) => { p with bucket := bucketLeak p.bucket }) c.ports,
           buckets := tabMap {} (fun _ b => bucketLeak b) c.buckets,
           gran := { c.gran with regions := tabMap {} (fun _ (r : Region) => { r with bucket := bucketLeak r.bucket }) c.gran.regions },
           code := { c.code with flashBucket := bucketLeak c.code.flashBucket } }

/-! ### Replay streams (R325, R353 to R355) -/
/-- The capture records held of a run's rank, in `CAPTURE_SEQ` order, whose `GEN_TAG` lies in a range. -/
def insSeq (r : Rec) : List Rec → List Rec
  | [] => [r]
  | x :: xs => if gf (r.grans.getD 1 0#256) 151 88 ≤ gf (x.grans.getD 1 0#256) 151 88 then r :: x :: xs else x :: insSeq r xs
def capsOf (c : Chan) (tag rc rank g0 g1 : Nat) : List Rec :=
  (c.gran.recs.filter (fun r => decide (r.typ = 3) && decide (r.tag = tag) && decide (r.rc = rc) &&
    (let g := r.grans.getD 1 0#256; decide (gf g 17 0 = rank) && decide (g0 ≤ gf g 87 40) && decide (gf g 87 40 ≤ g1)))).foldl (fun a r => insSeq r a) []
/-- Is a record sent `INCOMPLETE` (R354): torn, lacking bytes, or on a lost stack? -/
def capIncomplete (r : Rec) : Bool :=
  let g := r.grans.getD 1 0#256
  gbit g 19 || !gbit g 18 || r.lost || !r.bad.isEmpty
/-- The packets of a record in replay (R345), for a slot: open, data of up to 127 granules each, close. -/
def capPackets (slot : Nat) (r : Rec) : List (List Granule) :=
  let g1 := r.grans.getD 1 0#256
  let g2 := r.grans.getD 2 0#256
  let seq := gf g1 151 88
  let held := gf g2 159 128
  let hd := fun (ty b14 b15 : Nat) (more : List Fld) =>
    plain (lay ([⟨0, 8, ty⟩, ⟨8, 1, 1⟩, ⟨9, 5, slot⟩, ⟨14, 1, b14⟩, ⟨15, 1, b15⟩, ⟨16, 32, r.tag⟩, ⟨144, 64, seq⟩] ++ more))
  let inc := b2n (capIncomplete r)
  let ds : List Granule := (r.grans.zipIdx.drop 4).map (fun x => ({ data := x.1, poison := r.bad.contains x.2 } : Granule))
  [[hd 0x60 (b2n (decide (0 < held))) inc [⟨48, 18, gf g1 17 0⟩, ⟨80, 16, gf g1 39 24⟩, ⟨96, 48, gf g1 87 40⟩],
    plain (lay [⟨0, 64, gf g1 215 152⟩, ⟨64, 64, gf g2 127 64⟩, ⟨128, 32, gf g1 247 216⟩])]] ++
  (chunks 127 ds.length ds).zipIdx.map (fun x => hd 0x61 1 inc [⟨48, 32, 4064 * x.2⟩] :: x.1) ++
  [[hd 0x62 (gf g1 19 19) inc [⟨48, 32, held⟩], plain (r.grans.getD 3 0#256)]]
/-- The prefetcher a stream takes (R325): a free one in the cluster that serves its port, else any. -/
def freePrefetcher (c : Chan) (p : Nat) : Option Nat :=
  let used := c.gran.streams.filterMap Stream.pre
  let cl := if isUpPort p then (p - 256) / 4 else p / 64
  let free := fun (l : List Nat) => l.find? (fun k => !used.contains k)
  match free ((List.range 16).map (fun i => 16 * cl + i)) with
  | some k => some k
  | none => free (List.range 64)
/-- The slot a sheaf has at its leaves. -/
def slotOf (c : Chan) (tag : Nat) : Nat := match sheafOf c tag with | some s => s.slot | none => 0
/-- A stream that has its prefetcher sends its records; those evicted since it was ordered are a gap (R353, R354). -/
def streamRun (x : Stream) (c : Chan) : Chan :=
  let have_ := c.gran.recs.filter (fun r => decide (r.typ = 3) && x.recs.contains r.seq)
  let rs := have_.foldl (fun a r => insSeq r a) []
  let slot := slotOf c x.tag
  let c1 := rs.foldl (fun (a : Chan) r => (capPackets slot r).foldl (fun (b : Chan) k => chanSend b x.port 2 k true) a) c
  let lastGen := match rs.getLast? with | some r => gf (r.grans.getD 1 0#256) 87 40 | none => 0
  let y := { x with began := true, sent := rs.length, incomplete := (rs.filter capIncomplete).length, lastGen := lastGen }
  let c2 := { c1 with gran := { c1.gran with streams := c1.gran.streams.map (fun z => if z.cmd = x.cmd ∧ z.rank = x.rank ∧ z.port = x.port then y else z) } }
  let gone := ((x.recs.zip x.caps).filter (fun q => !(have_.any (fun r => decide (r.seq = q.1))))).map Prod.snd
  match gone.head?, gone.getLast? with
  | some a, some b =>
    chanEv { c2 with gran := { c2.gran with gaps := ctrInc c2.gran.gaps } } .replayGap [x.cmd, a, b]
  | _, _ => c2
/-- Streams that wait take prefetchers as they come free, oldest first. -/
def streamsGo : Nat → Chan → Chan
  | 0, c => c
  | n + 1, c =>
    match c.gran.streams.find? (fun x => x.pre.isNone) with
    | none => c
    | some x =>
      match freePrefetcher c x.port with
      | none => c
      | some k =>
        let y := { x with pre := some k }
        let c1 := { c with gran := { c.gran with streams := c.gran.streams.map (fun z => if z = x then y else z) } }
        streamsGo n (streamRun y c1)
/-- Open a stream of a run's rank toward a port. -/
def streamOpen (cmd tag rc rank serial p g0 g1 : Nat) (c : Chan) : Chan :=
  let x : Stream := { cmd := cmd, tag := tag, rank := rank, serial := serial, port := p, recs := (capsOf c tag rc rank g0 g1).map Rec.seq,
                      caps := (capsOf c tag rc rank g0 g1).map (fun r => gf (r.grans.getD 1 0#256) 151 88) }
  { c with gran := { c.gran with streams := c.gran.streams ++ [x] } }
/-- A stream has sent everything (R353): `REPLAY_END` goes after it, `REPLAY_DONE` is reported, and the prefetcher is free. -/
def chanStreamEnd (cmd rank : Nat) (c : Chan) : Chan :=
  match c.gran.streams.find? (fun x => decide (x.cmd = cmd) && decide (x.rank = rank) && x.began) with
  | none => c
  | some x =>
    let g := lay [⟨0, 8, 0x64⟩, ⟨16, 48, x.sent⟩, ⟨64, 48, x.incomplete⟩, ⟨112, 48, x.lastGen⟩]
    let c1 := chanSend c x.port 2 [plain g] true
    let c2 := { c1 with gran := { c1.gran with streams := c1.gran.streams.filter (fun z => decide (z ≠ x)) } }
    streamsGo 64 (chanEv c2 .replayDone [x.cmd, x.rank, x.sent, x.incomplete])
/-- A `REPLAY_END` on its way through goes where the stream's records went (assumption 61). -/
def chanEndPass (g : Gran) (c : Chan) : Chan :=
  match c.gran.passing.head? with
  | some x => chanSend c x.2.2 2 [plain g] true
  | none => c
/-- A `REPLAY_FETCH` (R354): the record of that sequence number goes to the port that asks. -/
def chanReplayFetch (p : Nat) (g : Gran) (c : Chan) : Chan :=
  let tag := gf g 47 16
  let rank := gf g 65 48
  match c.gran.recs.find? (fun r => decide (r.typ = 3) && decide (r.tag = tag) && decide (gf (r.grans.getD 1 0#256) 17 0 = rank) &&
      decide (gf (r.grans.getD 1 0#256) 151 88 = gf g 207 144)) with
  | none => c
  | some r => (capPackets (gf g 13 9) r).foldl (fun (a : Chan) k => chanSend a p 2 k true) c

/-! ### The REPLAY order (R353, R356, R388, R535) -/
/-- The fields of the body (R535). -/
structure ReplayBody where
  scope   : Nat
  compare : Bool
  domain  : Nat
  tag     : Nat
  rc      : Nat
  first   : Nat
  last    : Nat
  rank    : Nat
  dst     : List Nat
  tgtTag  : Nat
  tgtRc   : Nat
  offset  : Int
  deriving DecidableEq, Repr
def replayBody (b : Bytes) : ReplayBody :=
  { scope := bf b 0 1, compare := decide (bf b 1 1 % 2 = 1), domain := bf b 1 1 / 2 % 2, tag := bf b 4 4, rc := bf b 8 2, first := bf b 16 8 % 2 ^ 48,
    last := bf b 24 8 % 2 ^ 48, rank := bf b 32 4, dst := [bf b 40 8, bf b 48 8].filter (fun s => decide (s ≠ 0)), tgtTag := bf b 56 4,
    tgtRc := bf b 60 2, offset := toSigned 64 (bf b 64 8) }
/-- The silo head held of a run. -/
def headOf (c : Chan) (tag rc : Nat) : Option Rec := c.gran.logs.find? (fun r => decide (r.typ = 1) && decide (r.tag = tag) && decide (r.rc = rc))
/-- Do the two runs carry different program digests, where both heads are held (R356)? -/
def replayDiffers (c : Chan) (b : ReplayBody) : Bool :=
  b.compare && (match headOf c b.tag b.rc, headOf c b.tgtTag b.tgtRc with
    | some x, some y => decide (x.grans.getD 1 0#256 ≠ y.grans.getD 1 0#256)
    | _, _ => false)
/-- Is a run amended (R389)? -/
def runAmended (c : Chan) (tag rc : Nat) : Bool :=
  (sheafOf c tag).any (fun s => s.amended && decide (s.rc.toNat = rc)) ||
  c.gran.recs.any (fun r => decide (r.ev = some .memberFpChanged) && decide (r.tag = tag) && decide (r.rc = rc))
/-- A compare-mode replay begins at this channel (R356, R388, R397): the target run is compared from now on; the apex compares the fingerprints, and a
difference stands in the silos of both runs. -/
def compareStart (b : ReplayBody) (c : Chan) : Chan :=
  match sheafOf c b.tgtTag with
  | none => c
  | some s =>
    if !b.compare ∨ s.rc.toNat ≠ b.tgtRc then c
    else
      let s1 := { s with compare := some { srcTag := b.tag, srcRc := b.rc, offset := if b.tag = b.tgtTag then 0 else b.offset } }
      let c1 := putSheaf c s1
      match headOf c b.tag b.rc with
      | some h =>
        let m := fpMask ((h.grans.drop 3).take 4) s.runFp (runAmended c b.tag b.rc || runAmended c b.tgtTag b.tgtRc)
        if s.isApex ∧ m ≠ 0 then
          let v := [b.tag, b.rc, b.tgtRc, m]
          chanRecord (siloEv c1 s1 .fingerprintDiffers v) false { ev := .fingerprintDiffers, vals := v } (some (b.tag, b.rc))
        else c1
      | none => c1
/-- The order's packet (assumption 5): the command ID, then the body. -/
def replayPacket (s : Sheaf) (id : Nat) (body : Bytes) : List Granule :=
  plain (lay (⟨0, 8, Config.pktType .replayOrder⟩ :: sheafFlds s ++ [⟨48, 64, id⟩])) :: (granules body).map plain
/-- A barn starts the streams of an order (R353): in silo scope one for each current member beneath it and each rank whose records it holds,
in rank scope one to each destination. A rank bound elsewhere is reached upward. -/
def streamsStart (id : Nat) (b : ReplayBody) (c : Chan) : Chan :=
  let mine := fun (r : Nat) => c.gran.recs.any (fun x => decide (x.typ = 3) && decide (x.tag = b.tag) && decide (x.rc = b.rc) &&
    decide (gf (x.grans.getD 1 0#256) 17 0 = r))
  if b.scope = 0 then
    match sheafOf c b.tag with
    | none => c
    | some s =>
      let here := s.route.map RouteMem.rank
      let held := ((c.gran.recs.filter (fun x => decide (x.typ = 3) && decide (x.tag = b.tag) && decide (x.rc = b.rc))).map
        (fun x => gf (x.grans.getD 1 0#256) 17 0)).dedup
      let ranks := here.filter mine ++ held.filter (fun r => !here.contains r)
      streamsGo 64 (ranks.foldl (fun (a : Chan) r => streamOpen id b.tag b.rc r 0 (passPort a b.tag r) b.first (2 ^ 48 - 1) a) c)
  else if mine b.rank then
    streamsGo 64 (b.dst.foldl (fun (a : Chan) d =>
      let p := match dirFind a d with | some x => portToward a x.2.1 | none => 256
      streamOpen id b.tag b.rc b.rank d p b.first b.last a) c)
  else c
/-- The order at a channel: it begins its comparison; a barn starts streams; a yard or mill passes the order down the routes. -/
def replayTake (id : Nat) (body : Bytes) (c : Chan) : Chan :=
  let b := replayBody body
  let c1 := compareStart b c
  if c1.clk.role = 1 then streamsStart id b c1
  else match sheafOf c1 b.tag with
    | some s => sendRoute c1 s 2 (replayPacket s id body)
    | none => c1
/-- The order's packet arrives: from below it goes on to the apex, from above it is taken. -/
def replayIn (p : Nat) (gs : List Granule) (c : Chan) : Chan :=
  let g := (gs.headD {}).data
  let body := ((gs.drop 1).flatMap (fun x => granBytes x.data)).take 72
  if isUpPort p ∨ apexHere c (gf g 47 16) then replayTake (gf g 111 48) body c else towardApex (gf g 47 16) 2 gs c
/-- `REPLAY` is accepted (R353, R535): the streams started are the members of the silo, or the destinations. -/
def chanReplay (id : Nat) (body : Bytes) (c : Chan) : Chan × Nat :=
  let b := replayBody body
  match sheafOf c b.tag with
  | none => (replayTake id body c, if b.scope = 0 then 0 else b.dst.length)
  | some s =>
    (if s.isApex then replayTake id body c else towardApex s.tag 2 (replayPacket s id body) c, if b.scope = 0 then s.n else b.dst.length)

/-! ### Test packs (R358, R418) -/
/-- A pack's ID, version. -/
def packIdOf (b : Bytes) : Nat := bf b 4 4
def packVersionOf (b : Bytes) : Nat := bf b 8 4
/-- Does a pack's signature verify under a pack key (R358, R418)? -/
def packSigOk (c : Chan) (b : Bytes) : Bool :=
  decide (64 ≤ b.length) && c.sec.packKeys.any (fun k => Config.ed25519Verify k (b.take (b.length - 64)) (b.drop (b.length - 64)))
/-- The refusal of a pack (R358): 0 none, else the status code. -/
def packRefusal (c : Chan) (b : Bytes) : Nat :=
  if !packSigOk c b then 0x010E
  else if 16777216 < b.length then 0x010F
  else if c.gran.packs.any (fun p => decide (p.id = packIdOf b) && decide (packVersionOf b ≤ p.version)) then 0x0110
  else if 255 ≤ (c.gran.packs.filter (fun p => decide (p.id ≠ packIdOf b))).length then 0x0111
  else 0
/-- Bytes of a pack in the loading buffer: `data` at an offset. -/
def packPut (buf : Bytes) (o : Nat) (data : Bytes) : Bytes :=
  (buf ++ List.replicate (o - buf.length) 0#8).take o ++ data ++ buf.drop (o + data.length)
/-- `PACK_LOAD` (R358): the status. A pack's units lie over every working stack. -/
def chanPackLoad (body : Bytes) (c : Chan) : Chan × Nat :=
  let o := bf body 0 4
  let total := bf body 4 4
  let buf := packPut (if o = 0 then [] else c.gran.packBuf) o (body.drop 16)
  if bf body 8 1 % 2 = 0 then ({ c with gran := { c.gran with packBuf := buf } }, 0)
  else
    let b := buf.take total
    let r := packRefusal c b
    let g := { c.gran with packBuf := [] }
    if r ≠ 0 then ({ c with gran := { g with packRefused := ctrInc g.packRefused } }, r)
    else
      let units := (b.length + 4095) / 4096
      let p : Pack := { id := packIdOf b, version := packVersionOf b, bytes := b, stks := (workingStacks c).take units }
      (chanEv { c with gran := { g with packs := g.packs.filter (fun x => decide (x.id ≠ p.id)) ++ [p] } } .packLoaded [p.id, p.version], 0)
/-- The pack of an ID whose signature verifies again (R358). -/
def packOf (c : Chan) (id : Nat) : Option Pack := c.gran.packs.find? (fun p => decide (p.id = id) && packSigOk c p.bytes)

end Sys2Proof.Machine
end

