-- ==== Sys2Proof/Machine/ChanRun.lean ====
section
/-! DEFINITION. What else happens in a running channel: mismatch notices and path sweeps (R401, R402), engines lost and capacity (R326 to R328),
saturation (R286), injections (R439 to R441), forecasts (R442 to R444), test reports (R420). -/
namespace Sys2Proof.Machine

/-! ### Engines leave service (R326 to R328) -/
/-- The thresher of a core, else of its cluster, that takes the tasks of one no longer working (R326). -/
def heirOf (c : Chan) (t : Nat) : Option Nat := rerunAt c t
/-- Tasks queued on threshers that no longer work move to the heads of other queues (R326). With none in the cluster they wait. -/
def moveTasks (c : Chan) : Chan :=
  (List.range 64).foldl (fun (a : Chan) t =>
    let x := thresherOf a t
    if x.queue.isEmpty || thresherWorks a t then a
    else match heirOf a t with
      | none => a
      | some u =>
        let y := thresherOf a u
        setThresher (setThresher a u { y with queue := x.queue ++ y.queue }) t { x with queue := [] }) c
/-- The values of a capacity event (R330): cause, W, `LOAD_PCT`. -/
def capVals (c : Chan) (cause : Nat) : List Nat := [cause, (workingThreshers c).length, c.shv.eng.loadPct]
/-- Raise or clear one cause of `CAPACITY_DEGRADED` (R327): bit 0 `THRESHERS`, bit 1 `OVERLOAD`. -/
def capCause (bit : Nat) (on : Bool) (c : Chan) : Chan :=
  let e := c.shv.eng
  if e.degraded.testBit bit = on then c
  else
    let c1 := { c with shv := { c.shv with eng := { e with degraded := Nat.xor e.degraded (2 ^ bit) } } }
    chanEv c1 (if on then .capacityDegraded else .capacityRestored) (capVals c1 (bit + 1))
/-- After engines have left service: their tasks move, and capacity is judged (R326, R327). -/
def engineSettle (c : Chan) : Chan :=
  let c1 := moveTasks c
  capCause 0 (decide ((workingThreshers c1).length < 16)) c1
/-- A thresher's task ends, with what a condemned thresher leaves behind. -/
def chanTaskRow (t : Nat) (ok : Bool) (c : Chan) : Chan := engineSettle (chanTask t ok c)
/-- Edges of the time clock in 1 ms. -/
def edgesPerMs : Nat := 1280000
/-- A 1 ms window ends (R327): the load in percent of W × 1.2 × 10⁹ cycles per second, and `OVERLOAD`. -/
def chanLoadWindow (c0 : Chan) : Chan :=
  let c := chanToEdge (c0.shv.eng.windowAt + edgesPerMs) c0
  let e := c.shv.eng
  let cap := (workingThreshers c).length * 1200000
  let high := if 9 * cap < 10 * e.cycles then e.high + 1 else 0
  let low := if 4 * e.cycles < 3 * cap then e.low + 1 else 0
  let pct := if cap = 0 then (if e.cycles = 0 then 0 else 255) else satN 255 (e.cycles * 100 / cap)
  let c1 := { c with shv := { c.shv with eng := { e with high := high, low := low, loadPct := pct, cycles := 0,
                                                            windowAt := e.windowAt + edgesPerMs } } }
  if 10 ≤ high then capCause 1 true c1 else if 100 ≤ low then capCause 1 false c1 else c1
/-- The engines that an idle self-test tries (R322, R416), and whether one of them works. -/
def enginePath (kind ix : Nat) : Nat := unitPath 1 kind ix
def engineWorks (c : Chan) (kind ix : Nat) : Bool :=
  if kind = 1 then thresherWorks c ix else if kind = 2 then digestWorks c ix else writerWorks c ix
/-- A unit fails a self-test: it is reported (R412, R413) and entered in history (R415). DEDUCED (assumption 64): R413's `SELFTEST_FAIL` stands for the
idle self-test, the path sweep and the background vectors as for the start. -/
def chanFail (path op : Nat) (c : Chan) : Chan := chanError path op (chanEv c .selftestFail (reportVals { path := path, op := op }))
/-- A background test of a unit falls due (R416): the clock runs to it, and it is marked. -/
def chanTestAt (path base : Nat) (act : Chan → Chan) (c : Chan) : Chan :=
  chanAtClock (fun x => some (testDue x.history path base)) (fun x => act { x with history := testMark path (chanClock x) x.history }) c
/-- An idle self-test of a working thresher (kind 1), digest unit (2) or ledger writer (3), every 100 ms (R416): a failure enters its history. -/
def chanIdleTest (kind ix : Nat) (pass : Bool) (c : Chan) : Chan :=
  if !engineWorks c kind ix then c
  else chanTestAt (enginePath kind ix) 100000000 (fun x => if pass then x else engineSettle (chanFail (enginePath kind ix) opIdle x)) c
/-- An idle port engine runs the vectors again when its hour is over (R416). -/
def chanVectors (p : Nat) (pass : Bool) (c : Chan) : Chan :=
  chanTestAt (unitPath 1 0x0A p) nsHour (fun x => if pass then x else chanFail (unitPath 1 0x0A p) opIdle x) c
/-- A cluster island fails (R328): its downward ports go DOWN, its threshers leave. -/
def chanClusterLost (k : Nat) (c : Chan) : Chan :=
  if c.shv.eng.clusterBad.contains k then c
  else
    let c1 := chanEv { c with shv := { c.shv with eng := { c.shv.eng with clusterBad := k :: c.shv.eng.clusterBad } } } .clusterLost [k]
    let c2 := ((downListed c1).filter (fun p => decide (p / 64 = k) && decide ((chanPort c1 p).state ≠ .down))).foldl
      (fun (a : Chan) p => chanPortDo p (portDown p causeLos) a) c1
    engineSettle c2
/-- Granules queued on the working threshers (R286). -/
def queueSum (c : Chan) : Nat := ((workingThreshers c).map (fun t => queueGrans (thresherOf c t))).sum
/-- Does the fill of the queues call for the other state (R286): above three quarters of their capacity, or once saturated below half? -/
def satTurns (c : Chan) : Bool :=
  let cap := 512 * (workingThreshers c).length
  if c.shv.eng.saturated then decide (2 * queueSum c < cap) else decide (3 * cap < 4 * queueSum c)
/-- Since when it has, without a break (R286). -/
def satSettle (c : Chan) : Chan :=
  let e := c.shv.eng
  { c with shv := { c.shv with eng := { e with satFrom := if satTurns c then some (e.satFrom.getD c.clk.time.edges) else none } } }
/-- When the state changes: after 10 µs, once saturated after 100 µs. -/
def satDue (on : Bool) (c : Chan) : Option Nat :=
  if c.shv.eng.saturated = on || !satTurns c then none else c.shv.eng.satFrom.map (fun t => t + (if on then 12800 else 128000))
/-- Saturation begins or ends (R286). -/
def satTo (on : Bool) (c : Chan) : Chan :=
  chanAtEdge (satDue on) (fun x =>
    chanEv { x with shv := { x.shv with eng := { x.shv.eng with saturated := on, satFrom := none } } }
      (if on then .passThroughEnter else .passThroughExit) []) c
def chanSaturate (c : Chan) : Chan := satTo true c
def chanDesaturate (c : Chan) : Chan := satTo false c
/-- Does a request of P2 to P4 wait at some port (R321)? -/
def starves (c : Chan) : Bool :=
  c.ports.any (fun x => decide (x.2.state = .up) && decide (min x.2.dat.from2 (min x.2.dat.from3 x.2.dat.from4) < x.2.dat.slots))
/-- A request that has waited 1 ms is granted (R321): the clock runs until one is, twice as long at most. -/
def chanPromote (c : Chan) : Chan :=
  if starves c then chanRun (fun x => decide (x.shv.eng.promote ≠ c.shv.eng.promote)) (32 * starveSlots) c else c
/-- An error-free period of a history entry expires (R415). -/
def chanHistDecay (i : Nat) (c0 : Chan) : Chan :=
  let e := histAt 4096 i c0.history
  if e.cls ≠ 1 ∧ e.cls ≠ 2 then c0
  else
    let c := chanTo (histEnd e) c0
    let r := histDecay 4096 i c.history
    chanRaiseAll { c with history := r.1 } r.2

/-! ### Mismatch notices and path sweeps (R401, R402) -/
/-- Was the generation's status flagged by a shadow lane here? -/
def shadowFlag (c : Chan) (s : Sheaf) (n : Nat) : Bool :=
  let g := genOf s n
  if genDone g then gbit g.status 202
  else match genRecord c s.tag s.rc.toNat n with | some r => gbit (r.grans.getD 3 0#256) 202 | none => false
/-- A mismatch notice (R401): a level passes it on; the apex acts on the first for a generation and counts the rest. -/
def chanMismatch (g : Gran) (c : Chan) : Chan :=
  let tag := gf g 47 16
  match sheafOf c tag with
  | none => towardApex tag 3 [plain g] c
  | some s =>
    let n := gf g 127 80
    let rc := gf g 143 128
    if !s.isApex then towardApex tag 3 [plain g] c
    else if s.mmGens.contains (rc, n) then { c with mmNotices := ctrInc c.mmNotices }
    else
      let v := reportVals { path := 0, op := 0x7000, gen := n, tag := tag, want := gf g 207 144, got := gf g 255 208 }
      let c1 := siloEv (putSheaf c { s with mmGens := (rc, n) :: s.mmGens }) s .resultMismatch v
      let cls := gf g 69 66
      if cls = 3 ∨ (cls = 2 ∧ shadowFlag c s n) then orderSweep tag c1 else c1
/-- A path sweep completes here (R402): the engines it found failing enter history; with none it is reported clean. -/
def chanSweepDone (tag : Nat) (found : List (Nat × Nat)) (c : Chan) : Chan :=
  if !c.sweeps.contains tag then c
  else
    let failed := found.filter (fun u => engineWorks c u.1 u.2)
    let c1 := { c with sweeps := c.sweeps.filter (fun t => decide (t ≠ tag)), pathSweeps := ctrInc c.pathSweeps }
    if failed.isEmpty then
      match sheafOf c1 tag with
      | some s => siloEv c1 s .pathSweepClean (reportVals { path := 0, op := 0x5000, tag := tag })
      | none => chanEv c1 .pathSweepClean (reportVals { path := 0, op := 0x5000, tag := tag })
    else engineSettle (failed.foldl (fun (a : Chan) u => chanFail (enginePath u.1 u.2) opIdle a) c1)

/-! ### Injections (R439 to R441) -/
/-- Do kind, duration in ms and count agree (R439)? -/
def injArgsOk (kind dur count : Nat) : Bool :=
  match kind with
  | 1 | 2 | 3 | 7 => decide (1 ≤ dur ∧ dur ≤ 600000) && decide (count = 0)
  | 4 => decide (1 ≤ count ∧ count ≤ 32) && decide (dur ≤ 600000)
  | 5 | 6 => decide (1 ≤ count ∧ count ≤ 65535) && decide (dur ≤ 600000)
  | 8 => decide (dur = 0) && decide (count = 0)
  | _ => false
/-- An injection begins (R441): its audit record, and for 0x08 its end at once. -/
def injStart (id kind arg arg2 dur count : Nat) (c : Chan) : Chan :=
  let c1 := chanEv c .injectStart [id, kind]
  if kind = 8 then chanEv c1 .injectEnd [id]
  else
    let now := chanClock c
    let i : Injection := { id := id, kind := kind, arg := arg, arg2 := arg2, start := now,
                           until_ := some (now + (if dur = 0 then 600000 else dur) * 1000000), left := if count = 0 then none else some count }
    { c1 with inj := c1.inj ++ [i] }
/-- One ends (R439, R441). -/
def injEnd (id : Nat) (c : Chan) : Chan :=
  match c.inj.find? (fun i => decide (i.id = id)) with
  | none => c
  | some i =>
    let past := c.injPast.filter (fun x => x.until_.any (fun t => decide (chanClock c ≤ t)))
    chanEv { c with inj := c.inj.filter (fun x => decide (x.id ≠ id)), injPast := { i with until_ := some (chanClock c + 10000000) } :: past } .injectEnd [id]
/-- An injection's duration, or its 600 s, run out. -/
def chanInjectEnd (id : Nat) (c : Chan) : Chan :=
  chanAtClock (fun x => (x.inj.find? (fun i => decide (i.id = id))).map (fun i => i.until_.getD (i.start + 600 * nsSec))) (injEnd id) c
/-- Injections whose count is used have ended (R439). -/
def injSettle (c : Chan) : Chan :=
  (c.inj.filter (fun i => decide (i.left = some 0))).foldl (fun (a : Chan) i => injEnd i.id a) c

/-! ### Condemned units (R417) -/
/-- Units that history has made PERMANENT leave service in RUN: a cluster island or cache slice as a failed island (R328), a stack region retired
(R335), a stack lost (R336). Each acts once. -/
def unitSettle (c : Chan) : Chan :=
  if c.start.phase ≠ 3 then c
  else (disabledUnits c.history).foldl (fun (a : Chan) p =>
    let k := bitsOf p 63 52
    let i := bitsOf p 51 40
    if (k = 0x104 ∨ k = 0x108) ∧ i < 4 then chanClusterLost i a
    else if k = 0x107 ∧ i < 3072 ∧ !(tabGet {} a.gran.regions i).retired then retireRegion i a
    else if k = 0x106 ∧ i < 16 then chanStackLost i a
    else a) c

/-! ### Forecasts (R442 to R444) -/
/-- The four optics limits of a channel's own port, from its factory block: receiver sensitivity plus 1.0 dB (0.01 dBm), then the end-of-life bias
(10 µA), for fibres A and B (assumption 63: four 2-byte fields in this order). -/
def ownLimit (c : Chan) (p q : Nat) : Int :=
  match calOf c.start.factory 0x86 p with
  | some d => let f := fun (i : Nat) => bf d (2 * i) 2
              if q < 2 then toSigned 16 (f q) + 100 else Int.ofNat (f q)
  | none => if q < 2 then 100 else 0
/-- Add an hourly value to a series; another serial at the far end starts it anew (R444). The last 14 days are kept. -/
def seriesAdd (path q p serial hour : Nat) (v limit : Int) (above : Bool) (c : Chan) : Chan :=
  let mine := fun (s : Series) => decide (s.path = path ∧ s.quantity = q ∧ s.port = p)
  match c.series.find? (fun s => mine s && decide (s.serial = serial)) with
  | some _ => { c with series := c.series.map (fun s => if mine s then
      { s with values := (hour, v) :: s.values.filter (fun x => decide (hour < x.1 + 336)) } else s) }
  | none =>
    let s : Series := { path := path, quantity := q, port := p, serial := serial, limit := limit, above := above, values := [(hour, v)] }
    { c with series := c.series.filter (fun x => !mine x) ++ [s] }
/-- A leaf's hourly values arrive at its barn (R443). -/
def chanMarginReport (p : Nat) (g : Gran) (c : Chan) : Chan :=
  let hour := gf g 79 16 / nsHour
  let serial := (chanPort c p).far.serial
  let path := unitPath 2 0x23 c.clk.domain
  let add := fun (q : Nat) (path : Nat) (v limit : Int) (above : Bool) (a : Chan) => seriesAdd path q p serial hour v limit above a
  add 5 (unitPath 2 0x20 0) (gf g 191 176) (Config.limitOf serial 5) true
    (add 4 (unitPath 2 0x21 (gf g 165 160)) (gf g 159 144) (Config.limitOf serial 4) true
      (add 3 path (gf g 143 128) (Config.limitOf serial 3) false
        (add 2 path (gf g 127 112) (Config.limitOf serial 2) false
          (add 1 path (gsf g 111 96) (-1200) true (add 0 path (gsf g 95 80) (-1200) true c)))))
/-- At a whole hour the channel adds its own ports' and sensors' values to its series (R443). -/
def chanOwnMargins (os : List Optics) (cp : Chan) : Chan :=
  let c0 := chanToWhole nsHour cp
  let c := os.foldl (fun (a : Chan) o => if o.port < 272 then setChanPort a o.port (portOptics o (chanPort a o.port)) else a) c0
  let hour := chanNs c / nsHour
  let port := fun (a : Chan) (x : Nat × Port) =>
    let path := unitPath 1 0x05 x.1
    let add := fun (q : Nat) (v : Int) (above : Bool) (b : Chan) => seriesAdd path q x.1 x.2.far.serial hour v (ownLimit c x.1 q) above b
    let h := hourMeans x.2
    if x.2.far.known then
      add 3 h.2.2.2 false (add 2 h.2.2.1 false (add 1 (toSigned 16 h.2.1) true (add 0 (toSigned 16 h.1) true a)))
    else a
  let cm := c.ports.foldl port c
  let c1 := { cm with ports := tabMap {} (fun _ p => hourBegin p) cm.ports }
  let sup := (c.sensors.filter (fun x => x.2.present)).map (fun x => Int.ofNat x.2.mv - Int.ofNat x.2.vmin)
  match sup with
  | [] => c1
  | v :: vs => seriesAdd (unitPath 1 0x0C 0) 5 0xFFFF c.serial hour (vs.foldl min v) (Config.limitOf c.serial 5) true c1
/-- A least-squares line over hourly values, as integers (R444): n, the slope times `den`, `den`, and the line at hour x times n·den. -/
structure Fit where
  n    : Int
  num  : Int
  den  : Int
  at_  : Int
  deriving DecidableEq, Repr
def fitLine (l : List (Nat × Int)) (x : Nat) : Fit :=
  let n : Int := l.length
  let sx : Int := (l.map (fun v => Int.ofNat v.1)).sum
  let sy := (l.map Prod.snd).sum
  let sxx := (l.map (fun v => Int.ofNat v.1 * Int.ofNat v.1)).sum
  let sxy := (l.map (fun v => Int.ofNat v.1 * v.2)).sum
  let num := n * sxy - sx * sy
  let den := n * sxx - sx * sx
  { n := n, num := num, den := den, at_ := sy * den + num * (n * Int.ofNat x - sx) }
/-- Days, whole or begun, until the fitted line reaches the limit (R444): none where it does not move toward it; 0 where the value is beyond it. -/
def daysLeft (s : Series) (hour : Nat) : Option Nat :=
  let sg : Int := if s.above then 1 else -1
  let cur := match s.values with | v :: _ => v.2 | [] => s.limit
  if sg * cur < sg * s.limit then some 0
  else
    let f := fitLine s.values hour
    if f.den ≤ 0 ∨ 0 ≤ sg * f.num then none
    else
      let gap := sg * (f.at_ - s.limit * f.n * f.den)
      if gap ≤ 0 then some 0 else
        let d := -(sg * f.num) * f.n * 24
        some (((gap + d - 1) / d).toNat)
/-- One series is judged (R444): the series, and whether its forecast was raised or cleared. -/
def seriesJudge (hour : Nat) (s0 : Series) : Series × Option Bool :=
  let s := { s0 with values := s0.values.filter (fun x => decide (hour < x.1 + 336)) }
  if s.values.length < 168 then (s, none)
  else
    let d := daysLeft s hour
    let calm := match d with | none => true | some n => decide (45 < n)
    let run := if calm then s.clearRun + 1 else 0
    let fail := match d with | some n => decide (n ≤ 30) | none => false
    if fail then ({ s with standing := true, clearRun := 0, days := d.getD 0xFFFF }, if s.standing then none else some true)
    else if s.standing && decide (7 ≤ run) then ({ s with standing := false, clearRun := 0, days := 0xFFFF }, some false)
    else ({ s with clearRun := run }, none)
/-- The standing quantities of a port's own series, or of the leaf at it: the mask, and the least days left. -/
def forecastOf (leaf : Bool) (p : Nat) (l : List Series) : Nat × Nat :=
  let m := l.filter (fun s => s.standing && decide (s.port = p) && decide (decide (bitsOf s.path 63 60 = 2) = leaf))
  (m.foldl (fun a s => Nat.lor a (2 ^ s.quantity)) 0, m.foldl (fun a s => min a s.days) 0xFFFF)
/-- Tell of a port's forecasts (R444, R445, R533): the leaf beneath it by packet, the port's own in its forecast word. -/
def forecastTell (leaf : Bool) (p : Nat) (c : Chan) : Chan :=
  let f := forecastOf leaf p c.series
  if leaf then chanSoloDown c p 3 (lay [⟨0, 8, 0x53⟩, ⟨8, 6, f.1⟩, ⟨16, 16, f.2⟩])
  else setChanPort c p { chanPort c p with forecast := f.1 + f.2 * 65536 }
/-- Report a forecast raised or cleared. -/
def forecastRaise (s : Series) (on : Bool) (c : Chan) : Chan :=
  let c1 := chanEv c (if on then .forecastFail else .forecastClear) (if on then [s.path, s.quantity, s.days] else [s.path, s.quantity])
  if s.port = 0xFFFF then c1 else forecastTell (decide (bitsOf s.path 63 60 = 2)) s.port c1
/-- The daily evaluation, every 86,400 s of pod time (R444). -/
def chanForecastEval (c0 : Chan) : Chan :=
  let c := chanToWhole nsDay c0
  let hour := chanNs c / nsHour
  let js := c.series.map (seriesJudge hour)
  js.foldl (fun (a : Chan) j => match j.2 with | some on => forecastRaise j.1 on a | none => a) { c with series := js.map Prod.fst }
/-- Series of a port whose far end is now another unit restart; a forecast standing clears (R444). -/
def seriesRestart (p : Nat) (c : Chan) : Chan :=
  let x := chanPort c p
  let old := fun (s : Series) => decide (s.port = p) && x.far.known && decide (s.serial ≠ x.far.serial)
  let gone := c.series.filter (fun s => old s && s.standing)
  gone.foldl (fun (a : Chan) s => forecastRaise s false a) { c with series := c.series.filter (fun s => !old s) }
/-- `IDENT` with what it means for the forecasts. -/
def chanIdentRow (p : Nat) (g : Gran) (c : Chan) : Chan := seriesRestart p (chanIdent p g c)

/-! ### Test reports (R420, R424) -/
/-- A leaf's report: of a failing item, or of a test that ended, which is told as a command done (R539). -/
def chanTestReport (_p : Nat) (gs : List Granule) (c : Chan) : Chan :=
  match gs with
  | [] => c
  | h :: t =>
    let g := h.data
    if gf g 15 8 = 1 then
      let d := (t.headD {}).data
      chanEv c .testItemFail (reportVals { path := gf g 79 16, op := gf g 191 176, want := gf d 127 0, got := gf d 255 128 })
    else
      let id := gf g 79 16
      let out := gf g 119 112
      let c1 := { c with testWaits := c.testWaits.filter (fun w => decide (w.id ≠ id)) }
      let c2 := if out = 4 then c1
        else chanEv c1 (if out = 3 then .testAborted else .testDone) [gf g 231 168, gf g 151 136, gf g 167 152]
      teleDone id (gf g 135 120) [gf g 151 136, gf g 167 152] c2
/-- 10 s without a result (R420): the order is done with no answer of its leaf (assumption 67). -/
def chanTestNoResult (id : Nat) (c : Chan) : Chan :=
  let wait := fun (x : Chan) => x.testWaits.find? (fun w => decide (w.id = id))
  chanAtClock (fun x => (wait x).map (fun w => w.at_ + 10 * nsSec)) (fun x =>
    match wait x with
    | none => x
    | some w =>
      teleDone id 9 [0, 0] (chanEv { x with testWaits := x.testWaits.filter (fun y => decide (y.id ≠ id)) } .testAborted [w.serial, id])) c

/-! ### Packets without a row of their own -/
/-- A forwarded CLOSE, FORCE_ARRIVE or FORCE_RELEASE (R258, R531; assumption 5): the operation 1 to 3, tag, rank, generation. -/
def forwardGran (op tag rank n : Nat) : Gran :=
  lay [⟨0, 8, Config.pktType .forward⟩, ⟨8, 8, op⟩, ⟨16, 32, tag⟩, ⟨48, 18, rank⟩, ⟨80, 48, n⟩]
/-- What a forwarded command does at the apex; elsewhere it goes on toward it. -/
def chanForward (g : Gran) (c : Chan) : Chan :=
  let tag := gf g 47 16
  if !apexHere c tag then towardApex tag 1 [plain g] c
  else if gf g 15 8 = 1 then closeSheaf tag 2 c
  else if gf g 15 8 = 2 then chanForceArrive tag (gf g 65 48) (gf g 127 80) c
  else chanForceRelease tag (gf g 127 80) c
/-- What a channel does with a delivered packet whose landing is no row of the table: directory changes from below (R32), sweep and replay orders
from above or below (R353, R402), forwarded commands (R531), test reports (R420), and replay traffic on its way through (R353). Every other packet's landing is a row. -/
def chanPacket (p : Nat) (k : Packet) (c : Chan) : Chan :=
  let g := (k.grans.headD {}).data
  let ty := gf g 7 0
  if ty = Config.pktType .directory then (if isUpPort p then c else dirIn g c)
  else if ty = Config.pktType .sweepOrder then sweepTake (gf g 47 16) c
  else if ty = Config.pktType .forward then chanForward g c
  else if ty = Config.pktType .replayOrder then replayIn p k.grans c
  else if ty = Config.pktType .testReport then (if isUpPort p then c else chanTestReport p k.grans c)
  else c
/-- A data frame arrives at a channel (R124 to R133), and what it delivers lands. -/
def chanFrameRow (p : Nat) (line : BitVec 320) (c : Chan) : Chan :=
  let n := (chanPort c p).dat.delivered.length
  let c1 := chanFrame p line c
  ((chanPort c1 p).dat.delivered.drop n).foldl (fun (a : Chan) k => chanPacket p k a) c1
/-- A packet of a sheaf on its way down through a level: a join acknowledgement, a word, a result, a re-form notice, a closing notice. -/
def chanJoinAck (g : Gran) (c : Chan) : Chan := ackDown g c
/-- A re-form notice goes down the routes, which are deleted behind it (R253). -/
def chanReform (g : Gran) (c : Chan) : Chan :=
  let tag := gf g 47 16
  match sheafOf c tag with
  | none => c
  | some s => if s.isApex then c else strictUpdate (dropRouted (tagApex tag 0 (soloRoute c s 1 g)) tag)

end Sys2Proof.Machine
end

