-- ==== Sys2Proof/Machine/ChanStart.lean ====
section
/-! DEFINITION. A channel from reset to RUN, its restarts, its flash, and its security (R337, R375, R435, R447 to R484, R540). -/
namespace Sys2Proof.Machine

/-! ### Reset (R337, R437, R454, R538, R540) -/
/-- The granary as a start with the supply held finds it (R337): what was on its way through the die is gone, the stacks are whole. -/
def granKept (g : Granary) : Granary :=
  { recs := g.recs, nextSeq := g.nextSeq, seqSat := g.seqSat, chain := g.chain, unchained := g.unchained, lastSeq := g.lastSeq,
    append := g.append, roots := g.roots, rootLast := g.rootLast, lostStacks := g.lostStacks, logs := g.logs, regions := g.regions,
    sparesUsed := g.sparesUsed, retired := g.retired, fine := g.fine, packs := g.packs }
/-- Commands still running at a restart hold the answer `BUSY` (R540). DESIGN CHOICE (assumption 67): the 24 h of R437 begin again with the clock. -/
def answersCut (l : List MgmtAnswer) : List MgmtAnswer :=
  l.map (fun a => if a.running then { a with running := false, status := 4, body := [], heldAt := 0 } else { a with heldAt := 0 })
/-- A start begins. With the supply held the granary, the held answers, the telemetry stream and the series live on; without it the granary is
formatted and a new stream begins (R337, R437, R443, R538). Fuses, flash, history and pending tamper increments outlive both (R414, R482). -/
def chanReset (held : Bool) (modSerial : Nat) (c : Chan) : Chan :=
  let base : Chan :=
    { fuses := c.fuses, serial := c.fuses.serial, modSerial := modSerial,
      sec := blowStart { deviceKey := c.fuses.deviceKey, unwrapKey := c.fuses.unwrapKey, ownerHash := c.fuses.ownerHash, tamperCount := c.fuses.tamper,
                         pendingBlow := c.sec.pendingBlow },
      start := { flash := c.start.flash, flashOk := c.start.flashOk }, history := { entries := c.history.entries }, free := c.free }
  if held then
    { base with gran := granKept c.gran, answers := answersCut c.answers, tele := c.tele, series := c.series, sumSeq := c.sumSeq,
                clk := { hold := { warm := c.clk.hold.warm, ambient := c.clk.hold.ambient } },
                oldVersion := if c.start.phase = 4 ∨ c.start.phase = 0 then c.oldVersion else some c.start.unitVersion }
  else
    { base with gran := { formattedAtStart := true }, tele := { stream := Config.free .streamId c.free % 2 ^ 64 }, free := c.free + 1 }
/-- When `RESTART`'s wait ends, in ns of the channel's clock (R540): 1 s after it was accepted, or now, with every command accepted before it
answered. -/
def restartDue (c : Chan) : Option Nat := c.restart.map (fun t => if c.answers.any MgmtAnswer.running then t else 0)

/-! ### IMAGE (R27, R218, R220, R450 to R461) -/
/-- The channel as it judges an image copy (R452). DESIGN CHOICE (assumption 66): the version a channel's hardware can run is 1.0, as at a leaf. -/
def chanUnit (c : Chan) : UnitId := { channel := true, role := 0, serial := c.serial, version := 0x10 }
/-- What the factory block of a channel must hold (R460), beside 0x81, 0x83 and 0x84, whose absence shows elsewhere. -/
def chanFactoryWant : List (Nat × Nat) :=
  (List.range 128).map (fun n => (0x82, n)) ++ (List.range 16).map (fun n => (0x85, n)) ++ (List.range 272).map (fun p => (0x86, p)) ++
  (List.range 64).map (fun n => (0x87, n)) ++ [(0x88, 0)]
/-- The factory's OCXO (R459, R460): the frequency it gives is the unit's own until something better is known (R166). DESIGN CHOICE (assumption 25):
C_fac in 96 signed 8-byte bins, then frequency and slope, 8 bytes each. -/
def facHold (s : Startup) (h : Hold) : Hold :=
  match calOf s.factory 0x84 0 with
  | none => { h with facOcxo := false }
  | some b => { h with facOcxo := true, cFac := (List.range 96).map (fun i => bfs b (8 * i) 8), fFac := bfs b 768 8, aFac := bfs b 776 8, own := bfs b 768 8 }
/-- The factory's frequency reaches the rate word and the loop that acquires (R163, R166, R464). -/
def facClock (s : Startup) (k : ChanClock) : ChanClock :=
  let h := facHold s k.hold
  { k with hold := h, time := { k.time with rate := rateOf h.own }, loop := { k.loop with integ := h.own, freq := h.own } }
/-- The ports a channel has, by role. -/
def portList (c : Chan) : List Nat := List.range 256 ++ upPorts c
/-- The factory calibration and the user block's trims reach ports, TDCs and the OCXO (R459, R460, R462). -/
def chanCalibration (c : Chan) : Chan :=
  { c with ports := (portList c).foldl (fun t p => tabUpd {} t p (facPort c.start p)) c.ports,
           clk := facClock c.start { c.clk with tdcs := (List.range 64).foldl (fun t n => tabUpd {} t n (facTdc c.start n)) c.clk.tdcs } }
/-- TDCs whose table is nominal are reported, and entries that are missing (R460). -/
def chanCalEvents (c : Chan) : Chan :=
  let c1 := (List.range 64).foldl (fun (a : Chan) n =>
    if (clkTdc a.clk n).linStart || (clkTdc a.clk n).linStop then chanRaise a { ev := .tdcLinSuspect, index := n, vals := [n] } else a) c
  chanRaiseAll c1 (facMissing c1.start chanFactoryWant)
/-- The clock as the image sets it up: role, domain, references, outputs, policy (R27, R61, R190, R198, R218, R220). -/
def imageClock (c : Chan) : ChanClock :=
  let s := c.start
  let base := if s.copyB then flashB else flashA
  let role := leNat (flashRead s (base + 7) 1)
  let k := c.clk
  { k with role := role, domain := leNat (flashRead s (base + 8) 1),
           refs := (List.range 4).foldl (fun t r => tabSet {} t r (refOf (s.refWords.getD r 0))) [],
           outs := (List.range 16).foldl (fun t n =>
             let g := outCfgOf (s.outWords.getD (3 * n) 0) (s.outWords.getD (3 * n + 1) 0) (s.outWords.getD (3 * n + 2) 0)
             tabSet {} t n { cfg := g, now := g }) [],
           revertive := s.policy.revertive, wtrS := s.policy.wtrS,
           gnss := { k.gnss with surveying := !s.policy.gnssPosValid },
           time := { k.time with slewPpm := if role = 3 then s.policy.slewRatePpm else k.time.slewPpm } }
/-- A unit without keys under DEGRADE_CLOSED holds its ports FAULTED (R482). -/
def chanKeylessPorts (c : Chan) : Chan :=
  if c.sec.keyless && !c.sec.policyOpen then (portList c).foldl (fun (a : Chan) p => chanPortDo p (portFault p causeKey) a) c else c
/-- A blow that the start asked for comes before anything is unwrapped (R482): with no answer its 40 ms run out. -/
def chanBlowWait (c0 : Chan) : Chan :=
  if c0.sec.blowing then
    let c := chanToClock (c0.sec.blowAt + blowTime) c0
    { c with sec := { c.sec with blowing := false } }
  else c0
/-- A violation, when one was latched. -/
def latched (on : Bool) (src : Nat) (s : Security) : ViolOut := if on then violate src s else { sec := s, level := 0, evs := [] }
/-- The `IMAGE` phase ends (R452, R455, R461, R474, R479, R559): violations latched while the sled was unpowered apply at the levels of the image
before anything is unwrapped; a copy is chosen and its sections take effect, or QUARANTINE, where PTP steers the time core. -/
def chanImage (lid mesh : Bool) (c0 : Chan) : Chan :=
  if c0.start.phase ≠ 0 then c0
  else
    let c := chanBlowWait c0
    let r0 := startImage (chanUnit c) c.start c.sec
    let a := latched lid 1 { c.sec with levels := r0.sec.levels, policyOpen := r0.sec.policyOpen, tagFailLimit := r0.sec.tagFailLimit }
    let b := latched mesh 2 a.sec
    let r := startImage (chanUnit c) c.start b.sec
    let c1 := chanViolates 6 r.sigs (chanRaiseAll { c with start := r.start, sec := blowSince (chanClock c) c.sec r.sec } (a.evs ++ b.evs ++ r.evs))
    if r.start.phase = 4 then
      let ptp : Ref := { enable := true, state := .monitoring }
      { c1 with clk := clkOwnTdcs { c1.clk with refs := tabSet {} c1.clk.refs 3 ptp } }
    else chanKeylessPorts (chanCalEvents (chanCalibration { c1 with clk := clkOwnTdcs (imageClock c1) }))

/-! ### SELFTEST (R374, R375, R456) -/
/-- A report of a unit that failed its start-up self-test (R412, R413), and its history entry (R415). -/
def startFail (path : Nat) (c : Chan) : Chan := chanFail path opStart c
/-- A port's engine failed its vectors: parity fallback (R374). -/
def chanEngineFail (p : Nat) (c : Chan) : Chan :=
  let c1 := { setChanPort c p { chanPort c p with fallback := true } with code := { c.code with selftestFail := true } }
  startFail (unitPath 1 0x0A p) (chanEv c1 .codeFallback [p])
/-- A thresher failed (R326, R375). -/
def chanThresherFail (t : Nat) (c : Chan) : Chan :=
  startFail (unitPath 1 0x01 t) (setThresher c t { thresherOf c t with dead := true })
/-- A stack interface did not train (R336, R375). -/
def chanStackFail (s : Nat) (c : Chan) : Chan := chanStackLost s (startFail (unitPath 1 0x06 s) c)
/-- A cluster island failed (R328, R375). -/
def chanClusterFail (k : Nat) (c : Chan) : Chan := chanClusterLost k (startFail (unitPath 1 0x04 k) c)
/-- The self-tests are complete (R375, R456): a unit that the disabled-unit map names is not tried. -/
def chanSelfTest (r : SelfTest) (c : Chan) : Chan :=
  if c.start.phase ≠ 1 then c
  else
    let tried := fun (path n : Nat) (l : List Nat) => l.filter (fun i => decide (i < n) && !isDisabled c.history (unitPath 1 path i))
    let c1 := (tried 0x0A 272 r.ports).foldl (fun a p => chanEngineFail p a) c
    let c2 := (tried 0x01 64 r.threshers).foldl (fun a t => chanThresherFail t a) c1
    let c3 := (tried 0x06 16 r.mems).foldl (fun a s => chanStackFail s a) c2
    let c4 := (tried 0x04 4 r.clusters).foldl (fun a k => chanClusterFail k a) c3
    let c5 := if r.encoder then chanEv { c4 with code := { c4.code with selftestFail := true } } .codeSelftestFail [0] else c4
    engineSettle { c5 with start := { c5.start with phase := 2 } }

/-! ### RESTORE (R337, R414, R417, R457, R462 to R464, R468) -/
/-- The user block's entries take effect (R463): a mill's time state, the holdover model, cable delays and output offsets. -/
def userClock (s : Startup) (k : ChanClock) : ChanClock :=
  let k1 := match calOf s.user 1 0 with
    | some b => if k.role = 3 then
        { k with time := { k.time with epochBase := bf b 0 8, utcOffset := bfs b 8 8, leap := BitVec.ofNat 16 (bf b 32 2), utcValid := true },
                 mill := { k.mill with sSum := bfs b 16 16, epochHeld := true } }
      else k
    | none => k
  let k2 := match calOf s.user 2 0 with
    | some b => { k1 with hold := holdLoad b k1.hold }
    | none => k1
  let k3 := (List.range 4).foldl (fun (a : ChanClock) r => match calOf s.user 5 r with
    | some b => setRef a r { refAt a r with cable := bfs b 0 4 }
    | none => a) k2
  (List.range 16).foldl (fun (a : ChanClock) n => match calOf s.user 6 n with
    | some b =>
      let o := outAt a n
      let g := { o.cfg with offset := toSigned 40 (bf b 0 8) }
      setOut a n { o with cfg := g, now := g }
    | none => a) k3
/-- RESTORE ends: the user block is loaded, condemned units stay out, the version is compared, and the channel runs; its `RWL` fields lock. -/
def chanRestore (c : Chan) : Chan :=
  if c.start.phase ≠ 2 then c
  else
    let r := loadUser c.start
    let c1 := { c with start := { r.1 with phase := 3, cfgLocked := true } }
    let c2 := { c1 with ports := (portList c1).foldl (fun t p => tabUpd {} t p (facPort c1.start p)) c1.ports,
                        clk := userClock c1.start c1.clk }
    let c3 := if r.2 then chanEv c2 .userBlockBad [] else c2
    let c4 := match c3.oldVersion with
      | some v => if v = c3.start.unitVersion then c3 else chanEv c3 .unitVersionChanged [v, c3.start.unitVersion]
      | none => c3
    let c5 := { c4 with oldVersion := none }
    engineSettle ((disabledUnits c5.history).foldl (fun (a : Chan) p => chanCondemn p a) c5)

/-! ### The user block and RESTORE_FACTORY (R463, R465, R466) -/
/-- A due save (R462, R463): an hourly one carries the holdover model and the fibre delays measured. -/
def chanUserSave (hourly : Bool) (c : Chan) : Chan :=
  let fib := (c.ports.filter (fun x => !x.2.cal.resA.isEmpty || !x.2.cal.resB.isEmpty)).map (fun x =>
    ({ typ := 3, key := x.1, data := leBytes 8 x.2.delayA ++ leBytes 8 x.2.delayB } : CalEntry))
  { c with start := userSave (if hourly then userDue (holdEntry c.clk.hold :: fib) c.start else c.start) }
/-- The save row (R462, R463): an hourly save comes an hour after the last. -/
def chanSaveRow (hourly : Bool) (c0 : Chan) : Chan :=
  if hourly then
    let c := chanToClock (c0.start.hourAt + nsHour) c0
    chanUserSave true { c with start := { c.start with hourAt := chanClock c } }
  else chanUserSave false c0
/-- `ARM` (R465). -/
def chanArm (c : Chan) : Chan :=
  { c with start := { c.start with armed := some (Config.free .armCode c.free % 65536), armUntil := chanClock c + nsSec }, free := c.free + 1 }
/-- The 1 s of an `ARM` lapses. -/
def chanArmExpire (c : Chan) : Chan :=
  chanAtClock (fun x => if x.start.armed.isSome then some (x.start.armUntil + 1) else none)
    (fun x => { x with start := { x.start with armed := none } }) c
/-- The status of a `CONFIRM` (R465); a standing LOCK is a general refusal. -/
def chanConfirmStatus (code : Nat) (force : Bool) (c : Chan) : Nat :=
  match c.start.armed with
  | none => 0x106
  | some k => if c.start.armUntil < chanClock c ∨ code ≠ k then 0x106 else if !force && !(openSilos c).isEmpty then 0x107 else 0
/-- `CONFIRM` accepted (R466). -/
def chanConfirm (c : Chan) : Chan := chanEv { c with start := userTombstone c.start } .factoryRestored []

/-! ### The flash (R448, R454, R463) -/
/-- `IMAGE_WRITE` (R454): bytes into the copy not in use; with `LAST` the staged copy is checked. Status and answer body. -/
def chanImageWrite (body : Bytes) (c : Chan) : Chan × Nat × Bytes :=
  let o := bf body 0 4
  let data := body.drop 8
  if 0x400000 < o + data.length ∨ 1048576 < data.length then (c, 2, [])
  else
    let base := if c.start.copyB then flashA else flashB
    let s1 := flashWrite c.start (base + o) data
    let s2 := if c.start.copyB then { s1 with stagingA := true, staged := false } else { s1 with stagingB := true, staged := false }
    if bf body 4 1 % 2 = 0 then ({ c with start := s2 }, 0, [])
    else
      let r := stageCheck (chanUnit c) c.sec.owner s2
      let c1 := chanRaiseAll { c with start := r.1 } r.2.1
      let c2 := if r.2.2 then chanViolate 6 c1 else c1
      let f := if stagedB s2 then r.1.faultB else r.1.faultA
      if f = 0 then (c2, 0, []) else (c2, 0x109, leBytes 1 f)
/-- `CAL_WRITE` (R462, R463): entries of types 0x04 and 0x05 for the next start. -/
def chanCalWrite (body : Bytes) (c : Chan) : Chan × Nat :=
  let es := calEntries 4096 body
  let ok := fun (e : CalEntry) => (decide (e.typ = 4) && decide (e.key < 272) && decide (e.data.length = 8)) ||
    (decide (e.typ = 5) && decide (e.key < 4) && decide (e.data.length = 4))
  if es.isEmpty || !es.all ok then (c, 2) else ({ c with start := userDue es c.start }, 0)

/-! ### Keys and debug (R474, R477, R481 to R484) -/
/-- `KEY_ROTATE` (R477): the status of a refusal: 2 not a fabric key, 0x116 the owner's signature, 0x117 the unwrap. -/
def chanKeyRotate (id : Nat) (body : Bytes) (c : Chan) : Chan × Nat :=
  let e := body.take 64
  if body.length < 128 ∨ bf e 0 2 ≠ 1 then (c, 2)
  else if !Config.ed25519Verify c.sec.owner (leBytes 8 id ++ e) ((body.drop 64).take 64) then (c, 0x116)
  else if c.sec.latch then (c, 0x117)
  else
    match unwrapEntry c.sec c.sec.tamperMin e with
    | none => (c, 0x117)
    | some k =>
      let c1 := chanEv { c with sec := { c.sec with fabric := some k } } .keyRotated []
      let c2 := (downListed c1).foldl (fun (a : Chan) p => setChanPort a p { chanPort a p with key := { (chanPort a p).key with rotate := true } }) c1
      (((downListed c2).filter (chanUp c2)).foldl (fun (a : Chan) p => chanRekey p a) c2, 0)
/-- A debug request (R484). -/
def chanDbgRequest (c : Chan) : Chan :=
  { c with sec := debugRequest (chanClock c) (Config.free .challenge c.free) c.sec, free := c.free + 1 }
/-- A debug response (R484). -/
def chanDbgResponse (dur : Nat) (sig : Bytes) (c : Chan) : Chan :=
  let r := debugResponse c.serial (chanClock c) dur sig c.sec
  let c1 := chanRaiseAll { c with sec := r.1 } r.2.1
  if r.2.2 then chanViolate 8 c1 else c1
/-- Debug-unlocked state ends. -/
def chanDbgEnd (c : Chan) : Chan :=
  let r := debugEnd c.sec
  chanRaiseAll { c with sec := r.1 } r.2
/-- A challenge is older than 10 s (R484). -/
def chanChallengeOld (c : Chan) : Chan :=
  chanAtClock (fun x => if x.sec.challengeValid then some (x.sec.challengeAt + 10 * nsSec + 1) else none)
    (fun x => { x with sec := { x.sec with challengeValid := false } }) c
/-- Debug-unlocked state has lasted its duration (R484). -/
def chanDbgExpire (c : Chan) : Chan :=
  chanAtClock (fun x => if x.sec.debugOn then some x.sec.debugUntil else none) chanDbgEnd c
/-- `ALARM_CLEAR` (R481). -/
def chanAlarmClear (id : Nat) (sig : Bytes) (c : Chan) : Chan × Bool :=
  if alarmClearOk id c.serial sig c.sec then
    (if c.sec.locked then chanEv { c with sec := { c.sec with locked := false } } .alarmCleared [c.sec.lastSource, c.sec.lastLevel] else c, true)
  else (c, false)
/-- A fuse blow ends (R482): the counter in the fuses follows. -/
def chanBlowDone (ok : Bool) (c : Chan) : Chan :=
  if c.sec.blowing then
    let s := blowDone (chanClock c) ok c.sec
    { c with sec := s, fuses := { c.fuses with tamper := s.tamperCount } }
  else c

/-! ### Sensors -/
/-- A sensor of the sled is read (R205, R413): sensor 0 gives the sled's ambient temperature, in 0.25 °C. -/
def chanSensor (i : Nat) (temp : Int) (mv vmin : Nat) (c : Chan) : Chan :=
  let x := readSensor c.start i temp mv vmin (chanClock c)
  let c1 := { c with sensors := tabSet {} c.sensors i x }
  if i = 0 then { c1 with clk := setAmbient x.temp c1.clk } else c1
/-- A sensor has not been updated for 10 ms (PRESUMED, assumption 25: as R581 has it of a leaf's). -/
def chanSensorStale (i : Nat) (c : Chan) : Chan :=
  chanAtClock (fun x => let y := tabGet {} x.sensors i; if y.present && !y.stale then some (y.at_ + 10000000) else none)
    (fun x => { x with sensors := tabUpd {} x.sensors i (fun y => { y with stale := true }) }) c

end Sys2Proof.Machine
end

