-- ==== Sys2Proof/Machine/LeafTick.lean ====
section
/-! DEFINITION. The leaf's time clock (R54 to R72, R104, R123): one edge with everything that falls due on it, and runs of edges to an instant.
A register access is an edge of its own, so that what the edge brings counts as coming at the same time (R13, R14). -/
namespace Sys2Proof.Machine

/-- A frame slot at the leaf's ports, every 16 edges while its transmitters are lit (R123, R435). -/
def leafFrames (l : Leaf) : Leaf :=
  if l.dark ∨ l.time.edges % 16 ≠ 0 then l
  else [0, 1].foldl (fun a d => leafPortDo d (portSlot d false 0 (leafBeatCtx a d)) a) l
/-- What the edge brings to the TDCs and the taps: an overflow (R111), a step whose instant a tap's time has reached (R75), and every 10 µs the
hub's copies of each tap's values (R519; DESIGN CHOICE, assumption 76: at whole multiples of 12,800 edges since reset). -/
def leafParts (l : Leaf) : Leaf :=
  let fresh := fun (t : Tap) => if l.time.edges % 12800 = 0 then hubRefresh t else t
  { l with tdcs := tabMap {} (fun n t => tdcEdge n l.time t) l.tdcs, taps := tabMap {} (fun _ t => fresh (tapStepApply l.time.edges t)) l.taps }
/-- One edge of the leaf's time clock on which `mid` acts: it reads time as it is after the edge, and what the edge brings comes after it. DEDUCED
(assumption 74): an access to a register falls on an edge, and an event of that edge leaves its W1C bit set and its count in an RC counter. -/
def leafTickWith (mid : Leaf → Leaf) (l : Leaf) : Leaf :=
  let r := timeTick l.time
  leafFrames (leafParts (leafTimed l.time r.2 (mid { l with time := r.1 })))
/-- One edge of the leaf's time clock. -/
def leafTick (l : Leaf) : Leaf := leafTickWith id l
/-- `n` edges. -/
def leafTicks : Nat → Leaf → Leaf
  | 0, l => l
  | n + 1, l => leafTicks n (leafTick l)
/-- Edges until something has come about, `n` at most. -/
def leafRun (done : Leaf → Bool) : Nat → Leaf → Leaf
  | 0, l => l
  | n + 1, l => if done l then l else leafRun done n (leafTick l)
/-- Edges until the clock has counted `n` since reset: the leaf's own timers, which no step or slew moves. -/
def leafToEdge (n : Nat) (l : Leaf) : Leaf := leafRun (fun x => decide (n ≤ x.time.edges)) (n - l.time.edges) l
/-- Edges until the unit's own clock has reached `ns`. -/
def leafToClock (ns : Nat) (l : Leaf) : Leaf := leafToEdge (edgeAt ns) l
/-- Edges until pod time has reached `ns`. -/
def leafTo (ns : Nat) (l : Leaf) : Leaf := leafRun (fun x => reached x.time ns) (edgesTo l.time ns) l

/-- Edges until pod time stands at a whole multiple of `unit` ns: none when it has just reached one. -/
def leafToWhole (unit : Nat) (l : Leaf) : Leaf :=
  if l.time.acc % accOfNs unit < edgeStep l.time then l else leafTo ((l.time.ns / unit + 1) * unit) l

/-! ### Rows that name what an edge brings about -/
/-- The pending pod-time change comes due (R57, R590). -/
def leafStepRow (l : Leaf) : Leaf :=
  match l.time.pendPod with
  | none => l
  | some n => leafRun (fun x => decide (x.time.pendPod ≠ some n)) (edgesTo l.time n.at_ + slewEdges l.time) l
/-- The first pending UTC-offset change comes due (R63). -/
def leafUtcRow (l : Leaf) : Leaf :=
  match l.time.pendUtc with
  | [] => l
  | n :: _ => leafTo n.at_ l
/-- The slew that runs ends (R61). -/
def leafSlewRow (l : Leaf) : Leaf := leafRun (fun x => decide (x.time.slews.length < l.time.slews.length)) (slewEdges l.time) l
/-- Pod time reaches all-ones (R69). -/
def leafSatRow (l : Leaf) : Leaf := leafRun (fun x => x.time.saturated) (edgesTo l.time (nsMax + 1)) l
/-- Port d's next beat slot comes (R135, R136): within 64 frame slots. -/
def leafBeatRow (d : Nat) (l : Leaf) : Leaf :=
  let p := leafPort l d
  if p.state = .calibrating ∨ p.state = .up then
    leafRun (fun x => decide ((leafPort x d).dat.slot = 0)) 1040 (leafRun (fun x => decide ((leafPort x d).dat.slot ≠ 0)) 32 l)
  else l
/-- A measurement of TDC n overflows (R111). -/
def leafOverRow (n : Nat) (l : Leaf) : Leaf := leafRun (fun x => !(leafTdc x n).measuring) (2 ^ 32 + 1) l
/-- Tap n's time reaches T_s of the step it holds (R75). -/
def leafTapStepRow (n : Nat) (l : Leaf) : Leaf :=
  match (leafTap l n).step with
  | none => l
  | some x => leafRun (fun y => (leafTap y n).step.isNone) (edgesTo l.time (x.1 + 1) + 64) l
/-- Tap n sees no region edge for 1 µs (R86). -/
def leafStopRow (n : Nat) (l : Leaf) : Leaf :=
  let due := fun (x : Leaf) => match (leafTap x n).lastStamp with
    | none => true
    | some s => decide ((s + 65536000) * 2 ^ 24 ≤ tapNow x.time.edges (leafTap x n))
  onTapEv n .regionClockStopped clockStop (leafRun due 1300 l)
/-- The open generation of local channel c reaches its deadline (R93). -/
def leafLocalTimeout (c : Nat) (l : Leaf) : Leaf :=
  if (leafChan l c).slot.isNone ∨ (allArrived (leafChan l c)).isSome then l else localTimeout c (leafTo (localDeadline c l) l)
/-- Something that waits for port d to have been in a state for so many ns (R149): the state must stand, and stand to the end. -/
def leafPortAfter (d : Nat) (st : LinkState) (ns : Nat) (act : Leaf → Leaf) (l : Leaf) : Leaf :=
  if (leafPort l d).state = st then
    let l1 := leafToEdge ((leafPort l d).since + edgeAt ns) l
    if (leafPort l1 d).state = st then act l1 else l1
  else l
/-- Training restarts (R31, R149): from TRAINING after 50 ms, from FAULTED after 10 s. -/
def leafRetrainRow (d : Nat) (st : LinkState) (l : Leaf) : Leaf :=
  leafPortAfter d st (if st = .faulted then 10 * nsSec else 50000000) (leafRetrain d st) l
/-- 1 ms without light in training (R149). -/
def leafNoLightRow (d : Nat) (l : Leaf) : Leaf :=
  match noLightAt (leafPort l d) with
  | none => l
  | some n =>
    let l1 := leafToEdge n l
    if (noLightAt (leafPort l1 d)).any (fun m => decide (m ≤ l1.time.edges)) then leafPortDo d (portNoLight d) l1 else l1
/-- A NAK is repeated (R133). -/
def leafNakRow (d : Nat) (l : Leaf) : Leaf :=
  if nakOpen (leafPort l d) then
    let l1 := leafRun (fun x => nakDue (leafPort x d)) (16 * 65536) l
    if nakDue (leafPort l1 d) then leafPortDo d (portNakRepeat d) l1 else l1
  else l
/-- A gear of domain d has been held for its time (R163). -/
def leafGearRow (d : Nat) (l : Leaf) : Leaf :=
  if gearRuns (leafDom l d) then
    let l1 := leafToEdge (gearEnd loopLeaf (leafDom l d)) l
    setLeafDom l1 d (gearAdvance l1.time.edges (leafDom l1 d))
  else l
/-- The selected source has sent 0b001 for 1 s (R169). -/
def leafRule4Row (l : Leaf) : Leaf :=
  match leafRule4To l with
  | none => l
  | some _ => leafRule4 (leafToEdge (((leafDom l (l.tsel.sel - 1)).oneSince.getD l.time.edges) + edgesPerSec) l)
/-- A whole second of pod time (R177, R591). -/
def leafLineRow (l : Leaf) : Leaf := leafLineSend (leafToWhole nsSec l)
def leafRelayRow (l : Leaf) : Leaf := leafRelayCheck (leafToWhole nsSec l)
/-- Not locked 100 µs after start (R115). -/
def leafLockRow (n : Nat) (l : Leaf) : Leaf :=
  leafTdcTimeout n (leafToEdge 128000 l)

end Sys2Proof.Machine
end

