-- ==== Sys2Proof/Machine/LeafCapture.lean ====
section
/-! DEFINITION. Captures at the leaf: edge captures and their queue (R118, R119, R500, R501), the capture port (R343 to R346, R502, R503,
R578), and replay delivery (R353, R354, R579). -/
namespace Sys2Proof.Machine

/-! ### Edge captures -/
/-- Can a pool TDC take an edge now (R111, R119)? -/
def poolFree (l : Leaf) (n : Nat) : Bool :=
  let t := tabGet ({} : Tdc) l.tdcs n
  !t.outOfService && !inDead t.deadStop l.time.edges
/-- Push a result on the capture queue (R501). -/
def capPush (input : Nat) (r : TdcResult) (l : Leaf) : Leaf :=
  let c := l.caps
  if 64 ≤ c.queue.length then
    let l1 := { l with caps := { c with overrun := ctrInc c.overrun, armed := false } }
    if c.armed then leafEv l1 .captureOverrun input 0 else l1
  else
    let l1 := { l with caps := { c with queue := c.queue ++ [({ w0 := tdcWord0 r, w1 := tdcWord1 r, input := input } : CapEntry)] } }
    if c.queue.isEmpty then leafEv l1 .captureEvent input 0 else l1
/-- An edge at capture input k (R107, R112, R117, R119, R501), taken by the lowest pool TDC that can take it, or stamped by the counter alone. A
test edge stands in the line of the first that could. Before the first lock a stamp reads zero (R54). -/
def capOne (k : Nat) (e : EdgeIn) (l : Leaf) : Leaf :=
  let cfg := tabGet 0 l.caps.cfg k
  let delay := tabGet 0 l.capDelay k
  let free := [2, 3].filter (poolFree l)
  let shown := fun (v : Nat) => if l.time.valid then v - delay else 0
  if !cfg.testBit 0 || !edgeTaken (cfg.testBit 1) e then l
  else
    match if e.test then free.drop 1 else free with
    | n :: _ =>
      let t := tdcStop n l.time { e with rising := true, test := false } (leafTdc l n)
      capPush k { t.result with value := shown t.result.value } (setLeafTdc l n t)
    | [] => capPush k { value := shown (l.time.pod - 25600), valid := true, coarseOnly := true, stampMode := true, tdcId := 63 } l
/-- Edges sampled on one edge of the time clock: the lower input goes first (R119). -/
def leafCaptureEdge (ins : List (Nat × EdgeIn)) (l : Leaf) : Leaf :=
  (List.range 8).foldl (fun a k => match ins.find? (fun x => decide (x.1 = k)) with | some x => capOne k x.2 a | none => a) l
/-- A read of `CAP_POP_0` (R500). -/
def leafCapPop (l : Leaf) : Leaf :=
  match l.caps.queue with
  | [] => leafAnswer { l with caps := { l.caps with popEmpty := true, pop1 := 0#64, popLeft := 0 } } 0#64 respOk
  | e :: es => leafAnswer { l with caps := { l.caps with queue := es, pop1 := e.w1, popInput := e.input, popEmpty := false, popLeft := es.length,
                                                           armed := l.caps.armed || decide (es.length ≤ 32) } } e.w0 respOk

/-! ### The capture port -/
/-- Granule 0 fields common to the capture packets (R345). -/
def capFlds (ty cls s tag : Nat) (b14 b15 : Bool) (seq : Nat) : List Fld :=
  [⟨0, 8, ty⟩, ⟨8, 1, cls⟩, ⟨9, 5, s⟩, ⟨14, 1, b2n b14⟩, ⟨15, 1, b2n b15⟩, ⟨16, 32, tag⟩, ⟨144, 64, seq⟩]
/-- An open packet (R345). -/
def capOpen (r : CapRec) (full : Bool) : List Granule :=
  [plain (lay (capFlds 0x60 0 r.slot r.tag full false r.seq ++ [⟨48, 18, r.rank⟩, ⟨80, 16, r.source⟩, ⟨96, 48, r.genTag⟩])),
   plain (lay [⟨0, 64, r.time⟩, ⟨64, 64, r.hostRef⟩, ⟨128, 32, r.length⟩])]
/-- A close packet (R345). -/
def capClose (r : CapRec) (torn : Bool) : List Granule :=
  [plain (lay (capFlds 0x62 0 r.slot r.tag torn false r.seq ++ [⟨48, 32, r.bytes⟩])), plain (granOf (sha256 r.data))]
/-- The record of a handle. -/
def capFind (h : Nat) (c : CapPort) : Option CapRec := c.open_.find? (fun r => decide (r.hdl = h))
/-- Send a capture packet of a slot in domain d: that of an effectively strict sheaf keeps to its share of the link (R393). -/
def capSend (s d : Nat) (gs : List Granule) (l : Leaf) : Leaf :=
  setLeafPort l d (portSend { vc := 2, grans := gs, strict := effStrict l.start.strictForce (leafSlot l s).program } (leafPort l d))
/-- Send a packet of a record to each domain in which its slot is bound. -/
def capSendBound (l : Leaf) (r : CapRec) (f : Nat → List Granule) : Leaf :=
  [0, 1].foldl (fun a d => if slotBound (leafSlot a r.slot) d then capSend r.slot d (f d) a else a) l
/-- Close a record; a torn one stands as torn at the port (R346). -/
def capEnd (r : CapRec) (torn refuse : Bool) (l : Leaf) : Leaf :=
  let l1 := capSendBound l r (fun _ => capClose r torn)
  let l2 := { l1 with capp := { l1.capp with open_ := l1.capp.open_.filter (fun x => decide (x.hdl ≠ r.hdl)),
                                             torn := if refuse then r.hdl :: l1.capp.torn else l1.capp.torn } }
  if torn then leafEv l2 .captureTorn r.slot 0 else l2
/-- Every open record is closed torn (R346). -/
def capTearAll (l : Leaf) : Leaf := l.capp.open_.foldl (fun a r => capEnd r true true a) l
/-- A record is refused (R503, R578): it is counted, shown, and pulsed on `cap_in_err`. -/
def capRefuse (h code : Nat) (l : Leaf) : Leaf :=
  { l with capp := { l.capp with lastRefusal := code, refusedCtr := ctrInc l.capp.refusedCtr, err := l.capp.err ++ [(h, code)],
                                 refused := h :: l.capp.refused.filter (fun x => decide (x ≠ h)),
                                 torn := l.capp.torn.filter (fun x => decide (x ≠ h)) } }
/-- Does some domain hold the slot's sheaf READY, RUNNING or SUSPENDED (R343)? -/
def sheafHeld (x : Slot) : Bool :=
  !x.isLocal && (decide (2 ≤ x.wState ∧ x.wState ≤ 4) || decide (2 ≤ x.bState ∧ x.bState ≤ 4))
/-- The first code that refuses a record (R503). -/
def capRefusal (l : Leaf) (s len : Nat) : Option Nat :=
  if l.fence.fenced then some 1
  else if !sheafHeld (leafSlot l s) then some 2
  else if len = 0 then some 3
  else if 16 ≤ l.capp.open_.length then some 4
  else none
/-- Does domain d take the bytes of a record of this slot (R343)? -/
def capFull (l : Leaf) (x : Slot) (d : Nat) : Bool :=
  slotBound x d && effLedgerFull l.start.strictForce x.program && !(if d = 0 then x.descW else x.descB)
/-- A descriptor beat on handle h (R343, R578). -/
def leafCapDescriptor (h : Nat) (g : Gran) (l : Leaf) : Leaf :=
  let s := gf g 4 0
  let l0 := match capFind h l.capp with | some r => capEnd r true false l | none => l
  match capRefusal l0 s (gf g 127 96) with
  | some c => capRefuse h c l0
  | none =>
    let x := leafSlot l0 s
    let r : CapRec := { hdl := h, slot := s, tag := x.tag, rank := x.rank, seq := x.capSeq, genTag := x.nextGen, source := gf g 23 8,
                        hostRef := gf g 95 32, length := gf g 127 96, time := leafNs l0, fullW := capFull l0 x 0, fullB := capFull l0 x 1,
                        lastAt := l0.time.edges }
    let l1 := { setSlot l0 s { x with capSeq := x.capSeq + 1 } with
      capp := { l0.capp with open_ := l0.capp.open_ ++ [r], refused := l0.capp.refused.filter (fun y => decide (y ≠ h)),
                             torn := l0.capp.torn.filter (fun y => decide (y ≠ h)) } }
    capSendBound l1 r (fun d => capOpen r (if d = 0 then r.fullW else r.fullB))
/-- The admission bucket refilled to an edge of the time clock (R344): 1,000,000 bytes a second, 10,000,000 at most. -/
def capRefill (edges : Nat) (c : CapPort) : CapPort :=
  let n := (edges - c.bucketAt) / 1280
  { c with bucket := satN 10000000 (c.bucket + n), bucketAt := c.bucketAt + n * 1280 }
/-- A data packet of one beat (R345). -/
def capData (r : CapRec) (g : Granule) : List Granule :=
  [plain (lay (capFlds 0x61 0 r.slot r.tag true false r.seq ++ [⟨48, 32, r.bytes⟩])), g]
/-- A data beat offered on handle h (R344, R346, R578): while the bucket cannot cover it, it is not taken. -/
def leafCapData (h : Nat) (g : Granule) (nbytes : Nat) (eop : Bool) (l : Leaf) : Leaf :=
  if l.capp.refused.contains h then
    if eop then { l with capp := { l.capp with refused := l.capp.refused.filter (fun x => decide (x ≠ h)) } } else l
  else if l.capp.torn.contains h then
    let l1 := capRefuse h 5 l
    if eop then { l1 with capp := { l1.capp with refused := l1.capp.refused.filter (fun x => decide (x ≠ h)) } } else l1
  else
    match capFind h l.capp with
    | none => l
    | some r =>
      let c := capRefill l.time.edges l.capp
      let full := r.fullW || r.fullB
      if full && decide (c.bucket < 32) then
        { l with capp := { c with throttled := true, throttledCtr := if c.throttled then c.throttledCtr else ctrInc c.throttledCtr } }
      else
        let n := if eop then min 32 (max 1 nbytes) else 32
        let bs := (granBytes g.data).take n
        let r1 := { r with bytes := r.bytes + n, data := r.data ++ bs, lastAt := l.time.edges }
        let l1 := { l with capp := { c with bucket := if full then c.bucket - 32 else c.bucket, throttled := false,
                                            open_ := c.open_.map (fun x => if x.hdl = h then r1 else x) } }
        let l2 := [0, 1].foldl (fun a d => if (if d = 0 then r.fullW else r.fullB) then capSend r.slot d (capData r { g with data := granOf bs }) a else a) l1
        if eop then capEnd r1 (decide (r1.bytes ≠ r.length)) false l2 else l2
/-- No byte of an open record for 1 s (R346). -/
def leafCapIdle (h : Nat) (l : Leaf) : Leaf :=
  match capFind h l.capp with
  | some r =>
    let l1 := leafToEdge (r.lastAt + edgesPerSec) l
    (match capFind h l1.capp with | some x => capEnd x true true l1 | none => l1)
  | none => l
/-- `SILO_MODE` (R350). -/
def leafSiloMode (d : Nat) (g : Gran) (l : Leaf) : Leaf :=
  let s := gf g 13 9
  let x := leafSlot l s
  if x.tag ≠ gf g 47 16 then l
  else setSlot l s (if d = 0 then { x with descW := !gbit g 14 } else { x with descB := !gbit g 14 })

/-! ### Replay delivery (R354, R579) -/
/-- A replay record as its packets carry it (R345). -/
def repOf (o0 o1 c0 : Gran) (data : List Granule) : RepRec :=
  { slot := gf o0 13 9, tag := gf o0 47 16, rank := gf o0 65 48, incomplete := gbit o0 15, source := gf o0 95 80, genTag := gf o0 143 96,
    seq := gf o0 207 144, time := gf o1 63 0, hostRef := gf o1 127 64, length := gf o1 159 128, data := data, bytes := gf c0 79 48 }
/-- The first descriptor beat (R579). -/
def repDesc0 (r : RepRec) : Gran :=
  lay [⟨0, 5, r.slot⟩, ⟨5, 1, b2n r.incomplete⟩, ⟨8, 16, r.source⟩, ⟨32, 64, r.hostRef⟩, ⟨96, 32, r.length⟩, ⟨128, 48, r.genTag⟩, ⟨192, 64, r.seq⟩]
/-- Beat i of n data beats. -/
def repBeat (bytes n i : Nat) (g : Granule) : CapBeat :=
  { data := g.data, sop := false, eop := decide (i + 1 = n), nbytes := if i + 1 = n then bytes - 32 * i else 32, pois := g.poison }
/-- The beats that deliver a record (R579). -/
def repBeats (r : RepRec) : List CapBeat :=
  let none_ := decide (r.bytes = 0)
  let n := granCount r.bytes
  { data := repDesc0 r, sop := true, eop := false, nbytes := 32, pois := false } ::
  { data := lay [⟨0, 64, r.time⟩, ⟨64, 32, r.bytes⟩], sop := false, eop := none_, nbytes := if none_ then 0 else 32, pois := false } ::
  (r.data.take n).zipIdx.map (fun x => repBeat r.bytes n x.2 x.1)
/-- Deliver a record: what is missing before it is a gap. -/
def repDeliver (r : RepRec) (l : Leaf) : Leaf :=
  let c := l.capp
  let gap := match c.nextSeq with | some n => decide (n < r.seq) | none => false
  let c1 : CapPort := { c with out := c.out ++ repBeats r, nextSeq := some (r.seq + 1), delivered := satN (2 ^ 56 - 1) (c.delivered + 1),
                               incompleteSeen := c.incompleteSeen || r.incomplete, gapSeen := c.gapSeen || gap }
  let l1 := { l with capp := c1 }
  if gap then leafRaise l1 { ev := .replayGap, index := r.slot, vals := [c.nextSeq.getD 0, r.seq - 1] } else l1
/-- The stream ends (R353). -/
def repFinish (l : Leaf) : Leaf :=
  leafEv { l with capp := { l.capp with active := false, ended := false, held := [], waiting := none } } .replayDone l.capp.repSlot 0
/-- Take records in turn: a record incomplete asks the other domain, and delivery waits (R354). -/
def repTake : List RepRec → Leaf → Leaf
  | [], l => if l.capp.ended then repFinish l else l
  | r :: rs, l =>
    if (match l.capp.nextSeq with | some n => decide (r.seq < n) | none => false) then repTake rs l
    else if r.incomplete then
      let g := lay (capFlds 0x65 1 r.slot r.tag false false r.seq ++ [⟨48, 18, r.rank⟩])
      let l1 := setLeafPort l (1 - l.capp.domain) (portSend { vc := 2, grans := [plain g], replay := true } (leafPort l (1 - l.capp.domain)))
      { l1 with capp := { l1.capp with waiting := some r, waitEdge := l1.time.edges, held := rs } }
    else repTake rs (repDeliver r l)
/-- The better of two copies (R354): a whole one, else the one with more bytes. -/
def repBetter (a b : RepRec) : RepRec := if !a.incomplete then a else if !b.incomplete ∨ a.bytes < b.bytes then b else a
/-- A replay record reaches the leaf from domain d (R354). -/
def leafReplayRecord (d : Nat) (r : RepRec) (l : Leaf) : Leaf :=
  match l.capp.waiting with
  | some w =>
    if d ≠ l.capp.domain ∧ w.seq = r.seq ∧ w.slot = r.slot then
      repTake l.capp.held (repDeliver (repBetter w r) { l with capp := { l.capp with waiting := none, held := [] } })
    else if d = l.capp.domain then { l with capp := { l.capp with held := l.capp.held ++ [r] } }
    else l
  | none =>
    if l.capp.active then (if d = l.capp.domain then repTake [r] l else l)
    else repTake [r] { l with capp := { l.capp with active := true, domain := d, delivered := 0, nextSeq := none, repSlot := r.slot } }
/-- No answer to a fetch in 100 ms (R354). -/
def leafFetchTimeout (l0 : Leaf) : Leaf :=
  let l := if l0.capp.waiting.isSome then leafToEdge (l0.capp.waitEdge + edgesPerSec / 10) l0 else l0
  match l.capp.waiting with
  | some w => repTake l.capp.held (repDeliver w { l with capp := { l.capp with waiting := none, held := [] } })
  | none => l
/-- `REPLAY_END` reaches the leaf (R353). -/
def leafReplayEnd (d : Nat) (l : Leaf) : Leaf :=
  if l.capp.active ∧ d = l.capp.domain then
    if l.capp.waiting.isSome then { l with capp := { l.capp with ended := true } } else repFinish l
  else l

end Sys2Proof.Machine
end

