-- ==== Sys2Proof/Machine/LeafSheaf.lean ====
section
/-! DEFINITION. Sheaf slots at the leaf (chapter Sheaves, Generations and Launch, R36 to R39, R404, R284): joins and their answers, arrivals,
leaving, parking and unparking. -/
namespace Sys2Proof.Machine

/-! ### Outcome codes (R227, R455, R508) -/
def outBound : Nat := 0x00
def outRepeat : Nat := 0x01
def outResumed : Nat := 0x02
def outResumeLowered : Nat := 0x03
def outParked : Nat := 0x04
def outUnparked : Nat := 0x05
def outRankRange : Nat := 0x10
def outFormTimeout : Nat := 0x18
def outProgramCorrupt : Nat := 0x1A
def outProgramNeeded : Nat := 0x1C
def outProgramDigest : Nat := 0x20
def outTapMissing : Nat := 0x21
def outLocalFull : Nat := 0x22
def outLocalLanes : Nat := 0x23
def outSerialInvalid : Nat := 0x24
def outNoDomain : Nat := 0x25
def outSlotBusy : Nat := 0x26
def outJoinSplit : Nat := 0x27
def outFenced : Nat := 0x28
def outQuarantine : Nat := 0x29
def outParkRefused : Nat := 0x2A
def outContextBad : Nat := 0x2B
def outAccepted : Nat := 0x30
def outNotRunning : Nat := 0x31
def outWindowFull : Nat := 0x32
def outPayloadSize : Nat := 0x33

/-! ### Packets -/
/-- The program window's bytes, as far as its `PROGRAM_LEN` (R304). -/
def windowProgram (x : Slot) : Bytes := tabReadList 0#8 x.progWindow 0 (pgLen (tabReadList 0#8 x.progWindow 0 8))
/-- A join packet (R223), with the program behind it (R224). -/
def joinPacket (l : Leaf) (s d : Nat) (auto : Bool) (resumeGen : Nat) (resume : Bool) (x : Slot) : List Granule :=
  plain (lay (⟨0, 8, 0x4A⟩ :: tokenFlds s x ++ [⟨13, 1, 1⟩, ⟨14, 1, b2n resume⟩, ⟨15, 1, b2n auto⟩, ⟨66, 19, x.n⟩, ⟨96, 48, resumeGen⟩,
    ⟨144, 64, l.serial⟩])) ::
  plain x.digest ::
  plain (lay [⟨0, 64, x.joinTime⟩, ⟨64, 32, if d = 0 then l.fpaB else l.fpaW⟩, ⟨96, 64, x.lastFire⟩]) ::
  (granules x.program).mapIdx (fun i g => { data := g, poison := x.heldPoison.contains i })
/-- Send the join and, right behind it, the member fingerprint (R223, R385). -/
def sendJoin (s d : Nat) (auto : Bool) (resumeGen : Nat) (resume : Bool) (l : Leaf) : Leaf :=
  let x := leafSlot l s
  leafSolo (leafSend l d 1 (joinPacket l s d auto resumeGen resume x)) d 1 (memberFp l s x x.fpFw x.fpDum)
/-- A fence notice for a slot (R430). DESIGN CHOICE (assumption 64): bit 216, which R430 does not lay out, carries the injected flag of R441. -/
def fenceNotice (l : Leaf) (s : Nat) (x : Slot) : Gran :=
  slotNotice 0x48 s x [⟨144, 64, l.fence.fencedAt⟩, ⟨208, 8, l.fence.first⟩, ⟨216, 1, b2n l.fence.injected⟩]
/-- An arrival token (R233). -/
def tokenGran (s : Nat) (x : Slot) (gen count : Nat) (freq unaligned : Bool) (now : Nat) : Gran :=
  lay (⟨0, 8, 0x41⟩ :: tokenFlds s x ++ [⟨13, 1, b2n freq⟩, ⟨14, 1, b2n unaligned⟩, ⟨66, 7, count⟩, ⟨73, 2, max x.levelW x.levelB⟩,
    ⟨80, 48, gen⟩, ⟨128, 16, x.resumeCount.toNat⟩, ⟨144, 64, now⟩, ⟨208, 40, x.paySeq⟩])
/-- Granule 0 of a payload (R234). -/
def payHeader (s : Nat) (x : Slot) (gen count : Nat) : Gran :=
  lay (⟨0, 8, 0x50⟩ :: tokenFlds s x ++ [⟨66, 7, count⟩, ⟨80, 48, gen⟩, ⟨128, 16, x.resumeCount.toNat⟩, ⟨208, 40, x.paySeq⟩])

/-! ### Joins (R222 to R224) -/
/-- The entry of a generation at the slot. -/
def genFind (x : Slot) (g : Nat) : Option SlotGen := x.gens.find? (fun q => decide (q.gen = g))
/-- Replace or add the entry of a generation. -/
def genPut (q : SlotGen) (x : Slot) : Slot := { x with gens := x.gens.filter (fun h => decide (h.gen ≠ q.gen)) ++ [q] }
/-- Drop the entry of a generation. -/
def genDrop (g : Nat) (x : Slot) : Slot := { x with gens := x.gens.filter (fun h => decide (h.gen ≠ g)) }
/-- A generation has failed at the leaf (R245): no word held, a failure word landed, and every domain in which its sheaf runs has sent one. -/
def genFailed (x : Slot) (q : SlotGen) : Bool :=
  genOpen q && (q.failW || q.failB) && (decide (x.wState ≠ 3) || q.failW) && (decide (x.bState ≠ 3) || q.failB)
/-- A generation fails at the leaf (R241, R245): it is the one the launch status shows, with its cause. -/
def genFail (s d : Nat) (q : SlotGen) (l : Leaf) : Leaf :=
  let y := genDrop q.gen (leafSlot l s)
  leafEv (setSlot l s { y with lGen := q.gen, lBranch := 0, lFrom := d, lBoth := false, lMismatch := false, lSkipped := false,
                               lTapFault := false, lPartial := false, lForced := false, lFreq := false, lUnaligned := false,
                               lReady := false, lFailed := true, failCause := q.cause, failed := (q.gen :: y.failed).take 8,
                               member := if y.member = 2 then 1 else y.member }) .genFailed s q.cause
/-- Once the sheaf no longer runs in a domain, the leaf waits for no word of it (R245): what the other has failed is failed. -/
def failDue (s : Nat) (l : Leaf) : Leaf :=
  (leafSlot l s).gens.foldl (fun a q => if genFailed (leafSlot a s) q then genFail s (if q.failW then 0 else 1) q a else a) l
/-- Arrived generations unresolved at the leaf (R232, R260). -/
def inFlight (x : Slot) : Nat := (x.gens.filter (fun g => g.arrived && genOpen g)).length
/-- The taps a join names (R222 check 4). -/
def joinTaps (x : Slot) (p : Bytes) : Nat := if pgLocal p then x.jTapMask else pgAllTaps p
/-- Is a tap absent or faulted? -/
def tapOut (l : Leaf) (t : Nat) : Bool := !(leafTap l t).present || (leafTap l t).fault
/-- Does a join pass check 2: the slot is free, a resuming join finds it SUSPENDED, or a split join is repeated (R222)? After `JOIN_SPLIT` no
other join passes, until a `LEAVE`. -/
def slotTakes (x : Slot) : Bool :=
  (!slotOpen x && !x.split) || (decide (x.jTag = x.tag) && x.jResumeValid && decide (x.wState = 4 ∨ x.bState = 4) && !x.isLocal) ||
  (x.split && decide (x.jTag = x.tag ∧ x.jRank = x.rank ∧ x.jN = x.n ∧ x.jDigest = x.digest))
/-- The lowest free local channel (R91). -/
def freeChan (l : Leaf) : Option Nat := (List.range 4).find? (fun c => (tabGet {} l.chans c).slot.isNone)
/-- The refusal of a local join by check 5, if any (R222, R304). -/
def localRefusal (l : Leaf) (x : Slot) (p : Bytes) : Option Nat :=
  let c := progCheck l.start.semVersion p
  if c = 3 then some outLocalLanes
  else if c ≠ 0 then some outProgramCorrupt
  else if x.jTapMask = 0 then some outRankRange
  else if (freeChan l).isNone then some outLocalFull
  else none
/-- The first check a join fails (R222, R455). -/
def joinRefusal (l : Leaf) (s : Nat) : Option Nat :=
  let x := leafSlot l s
  let p := windowProgram x
  if l.start.phase = 4 then some outQuarantine
  else if l.serial = 0 ∨ l.serial = 2 ^ 64 - 1 then some outSerialInvalid
  else if !slotTakes x then some outSlotBusy
  else if !lengthOk p ∨ granOf (sha256 p) ≠ x.jDigest then some outProgramDigest
  else if (onesOf 64 (joinTaps x p)).any (tapOut l) then some outTapMissing
  else
    match if pgLocal p then localRefusal l x p else none with
    | some c => some c
    | none =>
      if l.fence.fenced then some outFenced
      else if !pgLocal p ∧ (overall l = 0 ∨ l.encoderBad) then some outNoDomain
      else none
/-- Report an outcome of a join (R38, R261). -/
def joinDone (s code : Nat) (l : Leaf) : Leaf := leafEv (updSlot l s (fun x => { x with lastOutcome := code })) .joinDone s code
/-- Count a refusal with FENCED (R445). -/
def fencedRefusal (l : Leaf) : Leaf := { l with fence := { l.fence with refusals := ctrInc l.fence.refusals } }
/-- Latch the join registers into the slot at `JOIN_GO` (R222, R305, R385, R506). A resuming join keeps the open sheaf. DEDUCED
(assumption 60): the context window, which holds its block until the slot is joined or unparked (R511), is then empty. -/
def latchJoin (l : Leaf) (p : Bytes) (keep : Bool) (x : Slot) : Slot :=
  let y := { x with tag := x.jTag, rank := x.jRank, n := if pgLocal p then popcount 64 x.jTapMask else x.jN, resumeGen := x.jResume,
                    resumeValid := x.jResumeValid, tapMask := x.jTapMask, digest := x.jDigest, program := p, heldPoison := x.progPoison, joinTime := leafNs l,
                    fpFw := l.hostFw, fpDum := l.hostDum, ansW := none, ansB := none, split := false, reported := false, fenced := false,
                    capSeq := 0, ctxWindow := [], strict := pgStrict p, isLocal := pgLocal p, lastFire := if x.jTag = x.tag then x.lastFire else 0 }
  if keep then y
  else { y with wState := 0, bState := 0, member := 0, closeCause := 0, genSet := false, boundW := false, boundB := false, auto := 0,
                reform := 0, gens := [], failed := [], fired := [], results := [], paySeq := 0, descW := false, descB := false, level := 0, levelW := 0,
                levelB := 0, resumeCount := if x.jTag = x.tag then x.resumeCount else 0#16 }
/-- Send the slot's join in domain d, which then awaits an answer (R223, R45). -/
def joinIn (s d : Nat) (l : Leaf) : Leaf :=
  let x := leafSlot l s
  let l1 := sendJoin s d false x.resumeGen x.resumeValid l
  updSlot l1 s (fun y =>
    let fresh := !y.resumeValid
    if d = 0 then { y with waitW := true, wState := if fresh && decide (y.wState = 0) then 1 else y.wState }
    else { y with waitB := true, bState := if fresh && decide (y.bState = 0) then 1 else y.bState })
/-- A local join forms its sheaf at once (R91, R222). -/
def localForm (s c : Nat) (l : Leaf) : Leaf :=
  let l1 := updSlot l s (fun x => { x with wState := 2, member := 1, nextGen := 0, genSet := true, reported := true, channel := c, runStart := leafNs l })
  leafEv (joinDone s outBound
    { l1 with chans := tabSet {} l.chans c { slot := some s, mask := (leafSlot l1 s).tapMask, openAt := leafNs l } }) .sheafReady s 0
/-- A write of `JOIN_GO` (R222, R457). -/
def leafJoinGo (s : Nat) (l0 : Leaf) : Leaf :=
  let l := updSlot { l0 with start := { l0.start with cfgLocked := true } } s (fun x => { x with fpFw := l0.hostFw, fpDum := l0.hostDum })
  match joinRefusal l s with
  | some c => joinDone s c (if c = outFenced then fencedRefusal l else l)
  | none =>
    let x := leafSlot l s
    let p := windowProgram x
    let l1 := setSlot l s (latchJoin l p (slotOpen x && !x.split) x)
    if pgLocal p then
      match freeChan l with
      | some c => localForm s c l1
      | none => l1
    else [0, 1].foldl (fun a d => if domLocked a d then joinIn s d a else a) l1
/-- A domain reaches LOCKED (R45, R223): joins not yet sent there go out, a resuming one also where an earlier binding stands. -/
def leafLateJoins (d : Nat) (l : Leaf) : Leaf :=
  (List.range 32).foldl (fun a s =>
    let x := leafSlot a s
    let sent := if d = 0 then x.waitW || x.ansW.isSome || (x.boundW && !x.resumeValid) else x.waitB || x.ansB.isSome || (x.boundB && !x.resumeValid)
    if slotOpen x && !x.isLocal && !x.split && !x.fenced && !sent && !a.fence.fenced && decide (x.reform / 2 ^ d % 2 = 0) then joinIn s d a else a) l

/-! ### Answers to joins (R38, R227, R250 to R253, R257) -/
/-- Set the state of the slot's sheaf in domain d. -/
def setState (d st : Nat) (x : Slot) : Slot := if d = 0 then { x with wState := st } else { x with bState := st }
/-- Set whether the binding stands in domain d. -/
def setBound (d : Nat) (b : Bool) (x : Slot) : Slot := if d = 0 then { x with boundW := b } else { x with boundB := b }
/-- Does domain d await an answer? -/
def slotWaits (x : Slot) (d : Nat) : Bool := if d = 0 then x.waitW else x.waitB
/-- The answer of domain d is in. -/
def setAnswer (d code : Nat) (x : Slot) : Slot :=
  if d = 0 then { x with waitW := false, ansW := some code } else { x with waitB := false, ansB := some code }
/-- Free a slot's local channel. -/
def dropChan (s : Nat) (l : Leaf) : Leaf :=
  { l with chans := tabMap {} (fun _ ch => if ch.slot = some s then {} else ch) l.chans }
/-- Withdraw from the domains that bound a split join (R38). -/
def joinSplit (s : Nat) (l : Leaf) : Leaf :=
  let x := leafSlot l s
  let g := slotNotice 0x59 s x []
  let l1 := if x.boundW then leafSolo l 0 1 g else l
  let l2 := if x.boundB then leafSolo l1 1 1 g else l1
  let l3 := updSlot l2 s (fun y => { y with boundW := false, boundB := false, wState := 0, bState := 0, member := 0, split := true })
  joinDone s outJoinSplit (leafEv (updSlot l3 s (fun y => { y with lastOutcome := outJoinSplit })) .joinSplit s outJoinSplit)
/-- What an acknowledgement that binds tells the slot (R227). -/
def ackBind (d : Nat) (g : Gran) (x : Slot) : Slot :=
  let lv := gf g 177 176
  let y := setBound d true (if d = 0 then { x with levelW := lv, apexW := gf g 175 144 } else { x with levelB := lv, apexB := gf g 175 144 })
  { y with level := max y.levelW y.levelB, runStart := gf g 255 192 }
/-- The state a domain shows after a binding answer: `READY`, or `SUSPENDED` where a rank was rebound in a suspended sheaf whose program
permits no join into a run (R36, R250, R253). -/
def stateAfter (force : Bool) (code : Nat) (x : Slot) : Nat :=
  if (code = outBound ∨ code = outRepeat) ∧ x.resumeValid then (if effStraggler force x.program = 0 then 4 else 3)
  else 2
/-- A run begins for the slot (R232, R250): its first generation and its resumption count; a rollback drops what the leaf held, but for words of
earlier generations that are still to fire. -/
def runBegins (g : Gran) (x : Slot) : Slot :=
  let rc := BitVec.ofNat 16 (gf g 143 128)
  if x.genSet ∧ rc = x.resumeCount then x
  else { x with genSet := true, resumeCount := rc, nextGen := gf g 127 80, failed := [], paySeq := 0,
                gens := x.gens.filter (fun q => !genOpen q && decide (q.gen < gf g 127 80)) }
/-- The outcomes of the domains that answered. -/
def answers (x : Slot) : List Nat := x.ansW.toList ++ x.ansB.toList
/-- Is an outcome one that binds? -/
def outGood (c : Nat) : Bool := decide (c < 0x10)
/-- Does the slot's sheaf become READY in domain d by the answers of a join, of which domain `now` gave the last (R261)? A resumption has its
own event. -/
def readyBy (x : Slot) (now d : Nat) : Bool :=
  decide (slotState x d = 2) && (!x.reported || decide (d = now)) &&
  (match if d = 0 then x.ansW else x.ansB with | some c => decide (c ≠ outResumed ∧ c ≠ outResumeLowered) | none => false)
/-- Every awaited domain has answered, `now` the last of them: the join's outcome (R38). -/
def joinCombine (s now : Nat) (l : Leaf) : Leaf :=
  let x := leafSlot l s
  if (x.waitW && domLocked l 0) || (x.waitB && domLocked l 1) then l
  else
    let as := answers x
    let top := as.foldl max 0
    if as.all outGood then
      let l1 := updSlot l s (fun y => { y with reported := true, member := if y.wState = 4 ∨ y.bState = 4 then 5 else 1 })
      let l2 := if x.reported then l1 else joinDone s top l1
      [0, 1].foldl (fun a d => if readyBy x now d then leafEv a .sheafReady s d else a) l2
    else if as.any outGood then joinSplit s l
    else
      let l1 := joinDone s top (updSlot l s (fun y => { y with reported := true }))
      if x.boundW || x.boundB then l1
      else
        let st := fun (a : Option Nat) => if a = some outFormTimeout then 6 else 0
        let l2 := updSlot l1 s (fun y => { y with wState := st y.ansW, bState := st y.ansB, member := 0, genSet := false,
                                                  closeCause := if top = outFormTimeout then 5 else y.closeCause })
        if top = outFormTimeout then leafEv l2 .sheafClosed s 5 else l2
/-- A resumption reaches the slot in domain d (R250, R252). -/
def slotResumed (s d code : Nat) (g : Gran) (l : Leaf) : Leaf :=
  let l1 := updSlot l s (fun x => { setState d 2 (runBegins g (ackBind d g x)) with member := 1, lastOutcome := code })
  leafEv l1 .sheafResumed s code
/-- Resend in domain d every unresolved generation from `from_` (R235, R252). -/
def resendFrom (s d from_ : Nat) (l : Leaf) : Leaf :=
  ((leafSlot l s).gens.filter (fun q => q.arrived && genOpen q && decide (from_ ≤ q.gen))).foldl
    (fun a q => resendGen a d q) l
/-- The leaf's oldest unresolved generation (R252). -/
def oldestGen (x : Slot) : Nat :=
  if x.genSet then ((x.gens.filter genOpen).map SlotGen.gen).foldl min x.nextGen else x.resumeGen
/-- An acknowledgement of an `AUTO` join (R252): the domain is READY, or goes on as it was where the join was a repeat. A join of the host still
unanswered there is answered with it (R38, R253). -/
def autoAnswered (s d code : Nat) (g : Gran) (l : Leaf) : Leaf :=
  let l1 := updSlot l s (fun x => { x with auto := Nat.xor x.auto (2 ^ d) })
  let x := leafSlot l1 s
  let was := slotState x d
  let l2 :=
    if outGood code then
      let st := if code = outRepeat ∧ (was = 2 ∨ was = 3) then was else 2
      let l3 := resendFrom s d (oldestGen x) (updSlot l1 s (fun y => setState d st (ackBind d g (if y.genSet then y else runBegins g y))))
      if slotWaits x d then l3
      else if was = 4 ∨ (was = 3 ∧ (code = outResumed ∨ code = outResumeLowered)) then leafEv l3 .sheafResumed s (leafSlot l3 s).lastOutcome
      else if was = st then l3
      else leafEv l3 .sheafReady s d
    else l1
  if slotWaits x d then joinCombine s d (updSlot l2 s (setAnswer d code)) else l2
/-- A join acknowledgement lands (R38, R227, R430). -/
def leafJoinAck (d : Nat) (g : Gran) (l : Leaf) : Leaf :=
  let s := gf g 23 19
  let code := gf g 15 8
  let x := leafSlot l s
  if x.isLocal ∨ x.tag ≠ gf g 55 24 ∨ !(slotWaits x d || slotBound x d || decide (x.auto / 2 ^ d % 2 = 1)) then l
  else if l.fence.fenced ∨ x.fenced then
    leafSolo (setSlot l s (if d = 0 then { x with waitW := false } else { x with waitB := false })) d 1 (fenceNotice l s x)
  else if code = outUnparked then
    updSlot l s (fun y => setState d (gf g 76 74) (ackBind d g (setAnswer d code y)))
  else if code = outProgramNeeded then sendJoin s d (decide (x.auto / 2 ^ d % 2 = 1)) (if x.auto / 2 ^ d % 2 = 1 then oldestGen x else x.resumeGen)
      (decide (x.auto / 2 ^ d % 2 = 1) || x.resumeValid) l
  else if x.auto / 2 ^ d % 2 = 1 then autoAnswered s d code g l
  else if code = outResumed ∨ code = outResumeLowered then
    let l1 := slotResumed s d code g l
    if slotWaits x d then joinCombine s d (updSlot l1 s (setAnswer d code)) else l1
  else if slotWaits x d then
    let l1 := updSlot l s (fun y =>
      let z := setAnswer d code y
      if outGood code then
        let w := ackBind d g (if z.genSet then z else runBegins g z)
        setState d (stateAfter l.start.strictForce code w) w
      else z)
    joinCombine s d l1
  else l

/-! ### Arrivals (R232 to R235, R404) -/
/-- The arrival's refusal, if any (R232, R507). -/
def arriveRefusal (l : Leaf) (x : Slot) (pay : Nat) : Option Nat :=
  if l.fence.fenced then some outFenced
  else if x.isLocal ∨ !slotRuns x then some outNotRunning
  else if pgInflight x.program ≤ inFlight x then some outWindowFull
  else if pay ≠ pgPayGranules x.program then some outPayloadSize
  else none
/-- The payload granules a leaf sends (R284, R404, R509): the window's, digest lanes turned, then the shadow granules. -/
def payloadOf (x : Slot) (gen : Nat) : List Granule :=
  let gs := pgGroupList x.program
  let ks := payKinds gs
  let body := ks.zipIdx.map (fun (k : (Nat × Nat) × Nat) =>
    let w := tabGet ({} : Granule) x.arrWindow k.2
    if k.1.1 = 12 then { w with data := digestLane x.rank w.data } else w)
  body ++ (if isShadow gen then (shadowGrans gs x.rank gen).map plain else [])
/-- Has the slot fired generation g of the run with this resumption count? -/
def firedHas (x : Slot) (g : Nat) (rc : BitVec 16) : Bool := x.fired.any (fun f => decide (f.gen = g ∧ f.word.rc = rc))
/-- Is a generation already resolved at the leaf, as its word or failure came before the member arrived? -/
def genPast (x : Slot) (g : Nat) : Bool := firedHas x g x.resumeCount || x.failed.contains g
/-- A write of `ARRIVE` (R232). -/
def leafArrive (s pay : Nat) (freq : Bool) (l : Leaf) : Leaf :=
  let x := leafSlot l s
  match arriveRefusal l x pay with
  | some c => updSlot (if c = outFenced then fencedRefusal l else l) s (fun y => { y with arriveOutcome := c })
  | none =>
    let gen := x.nextGen
    let body := payloadOf x gen
    let tok := tokenGran s x gen body.length freq (timeUnaligned l) (leafNs l)
    let pay := plain (payHeader s x gen body.length) :: body
    let held := x.gens.find? (fun q => decide (q.gen = gen))
    let q : SlotGen := match held with
      | some h => { h with token := tok, payload := pay, freqReq := freq, arrived := true }
      | none => { gen := gen, token := tok, payload := pay, freqReq := freq }
    let gens := x.gens.filter (fun h => decide (h.gen ≠ gen)) ++ (if genPast x gen then [] else [q])
    let run := fun (st : Nat) => if st = 2 then 3 else st
    let l1 := setSlot l s { x with nextGen := gen + 1, arriveGen := gen, arriveOutcome := outAccepted, gens := gens,
                                   paySeq := (x.paySeq + body.length) % 2 ^ 40, member := 2, wState := run x.wState, bState := run x.bState }
    [0, 1].foldl (fun a d => if slotBound x d then leafSend (leafSolo a d 1 tok) d 1 pay else a) l1

/-! ### Leaving and closing (R259) -/
/-- A local sheaf closes at the hub. -/
def localClose (s cause : Nat) (l : Leaf) : Leaf :=
  let l1 := updSlot (dropChan s l) s (fun x => { x with wState := 6, bState := 0, closeCause := cause, gens := [], member := 0 })
  leafEv l1 .sheafClosed s cause
/-- A write of `LEAVE` (R259): a leave notice goes up each bound domain; a local sheaf closes at once. `PKT_TYPE` of the notice is a
DESIGN CHOICE (assumption 20): the spec gives none. -/
def leafLeave (s : Nat) (l : Leaf) : Leaf :=
  let x := leafSlot l s
  if !slotOpen x ∧ !x.split then updSlot l s (fun y => { y with lastOutcome := outNotRunning })
  else if x.isLocal then localClose s 1 (updSlot l s (fun y => { y with lastOutcome := outAccepted }))
  else if x.split then updSlot l s (fun y => { y with split := false, lastOutcome := outAccepted })
  else
    let g := slotNotice (Config.pktType .leave) s x []
    let l1 := [0, 1].foldl (fun a d => if slotBound x d || slotWaits x d then leafSolo a d 1 g else a) l
    updSlot l1 s (fun y => { y with lastOutcome := outAccepted })
/-- The sheaf is CLOSED in domain d (R259): when it is so in every domain it was bound in, the slot is free. -/
def leafSheafClosed (d s tag cause : Nat) (l : Leaf) : Leaf :=
  let x := leafSlot l s
  if x.isLocal ∨ x.tag ≠ tag ∨ !(slotBound x d || slotWaits x d) then l
  else
    let l1 := updSlot l s (fun y => setState d 6 (setBound d false { (if d = 0 then { y with waitW := false } else { y with waitB := false }) with
      closeCause := cause }))
    let y := leafSlot l1 s
    if y.boundW || y.boundB then failDue s l1
    else leafEv (setSlot l1 s { y with member := 0, gens := [] }) .sheafClosed s cause
/-- The pod time in ns at which the suspended local sheaf of slot s closes (R251). -/
def localSuspendEnd (s : Nat) (l : Leaf) : Nat :=
  (leafChan l (leafSlot l s).channel).openAt + pgSuspendTimeoutS (leafSlot l s).program * nsSec
/-- A sheaf suspended for the program's time closes (R251): a local sheaf at its hub. -/
def leafLocalSuspendTimeout (s : Nat) (l : Leaf) : Leaf :=
  let x := leafSlot l s
  if x.isLocal ∧ x.wState = 4 then localClose s 3 (leafTo (localSuspendEnd s l) l) else l
/-- The release instant of a block at the leaf (R138), with the joins that a domain newly LOCKED lets out (R45). -/
def leafReleaseRow (d : Nat) (l : Leaf) : Leaf :=
  let l1 := leafRelease d l
  if domLocked l1 d && !domLocked l d then leafLateJoins d l1 else l1

/-! ### Catching up and re-forming (R252, R253) -/
/-- Send the slot's `AUTO` join in domain d. -/
def sendAuto (s d : Nat) (l : Leaf) : Leaf :=
  let x := leafSlot l s
  let l1 := sendJoin s d true (oldestGen x) true l
  updSlot l1 s (fun y => { y with auto := Nat.lor y.auto (2 ^ d), reform := if y.reform / 2 ^ d % 2 = 1 then y.reform - 2 ^ d else y.reform })
/-- Does the slot catch up in domain d (R252): bound there past FORMING while the other domain runs, or told to re-form (R253)? The leaf may not
have heard of the suspension: its state there may still read READY or RUNNING. -/
def autoDue (x : Slot) (d : Nat) : Bool :=
  decide (x.reform / 2 ^ d % 2 = 1) ||
  (x.genSet && !slotWaits x d && slotBound x d && decide (slotState x (1 - d) = 3) && decide (2 ≤ slotState x d ∧ slotState x d ≤ 4))
/-- A leaf whose path in domain d has returned catches up there (R252). -/
def leafAutoJoin (s d : Nat) (l : Leaf) : Leaf :=
  let x := leafSlot l s
  if slotOpen x && !x.isLocal && !x.split && !x.fenced && !l.fence.fenced && domLocked l d && decide (x.auto / 2 ^ d % 2 = 0) && autoDue x d then
    sendAuto s d l
  else l
/-- A re-form notice (R253), for a member of the run, or for a spare whose join is unanswered. -/
def leafReform (d : Nat) (g : Gran) (l : Leaf) : Leaf :=
  let s := gf g 12 8
  let x := leafSlot l s
  if x.isLocal ∨ x.fenced ∨ x.tag ≠ gf g 47 16 ∨ !((slotBound x d && decide (x.resumeCount.toNat = gf g 143 128)) || slotWaits x d) then l
  else
    let l1 := updSlot l s (fun y => setState d 4 (setBound d false { y with reform := Nat.lor y.reform (2 ^ d) }))
    let l2 := failDue s (leafEv l1 .sheafSuspended s d)
    if domLocked l2 d && !l2.fence.fenced then sendAuto s d l2 else l2

/-! ### Parking (R254 to R257) -/
/-- The context block but for its seal (R255). -/
def contextBody (s stamp : Nat) (force : Bool) (x : Slot) : Bytes × Bytes :=
  let p := x.program
  (leBytes 4 x.tag ++ leBytes 4 x.rank ++ leBytes 4 x.n ++ leBytes 1 s ++
   leBytes 1 (b2n x.isLocal + 2 * b2n (effStrict force p) + 4 * b2n (pgParkOk p)) ++ leBytes 2 x.resumeCount.toNat ++ leBytes 8 x.nextGen ++
   leBytes 8 x.lastFire ++ leBytes 8 stamp ++ leBytes 8 (if x.isLocal then x.tapMask else 0),
   granBytes x.digest ++ leBytes 4 (if x.boundW then x.apexW else 0xFFFFFFFF) ++ leBytes 4 (if x.boundB then x.apexB else 0xFFFFFFFF) ++
   leBytes 8 x.runStart ++ List.replicate 152 0#8)
/-- `SEAL` (R255, R472); while the latch of R482 blocks the device key, an open value. -/
def sealOf (l : Leaf) (a b : Bytes) : Bytes :=
  let m := a ++ b ++ leBytes 8 l.serial
  if l.sec.latch then leBytes 8 (Config.sealLatched m) else (hmac (sealKey l.sec) m).take 8
/-- May the member park (R254)? -/
def parkRefusal (l : Leaf) (x : Slot) : Option Nat :=
  let past := fun (st : Nat) => decide (2 ≤ st ∧ st ≤ 5)
  if l.fence.fenced ∧ slotOpen x ∧ !x.isLocal then some outFenced
  else if !(past x.wState || past x.bState) ∨ (!x.isLocal ∧ !pgParkOk x.program) ∨ 0 < inFlight x ∨
      (x.isLocal ∧ !(tabGet {} l.chans x.channel).arrivals.isEmpty) then some outParkRefused
  else none
/-- A write of `PARK` (R254). -/
def leafPark (s : Nat) (l : Leaf) : Leaf :=
  let x := leafSlot l s
  match parkRefusal l x with
  | some c => updSlot (if c = outFenced then fencedRefusal l else l) s (fun y => { y with lastOutcome := c })
  | none =>
    let b := contextBody s (leafNs l) l.start.strictForce x
    let block := b.1 ++ sealOf l b.1 b.2 ++ b.2
    let g := slotNotice 0x56 s x [⟨144, 64, leafNs l⟩]
    let l1 := [0, 1].foldl (fun a d => if slotBound x d then leafSolo a d 1 g else a) l
    let l2 := if x.isLocal then dropChan s l1 else l1
    setSlot l2 s { x with ctxWindow := tabWriteList 0#8 [] 0 block, wState := 0, bState := 0, member := 6, boundW := false, boundB := false,
                          waitW := false, waitB := false, gens := x.gens.filter (fun q => !genOpen q), lastOutcome := outParked }
/-- The slot as a context block restores it (R257). -/
def restoreSlot (c p : Bytes) (x : Slot) : Slot :=
  let local_ := (bf c 0x0D 1).testBit 0
  let apexW := bf c 0x58 4
  let apexB := bf c 0x5C 4
  let lv := fun (a : Nat) => if a = 0xFFFFFFFF then 0 else bitsOf a 30 29
  { x with tag := bf c 0 4, rank := bf c 4 4 % 2 ^ 18, n := bf c 8 4 % 2 ^ 19, resumeCount := BitVec.ofNat 16 (bf c 0x0E 2),
           nextGen := bf c 0x10 8 % 2 ^ 48, lastFire := bf c 0x18 8, tapMask := bf c 0x28 8, digest := granOf ((c.drop 0x38).take 32),
           apexW := apexW, apexB := apexB, levelW := lv apexW, levelB := lv apexB, level := max (lv apexW) (lv apexB),
           runStart := bf c 0x60 8, program := p, isLocal := local_, strict := pgStrict p,
           gens := if x.tag = bf c 0 4 then x.gens else [], failed := [], fired := if x.tag = bf c 0 4 then x.fired else [],
           results := if x.tag = bf c 0 4 then x.results else [],
           ctxWindow := [], genSet := true, reported := true, split := false, fenced := false, auto := 0, reform := 0, ansW := none, ansB := none,
           resumeValid := false, closeCause := 0, paySeq := 0, member := 1, lastOutcome := outUnparked,
           boundW := !local_ && decide (apexW ≠ 0xFFFFFFFF), boundB := !local_ && decide (apexB ≠ 0xFFFFFFFF),
           waitW := !local_ && decide (apexW ≠ 0xFFFFFFFF), waitB := !local_ && decide (apexB ≠ 0xFFFFFFFF),
           wState := if local_ then 2 else 0, bState := 0 }
/-- The first check an unpark fails (R257; FENCED for a pod sheaf as for `PARK`). -/
def unparkRefusal (l : Leaf) (s : Nat) : Option Nat :=
  let x := leafSlot l s
  let c := tabReadList 0#8 x.ctxWindow 0 256
  let local_ := (bf c 0x0D 1).testBit 0
  let p := windowProgram x
  if l.fence.fenced ∧ !local_ then some outFenced
  else if slotOpen x then some outSlotBusy
  else if (c.drop 0x30).take 8 ≠ sealOf l (c.take 0x30) (c.drop 0x38) ∨ (!local_ ∧ bf c 0x0C 1 % 32 ≠ s) then some outContextBad
  else if !lengthOk p ∨ granOf (sha256 p) ≠ granOf ((c.drop 0x38).take 32) then some outProgramDigest
  else if local_ ∧ (freeChan l).isNone then some outLocalFull
  else none
/-- A write of `UNPARK` (R257). -/
def leafUnpark (s : Nat) (l : Leaf) : Leaf :=
  match unparkRefusal l s with
  | some c => updSlot (if c = outFenced then fencedRefusal l else l) s (fun y => { y with lastOutcome := c })
  | none =>
    let c := tabReadList 0#8 (leafSlot l s).ctxWindow 0 256
    let y := restoreSlot c (windowProgram (leafSlot l s)) (leafSlot l s)
    let l1 := setSlot l s y
    if y.isLocal then
      match freeChan l with
      | some k => { setSlot l s { y with channel := k } with
          chans := tabSet {} l.chans k { slot := some s, mask := y.tapMask, gen := y.nextGen, openAt := leafNs l } }
      | none => l1
    else
      let g := slotNotice 0x55 s y [⟨144, 64, leafNs l⟩]
      [0, 1].foldl (fun a d => if slotBound y d then leafSolo a d 1 g else a) l1

end Sys2Proof.Machine
end

