-- ==== Sys2Proof/Machine/LeafFence.lean ====
section
/-! DEFINITION. Fencing at the leaf (R428 to R434): causes, the heartbeat, the drain and its notices, and the release. -/
namespace Sys2Proof.Machine

/-- Cause codes (R428). -/
def fcHeartbeat : Nat := 1
def fcHostReset : Nat := 2
def fcFencePin : Nat := 3
def fcMgmt : Nat := 4
def fcLaunchMissed : Nat := 5

/-- A fence cause is raised (R428, R346): the first fences the host, and open capture records close torn. -/
def leafFence (c : Nat) (l : Leaf) : Leaf :=
  let f := l.fence
  let causes := Nat.lor f.causes (2 ^ (c - 1))
  if f.fenced then
    { l with fence := { f with causes := causes, causeEdge := some l.time.edges,
                               first := if f.fencedEdge = l.time.edges then min f.first c else f.first } }
  else
    let l1 := { l with fence := { f with causes := causes, causeEdge := some l.time.edges, fencedEdge := l.time.edges, fenced := true,
                                         draining := true, first := c, fencedAt := leafNs l, count := ctrInc f.count } }
    leafEv (capTearAll l1) .fenced 0 c
/-- The slot once its notice is sent (R430). -/
def slotFenced (x : Slot) : Slot :=
  { x with fenced := true, member := 3, wState := if x.wState = 0 ∧ !x.waitW then 0 else 6, bState := if x.bState = 0 ∧ !x.waitB then 0 else 6,
           split := false, auto := 0, reform := 0 }
/-- The notice of one slot, to each domain (R249, R430): for an open pod sheaf or an unanswered join. -/
def noticeSlot (l : Leaf) (s : Nat) : Leaf :=
  let x := leafSlot l s
  if slotOpen x && !x.isLocal && !x.fenced then
    let g := fenceNotice l s x
    setSlot (leafSoloBoth l 1 g) s (slotFenced x)
  else l
/-- Is port p drained (R430): nothing of VC1 is left to send, or the link is not UP and what it had is discarded? -/
def portDrained (p : Port) : Bool := decide (p.state ≠ .up) || (p.dat.part1.isEmpty && !p.dat.txQ.any (fun k => decide (k.vc = 1)))
def leafDrained (l : Leaf) : Bool := portDrained l.port0 && portDrained l.port1
/-- The drain completes (R430): time runs until the last of the payloads has been sent, and the fence notices go out behind them. DESIGN CHOICE
(assumption 57): without VC1 credit for 1 ms it is not complete yet. -/
def leafFenceDrained (l0 : Leaf) : Leaf :=
  if l0.fence.fenced && l0.fence.draining then
    let l := leafRun leafDrained 1280000 l0
    if leafDrained l then
      leafEv ((List.range 32).foldl noticeSlot { l with fence := { l.fence with draining := false } }) .fenceDrained 0 l.fence.first
    else l
  else l0
/-- May the fence lift now (R434)? -/
def unfenceOk (l : Leaf) : Bool :=
  let f := l.fence
  !f.draining && !f.pinReset && !f.pinFence && !f.causes.testBit 3 && decide (f.causeEdge ≠ some l.time.edges)
/-- A write of `UNFENCE` (R434): accepted, it clears every cause and leaves the heartbeat disarmed, and lifts a fence that stands. -/
def leafUnfence (l : Leaf) : Leaf :=
  let f := l.fence
  if unfenceOk l then
    let l1 := { l with fence := { f with fenced := false, causes := 0, first := 0, hbArmed := false, injected := false } }
    if f.fenced then leafEv l1 .unfenced 0 f.first else l1
  else { l with fence := { f with unfenceRefused := ctrInc f.unfenceRefused } }
/-- A write of `HEARTBEAT` (R429). -/
def leafHeartbeat (l : Leaf) : Leaf :=
  let f := l.fence
  if f.fenced ∨ f.hbTimeout = 0 then l else { l with fence := { f with hbArmed := true, hbStart := l.time.edges } }
/-- A write of `HB_TIMEOUT_US` (R429). -/
def leafHbTimeout (v : Nat) (l : Leaf) : Leaf :=
  let f := l.fence
  if v = 0 then { l with fence := { f with hbTimeout := 0, hbArmed := false } }
  else if v < 10 ∨ 10000000 < v then { l with fence := { f with hbBad := ctrInc f.hbBad } }
  else { l with fence := { f with hbTimeout := v, hbStart := if f.hbArmed then l.time.edges else f.hbStart } }
/-- The heartbeat timer expires (R429): time has run to the instant the timer names, and the host is fenced. -/
def leafHbExpire (l : Leaf) : Leaf :=
  let f := l.fence
  if f.hbArmed then
    let l1 := leafToEdge (f.hbStart + f.hbTimeout * 1280) l
    leafFence fcHeartbeat { l1 with fence := { l1.fence with hbArmed := false } }
  else l
/-- The level of `host_rst_n` (asserted or not) or `host_fence`: all that a leaf held in reset takes of it, to be seen at the release (R428). -/
def leafPinLevel (reset on : Bool) (l : Leaf) : Leaf :=
  if reset then { l with fence := { l.fence with pinReset := on } } else { l with fence := { l.fence with pinFence := on } }
/-- `host_rst_n` or `host_fence` asserts (R428). -/
def leafFencePin (reset : Bool) (l : Leaf) : Leaf := leafFence (if reset then fcHostReset else fcFencePin) (leafPinLevel reset true l)
/-- One of the two deasserts (R434). -/
def leafFenceOff (reset : Bool) (l : Leaf) : Leaf := leafPinLevel reset false l
/-- A `FENCE` with `RELEASE` = 1 (R428): it clears `MGMT` alone. -/
def leafMgmtRelease (l : Leaf) : Leaf :=
  { l with fence := { l.fence with causes := if l.fence.causes.testBit 3 then Nat.xor l.fence.causes 8 else l.fence.causes } }
/-- `FENCE_STATUS` (R445). -/
def fenceStatusWord (f : Fence) : Word :=
  layW [⟨0, 1, b2n f.fenced⟩, ⟨1, 1, b2n f.draining⟩, ⟨2, 5, f.causes⟩, ⟨8, 4, f.first⟩, ⟨12, 1, b2n f.hbArmed⟩]

end Sys2Proof.Machine
end

