-- ==== Sys2Proof/Machine/LeafTrig.lean ====
section
/-! DEFINITION. The trigger outputs of a leaf (R496 to R499). -/
namespace Sys2Proof.Machine

/-- Trigger k. -/
def leafTrig (l : Leaf) (k : Nat) : Trigger := tabGet {} l.triggers k
/-- Replace trigger k. -/
def setTrig (l : Leaf) (k : Nat) (t : Trigger) : Leaf := { l with triggers := tabSet {} l.triggers k t }
/-- `TRIG_CFG_k`. -/
def trigCfgWord (t : Trigger) : Word :=
  layW [⟨0, 1, b2n t.enable⟩, ⟨1, 2, t.mode⟩, ⟨3, 1, b2n t.invert⟩, ⟨4, 5, t.slot⟩, ⟨9, 16, t.branchMask⟩, ⟨32, 32, t.widthNs⟩]
/-- Is the trigger's own pulse in progress (R497, R499)? Up to its width, whatever else is due. -/
def trigActive (tm : TimeCore) (t : Trigger) : Bool := t.active && !reached tm t.pulseEnd
/-- `TRIG_STATUS_k`. -/
def trigStatusWord (tm : TimeCore) (t : Trigger) : Word :=
  layW [⟨0, 1, b2n t.armed⟩, ⟨1, 1, b2n (trigActive tm t)⟩, ⟨2, 1, b2n t.lateSeen⟩, ⟨3, 1, b2n t.skippedSeen⟩, ⟨4, 1, b2n t.cfgBad⟩, ⟨8, 48, t.lastEdge⟩]
/-- Would these settings break R497? -/
def trigBad (t : Trigger) : Bool :=
  decide (t.mode = 3) || !(decide (10 ≤ t.widthNs) && decide (t.widthNs ≤ 1000000000)) ||
  (decide (t.mode = 2) && decide (1000000000 < t.time)) || (decide (t.mode = 1) && decide (t.periodNs ≤ t.widthNs))
/-- Is a written period in its range (R496)? -/
def periodBad (w : Word) : Bool := decide (wf w 47 0 < 100) || decide (10 ^ 12 < wf w 47 0)
/-- Schedule a trigger anew (R498): single and periodic triggers arm; `re`: `ENABLE` rose, or `TIME` was written; `keep`: the mode stands, so that a
single trigger already armed stays so. -/
def trigArm (now edges : Nat) (re keep : Bool) (t : Trigger) : Trigger :=
  if !t.enable then { t with armed := false, due := [] }
  else
    match t.mode with
    | 0 =>
      if re then { t with armed := true, next := t.time, lateArm := decide (t.time < now), armEdge := edges, due := [] }
      else if keep then t else { t with armed := false, lateArm := false, due := [] }
    | 1 => { t with armed := true, next := periodicNext now t, lateArm := false, due := [] }
    | _ => { t with armed := !t.due.isEmpty, lateArm := false }
/-- A write of trigger k's register at `off` (R497, R498): refused writes set `CFG_BAD` only. -/
def leafTrigWrite (k off : Nat) (w : Word) (l : Leaf) : Leaf :=
  let t := leafTrig l k
  let arm := trigArm (leafNs l) l.time.edges
  let put := fun (bad : Bool) (n : Trigger) => if bad then setTrig l k { t with cfgBad := true } else setTrig l k n
  match off with
  | 0x00 =>
    let n := { t with enable := wbit w 0, mode := wf w 2 1, invert := wbit w 3, slot := wf w 8 4, branchMask := wf w 24 9, widthNs := wf w 63 32 }
    put (trigBad n) (arm (!t.enable) (decide (n.mode = t.mode)) n)
  | 0x08 => let n := { t with time := w.toNat }
    put (trigBad n) (arm true true n)
  | 0x10 => let n := { t with periodNs := wf w 47 0 }
    put (periodBad w || trigBad n) (arm false true n)
  | 0x18 =>
    setTrig l k { t with lateSeen := t.lateSeen && !wbit w 2, skippedSeen := t.skippedSeen && !wbit w 3, cfgBad := t.cfgBad && !wbit w 4 }
  | _ => l
/-- The leaf fires a launch (R498): on-launch triggers of the slot schedule F + `TIME`. -/
def trigLaunch (s branch fire : Nat) (l : Leaf) : Leaf :=
  { l with triggers := tabMap {} (fun _ t =>
      if t.enable && decide (t.mode = 2) && decide (t.slot = s) && t.branchMask.testBit branch then
        { t with armed := true, due := t.due ++ [fire + t.time] } else t) l.triggers }
/-- The instant due next. -/
def trigInstant (t : Trigger) : Option Nat :=
  if !t.enable || !t.armed then none else if t.mode = 2 then t.due.foldl (fun a x => match a with | none => some x | some y => some (min x y)) none
  else some t.next
/-- The trigger once its instant `x` is dealt with. -/
def trigPassed (x : Nat) (t : Trigger) : Trigger :=
  match t.mode with
  | 0 => { t with armed := false, lateArm := false }
  | 1 => { t with next := t.next + t.periodNs }
  | _ => { t with due := t.due.erase x, armed := decide (t.due.length ≠ 1) }
/-- Has trigger k's instant come? One past when the trigger armed comes on the next edge (R498). -/
def trigDue (k : Nat) (l : Leaf) : Bool :=
  let t := leafTrig l k
  match trigInstant t with
  | none => true
  | some x => reached l.time x && (!t.lateArm || decide (t.armEdge < l.time.edges))
/-- The clock runs to trigger k's instant; a step on the way may pass over periodic ones (R499). -/
def trigRun (k : Nat) (l : Leaf) : Leaf :=
  let t := leafTrig l k
  leafRun (trigDue k) (edgesTo l.time ((trigInstant t).getD 0 + t.periodNs)) l
/-- A trigger instant is reached (R498, R499): the leading edge is driven on the first edge at or after it, or dropped and counted. -/
def leafTrigEdge (k : Nat) (l0 : Leaf) : Leaf :=
  let l := trigRun k l0
  match trigInstant (leafTrig l k) with
  | none => l
  | some x =>
    let t := leafTrig l k
    if !l.time.valid || trigActive l.time t then { setTrig l k (trigPassed x t) with trigDropped := ctrInc l.trigDropped }
    else
      let late := decide (t.mode = 0) && t.lateArm
      let n := { trigPassed x t with active := true, lastEdge := l.time.ns % 2 ^ 48, pulseEnd := l.time.ns + t.widthNs, lateSeen := t.lateSeen || late }
      if late then leafEv { setTrig l k n with trigLate := ctrInc l.trigLate } .triggerLate k 0 else setTrig l k n
/-- A pulse reaches its width (R497). -/
def leafPulseEnd (k : Nat) (l0 : Leaf) : Leaf :=
  if !(leafTrig l0 k).active then l0
  else
    let l := leafRun (fun x => reached x.time (leafTrig x k).pulseEnd) (edgesTo l0.time (leafTrig l0 k).pulseEnd) l0
    setTrig l k { leafTrig l k with active := false }

end Sys2Proof.Machine
end

