-- ==== Sys2Proof/Machine/LeafLaunch.lean ====
section
/-! DEFINITION. Launch words, firing, failures and results at the leaf (R235, R240 to R245, R59, R98, R400, R401, R512). -/
namespace Sys2Proof.Machine

/-- A launch word's fields (R240). -/
def wordOf (g : Gran) : LaunchWord :=
  { gen := gf g 103 56, rc := BitVec.ofNat 16 (gf g 119 104), fire := gf g 183 120, branch := gf g 16 13, domain := gf g 17 17,
    freqCommit := gbit g 18, part := gbit g 19, forced := gbit g 20, digest := gf g 247 184, count := gf g 255 248 }
/-- An entry for a generation the member has not arrived for. -/
def genBlank (g : Nat) : SlotGen := { gen := g, token := 0#256, payload := [], arrived := false }
/-- Do two held words differ so that a mismatch is set (R242)? -/
def wordsDiffer (a b : LaunchWord) : Bool :=
  decide (a.digest ≠ b.digest ∨ a.branch ≠ b.branch) || (a.part != b.part) || (a.forced != b.forced)
/-- Is a word or failure of this generation stale at the leaf (R235)? -/
def genStale (x : Slot) (g : Nat) (rc : BitVec 16) : Bool :=
  decide (rc ≠ x.resumeCount) || x.failed.contains g || (decide (g < x.nextGen) && (genFind x g).isNone && !firedHas x g rc)
/-- A second word of a generation already fired, held all the same (R242, R400). -/
def firedSecond (s : Nat) (w : LaunchWord) (l : Leaf) : Leaf :=
  let x := leafSlot l s
  match x.fired.find? (fun f => decide (f.gen = w.gen ∧ f.word.rc = w.rc)) with
  | none => l
  | some f =>
    if f.word.domain = w.domain ∨ f.both then l
    else
      let diff := wordsDiffer f.word w
      let f1 := { f with both := true, other := if diff then some w else none }
      let x1 := { x with fired := x.fired.map (fun h => if h.gen = w.gen then f1 else h),
                         lBoth := x.lBoth || decide (x.lGen = w.gen), lMismatch := x.lMismatch || (diff && decide (x.lGen = w.gen)) }
      if diff then leafEv (setSlot l s x1) .resultMismatch s 0 else setSlot l s x1
/-- A launch word lands from domain d (R235, R242, R245, R432). -/
def leafLaunchWord (d : Nat) (g : Gran) (l : Leaf) : Leaf :=
  let s := gf g 12 8
  let w := { wordOf g with domain := d }
  let x := leafSlot l s
  if x.isLocal ∨ x.tag ≠ gf g 55 24 ∨ !(slotBound x d || x.fenced) then l
  else if genStale x w.gen w.rc then setSlot l s { x with staleDrop := ctrInc x.staleDrop }
  else
    let late := decide (accOfNs w.fire < l.time.acc + accOfNs 200)
    let y := setState d (if slotState x d = 2 then 3 else slotState x d) x
    if firedHas x w.gen w.rc then
      if late then setSlot l s { y with wordLate := ctrInc y.wordLate } else firedSecond s w (setSlot l s y)
    else
      match genFind x w.gen with
      | none =>
        if x.fenced ∨ l.fence.fenced then l
        else if late then
          setSlot l s { genPut (if d = 0 then { genBlank w.gen with lateW := some w.fire } else { genBlank w.gen with lateB := some w.fire }) y with
            wordLate := ctrInc y.wordLate }
        else setSlot l s (genPut (if d = 0 then { genBlank w.gen with heldW := some w } else { genBlank w.gen with heldB := some w }) y)
      | some q =>
        if !q.arrived && (x.fenced || l.fence.fenced) then l
        else if late then
          setSlot l s { genPut (if d = 0 then { q with lateW := some w.fire } else { q with lateB := some w.fire }) y with
            wordLate := ctrInc y.wordLate }
        else
          let n := b2n (q.failW && genOpen q) + b2n (q.failB && genOpen q)
          setSlot l s { genPut (if d = 0 then { q with heldW := some w } else { q with heldB := some w }) y with
            domGenFailed := ctrAdd y.domGenFailed n }
/-- The word a generation fires (R242): the earliest fire time, Wheat's when equal; with the other held word. -/
def chooseWord (q : SlotGen) : Option (LaunchWord × Option LaunchWord) :=
  match q.heldW, q.heldB with
  | some a, some b => if b.fire < a.fire then some (b, some a) else some (a, some b)
  | some a, none => some (a, none)
  | none, some b => some (b, none)
  | none, none => none
/-- Is a fire time in a skipped interval, of the held step or of the last applied ones (R59)? -/
def fireSkipped (l : Leaf) (f : Nat) : Bool :=
  let hit := fun (n : Notice) => decide (n.target = .podTime) && inSkipped n.at_ n.delta f
  (match l.time.pendPod with | some n => hit n | none => false) || l.time.applied.any hit
/-- The `FIRE` word (R74, R81). -/
def fireWord (s branch fire : Nat) (commit skipped : Bool) : Word :=
  layW [⟨60, 4, 5⟩, ⟨0, 48, fire⟩, ⟨48, 5, s⟩, ⟨53, 4, branch⟩, ⟨57, 1, b2n commit⟩, ⟨58, 1, b2n skipped⟩]
/-- Keep the two newest fired generations and the results that go with what is still there (R512). -/
def keepFired (x : Slot) : Slot :=
  let fs := x.fired.drop (x.fired.length - 2)
  { x with fired := fs, results := x.results.filter (fun r => fs.any (fun f => decide (f.gen = r.gen ∧ f.word.rc = r.rc)) || (genFind x r.gen).isSome ||
                                                              decide (x.nextGen ≤ r.gen)) }
/-- A landed result's granules and status in order, when all are there (R244). -/
def resWhole (r : ResBuf) (count : Nat) : Option (List Granule × Granule) :=
  match r.status with
  | none => none
  | some st =>
    let gs := (List.range count).map (fun i => r.grans.find? (fun e => decide (e.1 = i)))
    if gs.all Option.isSome then some (gs.map (fun e => match e with | some p => p.2 | none => {}), st) else none
/-- Does a landed result match a word's digest (R244)? -/
def resMatches (r : ResBuf) (w : LaunchWord) : Bool :=
  match resWhole r w.count with
  | some (gs, st) => decide (resultDigest (gs.map Granule.data) st.data = w.digest)
  | none => false
/-- The result exposed for a fired generation, if it has landed (R244). -/
def exposed (x : Slot) (f : Fired) : Option ResBuf := x.results.find? (fun r => decide (r.gen = f.gen ∧ r.rc = f.word.rc) && resMatches r f.word)
/-- Mark results that are now ready. -/
def markReady (x : Slot) : Slot :=
  let fs := x.fired.map (fun f => if !f.ready && (exposed x f).isSome then { f with ready := true } else f)
  { x with fired := fs, lReady := x.lReady || fs.any (fun f => decide (f.gen = x.lGen) && f.ready) }
/-- The pod time in ns at which a launch fires (R59): its fire time, or the step instant when the held step skips that. -/
def fireInstant (t : TimeCore) (f : Nat) : Nat :=
  match t.pendPod with
  | some n => if inSkipped n.at_ n.delta f then min f n.at_ else f
  | none => f
/-- The taps that a deferred request is reported for (R98, R102). DEDUCED (assumption 17): those armed, or with none armed those the launch names,
or with none named tap 0. -/
def deferTaps (l : Leaf) (named : List Nat) : List Nat :=
  match (List.range 64).filter (fun t => (leafTap l t).freqArm), named with
  | [], [] => [0]
  | [], ts => ts
  | ts, _ => ts
/-- The fire time less the guard is reached (R59, R242): time has run to it, the chosen word fires, and the taps get their `FIRE` words. -/
def leafLaunchFire (s gen : Nat) (l0 : Leaf) : Leaf :=
  match (genFind (leafSlot l0 s) gen).bind (fun q => (chooseWord q).map (fun w => (q, w))) with
  | none => l0
  | some (q, w, other) =>
    let l := leafTo (fireInstant l0.time w.fire - 200) l0
    let x := leafSlot l s
    let mask := pgTapsOf x.program w.branch
    let skipped := fireSkipped l w.fire
    let taps := onesOf 64 mask
    let bad := taps.any (tapOut l)
    let diff := match other with | some o => wordsDiffer w o | none => false
    let f : Fired := { gen := gen, word := w, freqReq := q.arrived && q.freqReq, both := other.isSome, other := if diff then other else none }
    let y := genDrop gen x
    let y1 := { y with fired := y.fired ++ [f], lGen := gen, lBranch := w.branch, lFrom := w.domain, lBoth := other.isSome, lMismatch := diff,
                       lSkipped := skipped, lTapFault := bad, lPartial := w.part, lForced := w.forced, lFreq := w.freqCommit,
                       lUnaligned := timeUnaligned l, lReady := false, lFailed := false, launchTime := w.fire, lastFire := w.fire,
                       member := if y.member = 2 then 1 else y.member }
    let l1 := setSlot l s (markReady (keepFired y1))
    let l2 := taps.foldl (fun a t => if tapOut a t then a else setTap a t (tapDn [fireWord s w.branch w.fire w.freqCommit skipped] (leafTap a t))) l1
    let l3 := if diff then leafEv l2 .resultMismatch s 0 else l2
    let l4 := if f.freqReq && !w.freqCommit then
        (deferTaps l3 taps).foldl (fun a t => leafEv a .freqDeferred t 0) l3
      else l3
    trigLaunch s w.branch w.fire (leafEv l4 .launch s w.branch)
/-- The state a domain shows after a failure word of this cause (R241, R259): CLOSING, or SUSPENDED. -/
def stateFailed (cause : Nat) (st : Nat) : Nat := if st = 2 ∨ st = 3 then (if cause = 5 then 5 else 4) else st
/-- A failure word lands from domain d (R241, R245). -/
def leafFailureWord (d : Nat) (g : Gran) (l : Leaf) : Leaf :=
  let s := gf g 12 8
  let gen := gf g 103 56
  let cause := gf g 127 120
  let x := leafSlot l s
  if x.isLocal ∨ x.tag ≠ gf g 55 24 ∨ !(slotBound x d || x.fenced) then l
  else if genStale x gen (BitVec.ofNat 16 (gf g 119 104)) then setSlot l s { x with staleDrop := ctrInc x.staleDrop }
  else if firedHas x gen (BitVec.ofNat 16 (gf g 119 104)) then
    let y := setState d (stateFailed cause (slotState x d)) x
    let l1 := setSlot l s { y with domGenFailed := ctrInc x.domGenFailed }
    if slotState y d = 4 ∧ slotState x d ≠ 4 then leafEv l1 .sheafSuspended s d else l1
  else
    let q := (genFind x gen).getD (genBlank gen)
    let q1 := { q with failW := q.failW || decide (d = 0), failB := q.failB || decide (d = 1), failAt := l.time.clock,
                       cause := if q.cause = 0 ∨ d = 0 then cause else q.cause }
    let was := slotState x d
    -- the domain still counts as running for this generation, then it is suspended (R241, R245)
    let failed := genFailed x q1
    let y := setState d (stateFailed cause was) x
    let susp := decide (slotState y d = 4 ∧ was ≠ 4)
    if !genOpen q1 then
      let l1 := setSlot l s { genPut q1 y with domGenFailed := ctrInc y.domGenFailed }
      if susp then failDue s (leafEv l1 .sheafSuspended s d) else l1
    else
      let l1 := if failed then genFail s d q1 (setSlot l s y) else setSlot l s (genPut q1 y)
      if susp then failDue s (leafEv l1 .sheafSuspended s d) else l1
/-- The fire time of a word that came late for a generation without one (R243): the earlier of two. -/
def lateFire (q : SlotGen) : Option Nat :=
  match q.lateW, q.lateB with
  | some a, some b => some (min a b)
  | some a, none => some a
  | none, b => b
/-- Time runs to the moment at which a generation without a word is missed (R243): the fire time of a late word, else 10 ms of the unit's own clock
after the last failure word. None where neither is named. -/
def missedRun (q : SlotGen) (l : Leaf) : Option Leaf :=
  if !genOpen q then none
  else
    match lateFire q with
    | some t => some (leafTo t l)
    | none => if q.failW || q.failB then some (leafToClock (q.failAt + 10000000) l) else none
/-- The leaf holds no word when it should (R243): it fires nothing and fences its host. -/
def leafLaunchMissed (s gen : Nat) (l : Leaf) : Leaf :=
  match (genFind (leafSlot l s) gen).bind (fun q => missedRun q l) with
  | none => l
  | some l1 => leafFence fcLaunchMissed (leafEv (updSlot l1 s (genDrop gen)) .launchMissed s 0)
/-- Is a word of generation gen under resumption count rc held or fired at the slot? -/
def wordHeld (x : Slot) (gen : Nat) (rc : BitVec 16) : Bool :=
  firedHas x gen rc || x.gens.any (fun q => decide (q.gen = gen) && (q.heldW.toList ++ q.heldB.toList).any (fun w => decide (w.rc = rc)))
/-- A result granule lands from domain d (R244): granule i, or the status granule, of the packet that names gen and rc. One of another run, or of a
generation that has resolved without its word, is stale (R235). -/
def leafResultGranule (d s gen : Nat) (rc : BitVec 16) (i : Nat) (status : Bool) (g : Granule) (l : Leaf) : Leaf :=
  let x := leafSlot l s
  if x.isLocal then l
  else if !(wordHeld x gen rc || (decide (rc = x.resumeCount) && !x.failed.contains gen && ((genFind x gen).isSome || decide (x.nextGen ≤ gen)))) then
    setSlot l s { x with staleDrop := ctrInc x.staleDrop }
  else
    let r := (x.results.find? (fun b => decide (b.gen = gen ∧ b.domain = d ∧ b.rc = rc))).getD { gen := gen, domain := d, rc := rc }
    let r1 : ResBuf := if status then { r with status := some g } else { r with grans := (i, g) :: r.grans.filter (fun e => decide (e.1 ≠ i)) }
    setSlot l s (markReady { x with results := r1 :: x.results.filter (fun b => !decide (b.gen = gen ∧ b.domain = d ∧ b.rc = rc)) })
/-- 1 ms has passed since the fire time with no result (R244). -/
def leafResultMissing (s gen : Nat) (l : Leaf) : Leaf :=
  let x := leafSlot l s
  match x.fired.find? (fun f => decide (f.gen = gen)) with
  | none => l
  | some f =>
    if f.ready || f.missing then l
    else leafEv (updSlot (leafTo (f.word.fire + 1000000) l) s (fun y =>
      { y with fired := y.fired.map (fun h => if h.gen = gen then { h with missing := true } else h) })) .resultMissing s 0
/-- The status granule a domain sent for a generation of the run with this resumption count. -/
def statusFrom (x : Slot) (gen : Nat) (rc : BitVec 16) (d : Nat) : Option Gran :=
  (x.results.find? (fun r => decide (r.gen = gen ∧ r.domain = d ∧ r.rc = rc))).bind (fun r => r.status.bind (fun g => if g.poison then none else some g.data))
/-- The class of a mismatch (R400) and, for `MM_SHADOW`, the domain held wrong. -/
def mmClassOf (a b : Option Gran) : Nat × Option Nat :=
  match a, b with
  | some x, some y =>
    if gf x 170 152 ≠ gf y 170 152 ∨ gf x 189 171 ≠ gf y 189 171 ∨ gf x 255 208 ≠ gf y 255 208 then (1, none)
    else if gbit x 202 && !gbit y 202 then (2, some 0)
    else if gbit y 202 && !gbit x 202 then (2, some 1)
    else (3, none)
  | _, _ => (4, none)
/-- A mismatch notice (R401). -/
def mmNotice (s : Nat) (x : Slot) (w b : LaunchWord) (cls : Nat) : Gran :=
  slotNotice 0x4E s x [⟨66, 4, cls⟩, ⟨80, 48, w.gen⟩, ⟨128, 16, w.rc.toNat⟩, ⟨144, 64, w.digest⟩, ⟨208, 48, b.digest⟩]
/-- The leaf classifies a mismatch (R400, R401): at once when both status granules have landed, else at the end of the 1 ms of R244. -/
def leafMmClassify (s gen : Nat) (l : Leaf) : Leaf :=
  let x := leafSlot l s
  match x.fired.find? (fun f => decide (f.gen = gen)) with
  | none => l
  | some f =>
    match f.other with
    | none => l
    | some o =>
      if f.classified then l
      else
        let st := fun (d : Nat) => statusFrom x gen f.word.rc d
        let l := if (st 0).isSome && (st 1).isSome then l else leafTo (f.word.fire + 1000000) l
        let x := leafSlot l s
        let r := mmClassOf (st 0) (st 1)
        let w := if f.word.domain = 0 then f.word else o
        let b := if f.word.domain = 0 then o else f.word
        let x1 := { x with fired := x.fired.map (fun h => if h.gen = gen then { h with classified := true } else h), mmGen := gen, mmClass := r.1,
                           mmAttrib := r.2.isSome, mmDomain := r.2.getD 0 }
        let l1 := leafEv { setSlot l s x1 with mmCount := ctrInc l.mmCount } .mmClassified s r.1
        if r.1 = 2 ∨ r.1 = 3 then leafSoloBoth l1 3 (mmNotice s x w b r.1) else l1

end Sys2Proof.Machine
end

