-- ==== Sys2Proof/Machine/LeafStart.lean ====
section
/-! DEFINITION. A leaf from reset to RUN, its security and its background work (R33, R34, R375, R377, R415 to R417, R435, R447 to R471,
R479 to R486, R562 to R573, R581). -/
namespace Sys2Proof.Machine

/-! ### Reset and its release -/
/-- What the flash and the fuses keep through a reset (R435): the flash, the history in it, and increments pending there (R482). -/
def leafKept (l : Leaf) : Leaf :=
  { history := { entries := l.history.entries }, start := { flash := l.start.flash, flashOk := l.start.flashOk },
    sec := { pendingBlow := l.sec.pendingBlow },
    fence := { pinReset := l.fence.pinReset, pinFence := l.fence.pinFence }, free := l.free }
/-- `leaf_rst_n` asserts (R435, R568): transmitters dark, and everything else lost; a test engine at work sees an abort (R580). -/
def leafReset (l : Leaf) : Leaf :=
  { leafKept l with inReset := true, dark := true, tests := { aborts := if l.tests.active then l.tests.aborts + 1 else l.tests.aborts } }
/-- The number of low-order bits blown (R572). -/
def lowOnes : Nat → Nat → Nat
  | 0, _ => 0
  | n + 1, v => if v % 2 = 1 then 1 + lowOnes n (v / 2) else 0
/-- Fuse word i; one not answered within 2 µs is zero (R572). -/
def fuseWord (ws : List (Option Word)) (i : Nat) : Nat := match ws[i]? with | some (some w) => w.toNat | _ => 0
/-- A 256-bit value of four fuse words, low word first, as 32 bytes. -/
def fuseKey (ws : List (Option Word)) (i : Nat) : Bytes := (List.range 4).flatMap (fun k => leBytes 8 (fuseWord ws (i + k)))
/-- Is a leaf serial one of the two that name no leaf (R34)? -/
def serialBad (n : Nat) : Bool := decide (n = 0) || decide (n = 2 ^ 64 - 1)
/-- Reset is released (R33, R34, R428, R456, R567, R568, R572): the fuses are read, `IMAGE` begins, and a fence input asserted now fences. -/
def leafResetEnd (ws : List (Option Word)) (l : Leaf) : Leaf :=
  let l1 : Leaf := { leafKept l with
    serial := fuseWord ws 0, hostType := fuseWord ws 1 % 2 ^ 32,
    sec := blowStart { pendingBlow := l.sec.pendingBlow, deviceKey := fuseKey ws 2, unwrapKey := fuseKey ws 6, ownerHash := fuseKey ws 10,
                       tamperCount := lowOnes 63 (fuseWord ws 14) },
    tdcs := [2, 3].foldl (fun t n => tabSet {} t n { stampMode := true, armed := true }) [] }
  let l2 := if serialBad l1.serial then leafEv l1 .serialInvalid 0 0 else l1
  let l3 := if l2.fence.pinReset then leafFence fcHostReset l2 else l2
  if l3.fence.pinFence then leafFence fcFencePin l3 else l3
/-- `hub_ref_clk` stops or the PLL unlocks (R567): the transmitters go dark until the next reset. -/
def leafClockFail (l : Leaf) : Leaf := { l with clkFail := true, dark := true }

/-! ### Start-up -/
/-- The leaf as it judges an image copy (R452). -/
def leafUnit (l : Leaf) : UnitId := { channel := false, role := 0, serial := l.serial, version := l.version }
/-- The inputs whose delay the factory block of a leaf holds (R107, R459): start and stop of TDC 0 and 1, and the capture inputs. DESIGN CHOICE
(assumption 75): the eight capture inputs are numbered from 8. -/
def leafDelayKeys : List Nat := [0, 1, 2, 3] ++ (List.range 8).map (fun k => 8 + k)
/-- What the factory block of a leaf must hold (R460): the entries whose absence is reported. -/
def leafFactoryWant : List (Nat × Nat) := leafDelayKeys.map (fun k => (0x82, k)) ++ [(0x86, 0), (0x86, 1), (0x88, 0)]
/-- The factory calibration reaches the ports, the TDCs and the capture inputs (R107, R459, R460). -/
def leafCalibration (l : Leaf) : Leaf :=
  let l1 := { l with port0 := facPort l.start 0 l.port0, port1 := facPort l.start 1 l.port1,
                     tdcs := (List.range 4).foldl (fun t n => tabUpd {} t n (facTdc l.start n)) l.tdcs,
                     capDelay := (List.range 8).foldl (fun t k => tabSet 0 t k (facDelay l.start (8 + k))) [] }
  let l2 := (List.range 4).foldl (fun a n => if (leafTdc a n).linStart || (leafTdc a n).linStop then leafEv a .tdcLinSuspect n 0 else a) l1
  leafRaiseAll l2 (facMissing l.start leafFactoryWant)
/-- A unit without keys under DEGRADE_CLOSED holds its ports FAULTED (R482). -/
def leafKeylessPorts (l : Leaf) : Leaf :=
  if l.sec.keyless && !l.sec.policyOpen && decide (l.start.phase ≠ 4) then
    leafPortDo 1 (portFault 1 causeKey) (leafPortDo 0 (portFault 0 causeKey) l)
  else l
/-- A blow that the start asked for comes before anything is unwrapped (R482, R573): with no answer its 40 ms run out. -/
def leafBlowWait (l0 : Leaf) : Leaf :=
  if l0.sec.blowing then
    let l := leafToClock (l0.sec.blowAt + blowTime) l0
    { l with sec := { l.sec with blowing := false } }
  else l0
/-- The `IMAGE` phase ends (R452, R455, R461, R474, R479): a copy is chosen and its sections take effect, or QUARANTINE. -/
def leafImage (l0 : Leaf) : Leaf :=
  if l0.start.phase ≠ 0 then l0
  else
    let l := leafBlowWait l0
    let r := startImage (leafUnit l) l.start l.sec
    let l1 := leafViolates 6 r.sigs (leafRaiseAll { l with start := r.start, sec := r.sec } r.evs)
    if r.start.phase = 4 then l1
    else
      leafKeylessPorts (leafCalibration
        { l1 with fence := { l1.fence with hbTimeout := l1.start.policy.hbTimeoutUs },
                  time := { l1.time with slewPpm := if l1.start.policy.slewRatePpm = 0 then l1.time.slewPpm else l1.start.policy.slewRatePpm } })
/-- A port's engine failed its vectors (R374, R375): parity fallback, and the failure in history. -/
def leafEngineFail (d : Nat) (l : Leaf) : Leaf :=
  let l1 := leafEv (setLeafPort { l with code := { l.code with selftestFail := true } } d { leafPort l d with fallback := true }) .codeFallback d 0
  leafError (unitPath 2 0x0A d) opStart l1
/-- A tap answered discovery (R101, R456, R417): present, unless the disabled-unit map names it. -/
def leafTapFound (t : Nat) (l : Leaf) : Leaf :=
  let bad := isDisabled l.history (unitPath 2 0x21 t)
  setTap l t { leafTap l t with present := true, locked := !bad, fault := bad }
/-- The self-tests are complete (R375, R456): failures leave service, the taps are known, and RESTORE begins. -/
def leafSelfTest (r : SelfTest) (l : Leaf) : Leaf :=
  if l.start.phase ≠ 1 then l
  else
    let l1 := (r.ports.filter (fun d => decide (d < 2) && !isDisabled l.history (unitPath 2 0x0A d))).foldl (fun a d => leafEngineFail d a) l
    let l2 := if r.encoder then
        leafError (unitPath 2 0x20 0) opStart (leafEv { l1 with encoderBad := true, code := { l1.code with selftestFail := true } } .codeSelftestFail 0 0)
      else l1
    let l3 := (onesOf 64 r.taps).foldl (fun a t => leafTapFound t a) { l2 with tapsSeen := popcount 64 r.taps }
    { l3 with start := { l3.start with phase := 2 } }
/-- RESTORE ends (R414, R417, R462, R464): the user block is loaded, condemned units stay out, and the unit runs. -/
def leafRestore (l : Leaf) : Leaf :=
  if l.start.phase ≠ 2 then l
  else
    let r := loadUser l.start
    let s := { r.1 with phase := 3 }
    let l1 := { l with start := s, port0 := facPort s 0 l.port0, port1 := facPort s 1 l.port1 }
    let l2 := if r.2 then leafEv l1 .userBlockBad 0 0 else l1
    (disabledUnits l2.history).foldl (fun a p => leafCondemn p a) l2
/-- A write of `CFG_LOCK` (R457). -/
def leafCfgLock (l : Leaf) : Leaf := { l with start := { l.start with cfgLocked := true } }
/-- A due save of the user block (R462, R463): an hourly one carries the fibre delays measured. -/
def leafUserSave (hourly : Bool) (l : Leaf) : Leaf :=
  let e := fun (d : Nat) => let p := leafPort l d
    if hourly && (!p.cal.resA.isEmpty || !p.cal.resB.isEmpty) then
      [({ typ := 3, key := d, data := leBytes 8 p.delayA ++ leBytes 8 p.delayB } : CalEntry)] else []
  { l with start := userSave (userDue (e 0 ++ e 1) l.start) }
/-- The save row (R462, R463): an hourly save comes an hour after the last. -/
def leafSaveRow (hourly : Bool) (l0 : Leaf) : Leaf :=
  if hourly then
    let l := leafToClock (l0.start.hourAt + nsHour) l0
    leafUserSave true { l with start := { l.start with hourAt := l.time.clock } }
  else leafUserSave false l0

/-! ### RESTORE_FACTORY (R465, R466) -/
/-- Is any slot not CLOSED? -/
def leafOpen (l : Leaf) : Bool := (List.range 32).any (fun s => slotOpen (leafSlot l s))
/-- `ARM` (R465): a one-time code, good for 1 s. -/
def leafArm (l : Leaf) : Leaf :=
  if l.sec.locked then { l with start := { l.start with refusal := 1 } }
  else { l with start := { l.start with armed := some (Config.free .armCode l.free % 65536), armUntil := l.time.clock + nsSec, refusal := 0 }, free := l.free + 1 }
/-- The refusal of a `CONFIRM` (R465): 0 none, 1 LOCKED_BY_ALARM, 2 NOT_ARMED, 3 SHEAVES_OPEN. -/
def leafConfirmRefusal (code : Option Nat) (force : Bool) (l : Leaf) : Nat :=
  if l.sec.locked then 1
  else
    match l.start.armed with
    | none => 2
    | some c => if l.start.armUntil < l.time.clock ∨ (code ≠ none ∧ code ≠ some c) then 2 else if !force && leafOpen l then 3 else 0
/-- `CONFIRM` (R465, R466): the user block is erased, or the refusal is kept. -/
def leafConfirm (code : Option Nat) (force : Bool) (l : Leaf) : Leaf :=
  let c := leafConfirmRefusal code force l
  if c = 0 then leafEv { l with start := { userTombstone l.start with refusal := 0 } } .factoryRestored 0 0
  else { l with start := { l.start with refusal := c } }
/-- The 1 s of an `ARM` lapses (R465). -/
def leafArmExpire (l : Leaf) : Leaf :=
  if l.start.armed.isNone then l
  else let l1 := leafToClock (l.start.armUntil + 1) l; { l1 with start := { l1.start with armed := none } }
/-- `RESTORE_CTRL` (R470). -/
def restoreCtrlWord (s : Startup) : Word :=
  layW [⟨2, 1, b2n s.restoreForce⟩, ⟨3, 1, b2n s.armed.isSome⟩, ⟨16, 16, s.armed.getD 0⟩, ⟨32, 8, s.refusal⟩]

/-! ### Debug and alarms (R481, R484) -/
/-- A debug request (R484); a standing LOCK refuses it (R481). -/
def leafDbgRequest (l : Leaf) : Leaf :=
  if l.sec.locked then l
  else { l with sec := debugRequest l.time.clock (Config.free .challenge l.free) l.sec, free := l.free + 1 }
/-- A debug response (R483, R484). -/
def leafDbgResponse (dur : Nat) (sig : Bytes) (l : Leaf) : Leaf :=
  if l.sec.locked then l
  else
    let r := debugResponse l.serial l.time.clock dur sig l.sec
    let l1 := leafRaiseAll { l with sec := r.1 } r.2.1
    if r.2.2 then leafViolate 8 l1 else l1
/-- `DBG_SUBMIT`: the response stands in `DBG_RESPONSE` (R485). -/
def leafDbgSubmit (l : Leaf) : Leaf :=
  let ws := (List.range 9).map (fun i => tabGet 0#64 l.sec.response i)
  leafDbgResponse (wf (ws.headD 0#64) 8 0) ((ws.drop 1).flatMap (fun w => leBytes 8 w.toNat)) l
/-- Debug-unlocked state ends: `DEBUG_LOCK`, or its time is up. -/
def leafDbgEnd (l : Leaf) : Leaf :=
  let r := debugEnd l.sec
  leafRaiseAll { l with sec := r.1 } r.2
/-- Debug-unlocked state has lasted its duration (R484). -/
def leafDbgExpire (l : Leaf) : Leaf := if l.sec.debugOn then leafDbgEnd (leafToClock l.sec.debugUntil l) else l
/-- A challenge is older than 10 s (R484). -/
def leafChallengeOld (l : Leaf) : Leaf :=
  if l.sec.challengeValid then
    let l1 := leafToClock (l.sec.challengeAt + 10 * nsSec + 1) l
    { l1 with sec := { l1.sec with challengeValid := false } }
  else l
/-- `ALARM_CLEAR` (R481): a good owner's signature lowers the LOCK. -/
def leafAlarmClear (id : Nat) (sig : Bytes) (l : Leaf) : Leaf × Bool :=
  if alarmClearOk id l.serial sig l.sec then
    (if l.sec.locked then leafEv { l with sec := { l.sec with locked := false } } .alarmCleared l.sec.lastSource l.sec.lastLevel else l, true)
  else (l, false)
/-- A fuse blow is answered (R482, R573). -/
def leafBlowDone (ok : Bool) (l : Leaf) : Leaf := { l with sec := blowDone l.time.clock ok l.sec }

/-! ### History, gleaner, sensors -/
/-- An entry's error-free period ends (R415). -/
def leafHistDecay (i : Nat) (l0 : Leaf) : Leaf :=
  let e := histAt 512 i l0.history
  if e.cls ≠ 1 ∧ e.cls ≠ 2 then l0
  else
    let l := leafTo (histEnd e) l0
    let r := histDecay 512 i l.history
    leafRaiseAll { l with history := r.1 } r.2
/-- A background test of a unit falls due (R416): the clock runs to it, and it is marked. -/
def leafTestAt (path base : Nat) (l0 : Leaf) : Leaf :=
  let l := leafToClock (testDue l0.history path base) l0
  { l with history := testMark path l.time.clock l.history }
/-- A flash pass falls due (R377, R416), `SCRUB_FLASH_MIN` after the last one did, an eighth of it while the flash is SUSPECT. -/
def leafPassDue (l0 : Leaf) : Leaf :=
  let l := leafTestAt (unitPath 2 0x0B 0) (l0.start.policy.scrubFlashMin * nsMin) l0
  let r := flashPassDue l.start
  if r.2 then leafEv { l with start := r.1 } .scrubLate 2 0 else { l with start := r.1 }
/-- The flash pass ends (R377). -/
def leafPassEnd (l : Leaf) : Leaf :=
  let r := flashPassEnd l.serial (leafNs l) l.start
  leafRaiseAll { l with start := r.1 } r.2
/-- A leak of the buckets of the two ports and of the flash (R376), `BUCKET_LEAK_MIN` after the last. -/
def leafLeak (l0 : Leaf) : Leaf :=
  let l := leafToClock (l0.start.leakAt + l0.start.policy.bucketLeakMin * nsMin) l0
  { l with start := { l.start with leakAt := l.time.clock }, port0 := { l.port0 with bucket := bucketLeak l.port0.bucket }, port1 := { l.port1 with bucket := bucketLeak l.port1.bucket },
           code := { l.code with flashBucket := bucketLeak l.code.flashBucket } }
/-- An idle port engine runs the vectors again when its hour is over (R416): a failure is entered in history. -/
def leafVectors (d : Nat) (pass : Bool) (l0 : Leaf) : Leaf :=
  let l := leafTestAt (unitPath 2 0x0A d) nsHour l0
  if pass then l else leafError (unitPath 2 0x0A d) opIdle l
/-- A sensor update (R581). -/
def leafSensor (i : Nat) (temp : Int) (mv vmin : Nat) (l : Leaf) : Leaf :=
  { l with sensors := tabSet {} l.sensors i (readSensor l.start i temp mv vmin l.time.clock) }
/-- A sensor has not been updated for 10 ms (R581). -/
def leafSensorStale (i : Nat) (l0 : Leaf) : Leaf :=
  let x := tabGet {} l0.sensors i
  if !x.present then l0
  else
    let l := leafToClock (x.at_ + 10000000) l0
    { l with sensors := tabUpd {} l.sensors i (fun y => { y with stale := true }) }
/-- What reports carry of temperature and voltage (R413, R581): 0x8000 and 0xFFFF when sensor 0 is absent or stale. -/
def leafTempVolt (l : Leaf) : Nat × Nat :=
  let x := tabGet ({} : Sensor) l.sensors 0
  if sensorFresh l.time.clock x then (ofSigned 16 x.temp, x.mv % 65536) else (0x8000, 0xFFFF)
/-- The least supply margin in mV over the sensors that are not stale (R581). -/
def leafSupply (l : Leaf) : Option Int :=
  (l.sensors.filter (fun x => sensorFresh l.time.clock x.2)).foldl (fun a x =>
    let m : Int := (x.2.mv : Int) - x.2.vmin
    match a with | none => some m | some b => some (min b m)) none
/-- The least replica margin over the taps, with its tap (R442). -/
def leafMargin (l : Leaf) : Option (Nat × Nat) :=
  (l.taps.filter (fun x => x.2.present)).foldl (fun a x =>
    match a with | none => some (x.2.marginMin, x.1) | some b => if x.2.marginMin < b.1 then some (x.2.marginMin, x.1) else some b) none
/-- The hourly `MARGIN_REPORT` of port d (R443). -/
def marginReport (l : Leaf) (d hour : Nat) : Gran :=
  let p := leafPort l d
  let m := (leafMargin l).getD (0xFFFF, 0)
  let h := hourMeans p
  lay [⟨0, 8, 0x52⟩, ⟨16, 64, hour⟩, ⟨80, 16, h.1⟩, ⟨96, 16, h.2.1⟩, ⟨112, 16, h.2.2.1⟩, ⟨128, 16, h.2.2.2⟩,
       ⟨144, 16, m.1⟩, ⟨160, 6, m.2⟩, ⟨176, 16, match leafSupply l with | some v => satN 65535 v.toNat | none => 0⟩]
/-- At a whole hour the leaf reports on each port (R443). -/
def leafMarginReports (os : List Optics) (l0 : Leaf) : Leaf :=
  let l := os.foldl (fun (a : Leaf) o => if o.port < 2 then setLeafPort a o.port (portOptics o (leafPort a o.port)) else a) (leafToWhole nsHour l0)
  let h := leafNs l / nsHour * nsHour
  let l1 := leafSolo (leafSolo l 0 3 (marginReport l 0 h)) 1 3 (marginReport l 1 h)
  { l1 with port0 := hourBegin l1.port0, port1 := hourBegin l1.port1 }
/-- A `FORECAST` packet from domain d (R444 to R446): the word shows it; quantities newly forecast and quantities that clear are raised, with
the mask as it now is (R521). -/
def leafForecast (d : Nat) (g : Gran) (l : Leaf) : Leaf :=
  let mask := gf g 13 8
  let old := (leafPort l d).forecast % 64
  let days := if mask = 0 then 0xFFFF else gf g 31 16
  let l1 := setLeafPort l d { leafPort l d with forecast := mask + days * 65536 }
  let new := Nat.land mask (63 - old)
  let gone := Nat.land old (63 - mask)
  let l2 := if new = 0 then l1 else leafEv l1 .forecastFail d mask
  if gone = 0 then l2 else leafEv l2 .forecastClear d mask

end Sys2Proof.Machine
end

