-- ==== Sys2Proof/Machine/LeafTests.lean ====
section
/-! DEFINITION. On-demand tests of the host die at the leaf (R418 to R422, R580). -/
namespace Sys2Proof.Machine

/-- Outcomes in `TEST_RESULT` (R422). -/
def testPass : Nat := 1
def testFail : Nat := 2
def testAborted : Nat := 3
def testRefused : Nat := 4
/-- Reasons of a refused order (R419), as the leaf reports them: the status codes of R530. -/
def refPackMissing : Nat := 0x010C
def refHostType : Nat := 0x010D
def refTestBusy : Nat := 0x010B

/-- The items of a pack (R418). -/
def packItems (b : Bytes) : List PackItem :=
  (List.range (satN 4096 (bf b 0x0E 2))).map (fun i =>
    let e := (b.drop (64 + 48 * i)).take 48
    { site := bf e 0 5, timeout := bf e 5 2, stim := (b.drop (bf e 8 4)).take (bf e 12 4), expect := granOf (e.drop 16) })
/-- A pack's fields (R418). -/
def packMagic (b : Bytes) : Nat := bf b 0 4
def packId (b : Bytes) : Nat := bf b 4 4
def packHostType (b : Bytes) : Nat := bf b 0x10 4
/-- The leaf's report of a test to its barns (R420): command ID, pack, outcome, reason, items run and failed. -/
def testReport (l : Leaf) (id pack outcome reason run failed : Nat) : Gran :=
  lay [⟨0, 8, Config.pktType .testReport⟩, ⟨16, 64, id⟩, ⟨80, 32, pack⟩, ⟨112, 8, outcome⟩, ⟨120, 16, reason⟩, ⟨136, 16, run⟩,
       ⟨152, 16, failed⟩, ⟨168, 64, l.serial⟩]
/-- The operation of a pack's item (R412). -/
def itemOp (ix : Nat) : Nat := 0x6000 + ix % 4096
/-- A `TEST_ITEM_FAIL` report of a failing site (R413, R420): site, pod time, temperature and voltage, item, expected and observed digests. The pod time
stays open until it is sent. -/
def itemReport (l : Leaf) (it : PackItem) (ix : Nat) (got : Option Gran) : List Granule :=
  let tv := leafTempVolt l
  [plain (lay [⟨0, 8, Config.pktType .testReport⟩, ⟨8, 8, 1⟩, ⟨16, 64, unitPath 3 0x30 0 + it.site⟩, ⟨144, 16, tv.1⟩,
               ⟨160, 16, tv.2⟩, ⟨176, 16, itemOp ix⟩]),
   plain (lay [⟨0, 128, it.expect.toNat⟩, ⟨128, 128, (got.getD 0#256).toNat⟩])]
/-- Send it with its pod time, or hold it until pod time is VALID (R413). -/
def leafItemReport (gs : List Granule) (l : Leaf) : Leaf :=
  if l.time.valid then leafReport l (stampItem (leafNs l) gs) else { l with tests := { l.tests with unsent := l.tests.unsent ++ [gs] } }
/-- Drive the next item's stimulus into the test engine (R580). -/
def testDrive (l : Leaf) : Leaf :=
  match l.tests.order.bind (fun o => o.items[l.tests.item]?) with
  | none => l
  | some it => { l with tests := { l.tests with itemRuns := true, itemEdge := l.time.edges, driven := l.tests.driven ++ [(it.site, it.stim)] } }
/-- May the leaf start this order now (R419)? -/
def testMay (o : TestOrder) (l : Leaf) : Bool := l.fence.fenced || (l.tests.allow && !o.fence)
/-- A test begins. -/
def testStart (o : TestOrder) (l : Leaf) : Leaf :=
  testDrive { l with tests := { l.tests with active := true, packId := o.pack, run := 0, failed := 0, firstFail := 0, waiting := none,
                                             order := some o, item := 0, rep := 0, sites := [] } }
/-- An order is refused (R419): reported, and shown unless a test runs. -/
def testRefuse (o : TestOrder) (reason : Nat) (l : Leaf) : Leaf :=
  let l1 := if l.tests.active then l else { l with tests := { l.tests with outcome := testRefused } }
  leafReport { l1 with tests := { l1.tests with doneIds := o.id :: l1.tests.doneIds } } [plain (testReport l1 o.id o.pack testRefused reason 0 0)]
/-- Why a leaf refuses a pack as it was streamed (R419), 0 if it does not: it is not the pack ordered, or has no item (R418), or another die type's, or
the leaf's own type is not fused. -/
def packReason (pack : Nat) (body : Bytes) (l : Leaf) : Nat :=
  if packMagic body ≠ 0x4B435054 ∨ packId body ≠ pack ∨ (packItems body).isEmpty then refPackMissing
  else if l.hostType = 0 ∨ packHostType body ≠ l.hostType then refHostType
  else 0
/-- An order is taken up (R419): it is refused, starts, or waits. -/
def testTake (o : TestOrder) (reason : Nat) (l : Leaf) : Leaf :=
  if reason ≠ 0 then testRefuse o reason l
  else if l.tests.active || l.tests.waiting.isSome then testRefuse o refTestBusy l
  else if testMay o l then testStart o l
  else { l with tests := { l.tests with waiting := some o, waitEdge := l.time.edges } }
/-- The orders of a period go one after another (R421): the next is taken up when no test runs or waits. -/
def testsGo : Nat → Leaf → Leaf
  | 0, l => l
  | n + 1, l =>
    match l.tests.queue with
    | [] => l
    | (o, r) :: q => if l.tests.active || l.tests.waiting.isSome then l else testsGo n (testTake o r { l with tests := { l.tests with queue := q } })
/-- After a test, or a wait for one. -/
def testsNext (l : Leaf) : Leaf := testsGo l.tests.queue.length l
/-- A test order reaches the leaf with its pack as streamed (R418, R419): it runs once by command ID. -/
def leafTestRequest (id pack reps : Nat) (fence : Bool) (body : Bytes) (l : Leaf) : Leaf :=
  let o : TestOrder := { id := id, pack := pack, reps := reps, fence := fence, items := packItems body }
  if l.tests.doneIds.contains id ∨ l.tests.order.map TestOrder.id = some id ∧ l.tests.active ∨ l.tests.waiting.map TestOrder.id = some id then l
  else testTake o (packReason pack body l) l
/-- A waiting order may start when the host is fenced or allows tests (R419). -/
def testRetry (l : Leaf) : Leaf :=
  match l.tests.waiting with
  | some o => if testMay o l then testStart o l else l
  | none => l
/-- A row that may fence the host: an order that waits for a fence then starts (R419). -/
def fencedRow (f : Leaf → Leaf) (l : Leaf) : Leaf := testRetry (f l)
/-- 60 s of waiting have passed (R419). -/
def leafTestBusy (l0 : Leaf) : Leaf :=
  let l := if l0.tests.waiting.isSome then leafToEdge (l0.tests.waitEdge + 60 * edgesPerSec) l0 else l0
  match l.tests.waiting with
  | some o => testsNext (testRefuse o refTestBusy { l with tests := { l.tests with waiting := none } })
  | none => l
/-- The test ends (R420): its outcome, event and report. -/
def testEnd (outcome : Nat) (l : Leaf) : Leaf :=
  match l.tests.order with
  | none => l
  | some o =>
    let l1 := { l with tests := { l.tests with active := false, itemRuns := false, outcome := outcome, doneIds := o.id :: l.tests.doneIds } }
    testsNext (leafReport (leafEv l1 (if outcome = testAborted then .testAborted else .testDone) 0 outcome) [plain (testReport l1 o.id o.pack outcome 0 l1.tests.run l1.tests.failed)])
/-- The item running ends with its digest, or with none (R415, R420): a failing site counts one error per request. -/
def testItem (got : Option Gran) (l : Leaf) : Leaf :=
  match l.tests.order with
  | none => l
  | some o =>
    match o.items[l.tests.item]? with
    | none => testEnd testPass l
    | some it =>
      let ok := decide (got = some it.expect)
      let t := l.tests
      let t1 := { t with itemRuns := false, run := satN 65535 (t.run + 1), failed := if ok then t.failed else satN 65535 (t.failed + 1),
                         firstFail := if !ok && decide (t.failed = 0) then t.item else t.firstFail,
                         aborts := if got.isNone then t.aborts + 1 else t.aborts,
                         sites := if ok || t.sites.contains it.site then t.sites else it.site :: t.sites }
      let l1 := { l with tests := t1 }
      let l2 := if ok || t.sites.contains it.site then l1
        else leafError (unitPath 3 0x30 0 + it.site) (itemOp t.item) (leafItemReport (itemReport l1 it t.item got) l1)
      if t.item + 1 < o.items.length then testDrive { l2 with tests := { l2.tests with item := t.item + 1 } }
      else if t.rep + 1 < o.reps then testDrive { l2 with tests := { l2.tests with item := 0, rep := t.rep + 1 } }
      else testEnd (if l2.tests.failed = 0 then testPass else testFail) l2
/-- `tst_done` with a digest (R420, R580): one with no item running is ignored. -/
def leafTestDigest (g : Gran) (l : Leaf) : Leaf := if l.tests.active && l.tests.itemRuns then testItem (some g) l else l
/-- No digest within `TIMEOUT_MS` (R420, R580): `tst_abort`, and the item fails. -/
def leafTestTimeout (l : Leaf) : Leaf :=
  if l.tests.active && l.tests.itemRuns then
    match l.tests.order.bind (fun o => o.items[l.tests.item]?) with
    | some it => testItem none (leafToEdge (l.tests.itemEdge + edgeAt (it.timeout * 1000000)) l)
    | none => l
  else l
/-- A running test is aborted (R422, R580). -/
def leafTestAbort (l : Leaf) : Leaf :=
  if l.tests.active then testEnd testAborted { l with tests := { l.tests with aborts := l.tests.aborts + 1 } } else l
/-- Does a pack test a SUSPECT host-die site (R416)? -/
def packSuspect (l : Leaf) (body : Bytes) : Bool := (packItems body).any (fun it => isSuspect l.history (unitPath 3 0x30 0 + it.site))
/-- Is some host-die site SUSPECT? -/
def hostSuspect (l : Leaf) : Bool :=
  let bad := fun (e : HistEntry) => decide (e.cls = 2) && decide (bitsOf e.path 63 52 = 0x330)
  l.history.entries.any (fun x => bad x.2) || l.history.vol.any bad
/-- `TEST_PERIOD_H` elapses (R421): the leaf runs the image's listed packs, each as an order of its own, streamed by its barn; an eighth of it elapses
while a site is SUSPECT: those of them that test such a site. Orders of the last period still to run are not doubled. -/
def leafTestPeriod (packs : List (Nat × Bytes)) (l0 : Leaf) : Leaf :=
  if l0.start.policy.testPeriodH = 0 then l0 else
  let t := edgeAt (l0.start.policy.testPeriodH * nsHour)
  let full := l0.tests.periodEdge + t
  let l1 := leafToEdge (if hostSuspect l0 then min full (l0.tests.eighthEdge + t / 8) else full) l0
  let all := decide (full ≤ l1.time.edges)
  let l := { l1 with tests := { l1.tests with periodEdge := if all then l1.time.edges else l1.tests.periodEdge, eighthEdge := l1.time.edges } }
  let new := (packs.filter (fun p => l.start.testPacks.contains p.1 && (all || packSuspect l p.2) && !l.tests.queue.any (fun q => decide (q.1.pack = p.1)))).map
    (fun p => (({ id := 2 ^ 64 + leafNs l * 65536 + p.1, pack := p.1, reps := 1, fence := false, items := packItems p.2 } : TestOrder), packReason p.1 p.2 l))
  testsNext { l with tests := { l.tests with queue := l.tests.queue ++ new } }

end Sys2Proof.Machine
end

