-- ==== Sys2Proof/Machine/LeafRegs.lean ====
section
/-! DEFINITION. The leaf's register port (chapter Leaf Register Map): every register, window and aperture by offset, reads with what they
clear, writes with what they do, the flash window and the summary block. -/
namespace Sys2Proof.Machine

/-! ### Words laid out elsewhere -/
/-- `ID_VERSION` and `ID_CAPS` (R492). -/
def idVersionWord (l : Leaf) : Word := layW [⟨0, 8, l.version⟩, ⟨8, 4, l.start.semVersion⟩, ⟨16, 32, l.hostType⟩, ⟨48, 8, 1⟩]
def idCapsWord (l : Leaf) : Word := layW [⟨0, 7, l.tapsSeen⟩, ⟨8, 8, 4⟩, ⟨16, 8, 0x20⟩, ⟨24, 8, 4⟩, ⟨32, 8, 8⟩, ⟨40, 8, 8⟩]
/-- A domain as `DOM_OFFSET_d` shows it (R184): I in place of f̂ for the selected one. -/
def domShown (selected : Bool) (d : DomLoop) : DomLoop := { d with freq := if selected then d.integ else d.freq }
/-- `CODE_STATUS` at a leaf (R379). -/
def codeStatusWord (l : Leaf) : Word := layW [⟨0, 1, b2n l.port0.fallback⟩, ⟨1, 1, b2n l.port1.fallback⟩, ⟨16, 1, b2n l.code.selftestFail⟩]
/-- `TEST_CTRL`, `TEST_RESULT` (R422). -/
def testCtrlWord (t : Tests) : Word := layW [⟨0, 1, b2n t.allow⟩, ⟨1, 1, b2n t.active⟩, ⟨8, 32, t.packId⟩]
def testResultWord (t : Tests) : Word := layW [⟨0, 16, t.run⟩, ⟨16, 16, t.failed⟩, ⟨32, 16, t.firstFail⟩, ⟨48, 8, t.outcome⟩]
/-- `CAPP_STATUS`, `REPLAY_STATUS` (R502). -/
def cappStatusWord (l : Leaf) : Word :=
  let c := l.capp
  layW [⟨0, 1, b2n (!l.fence.fenced && decide (c.open_.length < 16) && !c.throttled &&
          (List.range 32).any (fun s => sheafHeld (leafSlot l s)))⟩, ⟨1, 1, b2n c.throttled⟩, ⟨2, 5, c.open_.length⟩,
        ⟨8, 8, c.lastRefusal⟩, ⟨16, 24, c.bucket⟩]
def replayStatusWord (c : CapPort) : Word :=
  layW [⟨0, 1, b2n c.active⟩, ⟨1, 1, c.domain⟩, ⟨2, 1, b2n c.gapSeen⟩, ⟨3, 1, b2n c.incompleteSeen⟩, ⟨8, 56, satN (2 ^ 56 - 1) c.delivered⟩]
/-- `SLOT_STATUS_s`, `GEN_STATUS_s`, `LAUNCH_STATUS_s`, `FAIL_INFO_s`, `MM_INFO_s`, `ARRIVE_INFO_s` (R260, R422, R508). -/
def slotStatusWord (force : Bool) (x : Slot) : Word :=
  layW [⟨0, 3, x.wState⟩, ⟨3, 3, x.bState⟩, ⟨6, 3, x.member⟩, ⟨9, 1, b2n x.isLocal⟩, ⟨10, 1, b2n (x.strict || (slotOpen x && effStrict force x.program))⟩,
        ⟨16, 8, x.lastOutcome⟩, ⟨24, 8, x.closeCause⟩, ⟨32, 16, x.resumeCount.toNat⟩, ⟨48, 2, x.level⟩]
def genStatusWord (x : Slot) : Word := layW [⟨0, 48, x.nextGen⟩, ⟨48, 3, inFlight x⟩]
def launchStatusWord (x : Slot) : Word :=
  layW [⟨0, 48, x.lGen⟩, ⟨48, 4, x.lBranch⟩, ⟨52, 1, x.lFrom⟩, ⟨53, 1, b2n x.lBoth⟩, ⟨54, 1, b2n x.lMismatch⟩, ⟨55, 1, b2n x.lSkipped⟩,
        ⟨56, 1, b2n x.lTapFault⟩, ⟨57, 1, b2n x.lPartial⟩, ⟨58, 1, b2n x.lForced⟩, ⟨59, 1, b2n x.lFreq⟩, ⟨60, 1, b2n x.lUnaligned⟩,
        ⟨61, 1, b2n x.lReady⟩, ⟨62, 1, b2n x.lFailed⟩]
def failInfoWord (x : Slot) : Word := layW [⟨0, 8, x.failCause⟩]
def mmInfoWord (x : Slot) : Word := layW [⟨0, 48, x.mmGen⟩, ⟨48, 3, x.mmClass⟩, ⟨51, 1, b2n x.mmAttrib⟩, ⟨52, 1, x.mmDomain⟩]
def arriveInfoWord (x : Slot) : Word := layW [⟨0, 48, x.arriveGen⟩, ⟨48, 8, x.arriveOutcome⟩]
/-- `INT_CTRL` (R522). -/
def intCtrlWord (i : Ints) : Word := layW [⟨0, 1, b2n i.globalEn⟩, ⟨1, 1, b2n i.ovf⟩, ⟨2, 7, i.fifo.length⟩]
/-- `SUM_CTRL` (R518). -/
def sumCtrlWord (b : SumBlock) : Word := layW [⟨1, 1, b2n b.busy⟩, ⟨2, 1, b2n b.valid⟩, ⟨16, 16, b.seq⟩]
/-- Word i of 256-bit data, low word first. -/
def granWord (g : Gran) (i : Nat) : Word := BitVec.ofNat 64 (bitsOf g.toNat (64 * i + 63) (64 * i))
/-- A word of a byte window. -/
def byteWord (t : Tab Byte) (off : Nat) : Word := BitVec.ofNat 64 (leNat (tabReadList 0#8 t off 8))

/-! ### Result apertures (R512, R513) -/
/-- Aperture a. -/
def leafApp (l : Leaf) (a : Nat) : Aperture := tabGet {} l.apertures a
/-- Is the bound generation no longer held? -/
def appStale (l : Leaf) (p : Aperture) : Bool := !p.none_ && !((leafSlot l p.slot).fired.any (fun f => decide (f.gen = p.gen)))
/-- Is the bound result still to land? -/
def appPending (l : Leaf) (p : Aperture) : Bool :=
  match (leafSlot l p.slot).fired.find? (fun f => decide (f.gen = p.gen)) with
  | some f => !p.none_ && (exposed (leafSlot l p.slot) f).isNone
  | none => false
/-- `RES_SEL_a`. -/
def resSelWord (l : Leaf) (a : Nat) : Word :=
  let p := leafApp l a
  layW [⟨0, 5, p.slot⟩, ⟨5, 1, b2n p.prev⟩, ⟨8, 48, p.gen⟩, ⟨56, 1, b2n p.none_⟩, ⟨57, 1, b2n (appPending l p)⟩, ⟨58, 1, b2n (appStale l p)⟩]
/-- A write of `RES_SEL_a` (R513): it binds the generation that `SLOT` and `PREV` name now. -/
def leafResSel (a : Nat) (w : Word) (l : Leaf) : Leaf :=
  let fs := (leafSlot l (wf w 4 0)).fired
  let f := if wbit w 5 then (if 2 ≤ fs.length then fs[fs.length - 2]? else none) else fs.getLast?
  let p : Aperture := match f with
    | some x => { slot := wf w 4 0, prev := wbit w 5, gen := x.gen, none_ := false }
    | none => { slot := wf w 4 0, prev := wbit w 5, gen := 0, none_ := true }
  { l with apertures := tabSet {} l.apertures a p }
/-- A read through aperture a at a byte offset (R513). -/
def appRead (l : Leaf) (a off : Nat) : Word × Nat :=
  let p := leafApp l a
  let x := leafSlot l p.slot
  let i := off / 32
  let k := off % 32 / 8
  if p.none_ || appStale l p then (0#64, respError)
  else
    match x.fired.find? (fun f => decide (f.gen = p.gen)) with
    | none => (0#64, respError)
    | some f =>
      if i < 255 ∧ f.word.count ≤ i then (0#64, respOk)
      else
        match (exposed x f).bind (fun r => resWhole r f.word.count) with
        | none => (0#64, if f.missing then respError else respPending)
        | some (gs, st) =>
          let g := if i = 255 then st else gs.getD i {}
          (granWord g.data k, if g.poison then respPoison else respOk)

/-! ### Event counters by offset (R70, R520) -/
/-- The counter at an offset of the port block. -/
def portCtrAt (p : Port) (i : Nat) : Ctr := (portCounters p).getD i {}
/-- A port with its i-th counter cleared. -/
def portCtrClear (p : Port) (i : Nat) : Port :=
  match i with
  | 0 => { p with crcErr := {} }
  | 1 => { p with corrected := {} }
  | 2 => { p with retry := {} }
  | 3 => { p with downCount := {} }
  | 4 => { p with blockDrop := {} }
  | 5 => { p with tagFail := {} }
  | 6 => { p with badType := {} }
  | _ => { p with turnForced := {} }
/-- The event counter at an offset of the global, time, port or trigger block, if one stands there. -/
def leafCtr (l : Leaf) (off : Nat) : Option Ctr :=
  if 0x1200 ≤ off ∧ off < 0x1280 then
    (match off % 32 with
     | 8 => some (leafTdc l ((off - 0x1200) / 32)).busyCtr
     | 16 => some (leafTdc l ((off - 0x1200) / 32)).strayCtr
     | 24 => some (leafTdc l ((off - 0x1200) / 32)).ovfCtr
     | _ => none)
  else if 0x2040 ≤ off ∧ off < 0x2080 then some (portCtrAt l.port0 ((off - 0x2040) / 8))
  else if 0x2140 ≤ off ∧ off < 0x2180 then some (portCtrAt l.port1 ((off - 0x2140) / 8))
  else
    match off with
    | 0x0070 => some l.lockedWrite
    | 0x0078 => some l.slotCmdBad
    | 0x00B0 => some l.ints.lost
    | 0x1118 => some l.domW.coastCtr
    | 0x1158 => some l.domB.coastCtr
    | 0x1188 => some l.tsel.switches
    | 0x2220 => some l.code.corrected
    | 0x2228 => some l.code.uncorrectable
    | 0x2230 => some l.code.misdirected
    | 0x2238 => some l.code.poisonSeen
    | 0x2240 => some l.code.parityErr
    | 0x2248 => some l.code.scrubRace
    | 0x2328 => some l.fence.count
    | 0x2330 => some l.fence.refusals
    | 0x2338 => some l.fence.unfenceRefused
    | 0x2340 => some l.fence.hbBad
    | 0x2418 => some l.mmCount
    | 0x3158 => some l.caps.overrun
    | 0x3160 => some l.trigLate
    | 0x3168 => some l.trigDropped
    | 0x3208 => some l.capp.throttledCtr
    | 0x3210 => some l.capp.refusedCtr
    | _ => none
/-- The read of an event counter clears it (R70). -/
def leafCtrClear (l : Leaf) (off : Nat) : Leaf :=
  if 0x1200 ≤ off ∧ off < 0x1280 then
    let n := (off - 0x1200) / 32
    (match off % 32 with
     | 8 => setLeafTdc l n { leafTdc l n with busyCtr := {} }
     | 16 => setLeafTdc l n { leafTdc l n with strayCtr := {} }
     | 24 => setLeafTdc l n { leafTdc l n with ovfCtr := {} }
     | _ => l)
  else if 0x2040 ≤ off ∧ off < 0x2080 then { l with port0 := portCtrClear l.port0 ((off - 0x2040) / 8) }
  else if 0x2140 ≤ off ∧ off < 0x2180 then { l with port1 := portCtrClear l.port1 ((off - 0x2140) / 8) }
  else
    match off with
    | 0x0070 => { l with lockedWrite := {} }
    | 0x0078 => { l with slotCmdBad := {} }
    | 0x00B0 => { l with ints := { l.ints with lost := {} } }
    | 0x1118 => { l with domW := { l.domW with coastCtr := {} } }
    | 0x1158 => { l with domB := { l.domB with coastCtr := {} } }
    | 0x1188 => { l with tsel := { l.tsel with switches := {} } }
    | 0x2220 => { l with code := { l.code with corrected := {} } }
    | 0x2228 => { l with code := { l.code with uncorrectable := {} } }
    | 0x2230 => { l with code := { l.code with misdirected := {} } }
    | 0x2238 => { l with code := { l.code with poisonSeen := {} } }
    | 0x2240 => { l with code := { l.code with parityErr := {} } }
    | 0x2248 => { l with code := { l.code with scrubRace := {} } }
    | 0x2328 => { l with fence := { l.fence with count := {} } }
    | 0x2330 => { l with fence := { l.fence with refusals := {} } }
    | 0x2338 => { l with fence := { l.fence with unfenceRefused := {} } }
    | 0x2340 => { l with fence := { l.fence with hbBad := {} } }
    | 0x2418 => { l with mmCount := {} }
    | 0x3158 => { l with caps := { l.caps with overrun := {} } }
    | 0x3160 => { l with trigLate := {} }
    | 0x3168 => { l with trigDropped := {} }
    | 0x3208 => { l with capp := { l.capp with throttledCtr := {} } }
    | 0x3210 => { l with capp := { l.capp with refusedCtr := {} } }
    | _ => l
/-- The offsets of the 50 counters of R520, ascending. -/
def leafCtrOffsets : List Nat := ((List.range 0x700).map (fun i => 8 * i)).filter (fun o => (leafCtr {} o).isSome)

/-! ### Words by offset (R491 to R522) -/
/-- A register of the global block. -/
def globalWord (l : Leaf) (off : Nat) : Option Word :=
  if 0x1C0 ≤ off ∧ off < 0x200 then some (resSelWord l ((off - 0x1C0) / 8))
  else if 0x30 ≤ off ∧ off < 0x50 then some (granWord l.start.imageDigest ((off - 0x30) / 8))
  else if 0x110 ≤ off ∧ off < 0x130 then some (granWord l.sec.challenge ((off - 0x110) / 8))
  else if 0x130 ≤ off ∧ off < 0x178 then some 0#64
  else
    match off with
    | 0x0000 => some (BitVec.ofNat 64 l.serial)
    | 0x0008 => some (idVersionWord l)
    | 0x0010 => some (idCapsWord l)
    | 0x0018 => some (layW [⟨0, 32, l.fpaW⟩, ⟨32, 32, l.fpaB⟩])
    | 0x0020 => some (startStatusWord l.start)
    | 0x0028 => some (BitVec.ofNat 64 l.start.imageSeq)
    | 0x0050 => some (layW [⟨0, 1, b2n l.start.cfgLocked⟩])
    | 0x0058 => some (restoreCtrlWord l.start)
    | 0x0060 => some l.hostFw
    | 0x0068 => some l.hostDum
    | 0x0080 => some l.ints.status0
    | 0x0088 => some l.ints.status1
    | 0x0090 => some l.ints.enable0
    | 0x0098 => some l.ints.enable1
    | 0x00A8 => some (intCtrlWord l.ints)
    | 0x0100 => some (secStatusWord l.time.clock l.sec)
    | 0x0108 => some (secHistWord l.sec)
    | 0x0178 => some (layW [⟨3, 1, b2n l.sec.challengeValid⟩])
    | 0x0180 => some (sumCtrlWord l.sum)
    | 0x0188 => some (layW [⟨0, 5, l.progSel⟩])
    | 0x0190 => some (layW [⟨12, 20, l.fwin.page⟩])
    | 0x0198 => some 0#64
    | 0x01A0 => some (layW [⟨0, 1, b2n l.fwin.busy⟩, ⟨8, 8, l.fwin.result⟩])
    | _ => none
/-- A register of the time block (R493). -/
def timeWord (l : Leaf) (off : Nat) : Option Word :=
  if 0x1020 ≤ off ∧ off < 0x10A0 then
    let c := tabGet ({} : SnapCtx) l.snaps ((off - 0x1020) / 32)
    (match off % 32 with | 8 => some c.hi | 16 => some c.utc | _ => none)
  else if 0x1200 ≤ off ∧ off < 0x1280 ∧ off % 32 = 0 then some (tdcStatusWord (leafTdc l ((off - 0x1200) / 32)))
  else
    match off with
    | 0x1000 => some (BitVec.ofNat 64 (leafNs l))
    | 0x10A0 => some (BitVec.ofNat 64 l.time.epochBase)
    | 0x10A8 => some (leapWord l.time)
    | 0x10B0 => some (stepAtWord l.time 0)
    | 0x10B8 => some (stepDeltaWord l.time 0)
    | 0x10C0 => some (stepInfoWord l.time)
    | 0x10C8 => some (stepAtWord l.time 1)
    | 0x10D0 => some (stepDeltaWord l.time 1)
    | 0x10D8 => some (stepAtWord l.time 2)
    | 0x10E0 => some (stepDeltaWord l.time 2)
    | 0x1100 => some (domStatusWord (decide (l.tsel.sel = 1)) l.domW)
    | 0x1108 => some (domOffsetWord (domShown (decide (l.tsel.sel = 1)) l.domW))
    | 0x1110 => some (domRttWord l.domW)
    | 0x1140 => some (domStatusWord (decide (l.tsel.sel = 2)) l.domB)
    | 0x1148 => some (domOffsetWord (domShown (decide (l.tsel.sel = 2)) l.domB))
    | 0x1150 => some (domRttWord l.domB)
    | 0x1180 => some (timeSelWord l)
    | _ => none
/-- A register of the port block (R494). -/
def portBlockWord (l : Leaf) (off : Nat) : Option Word :=
  if off < 0x2200 then
    let p := leafPort l ((off - 0x2000) / 256)
    (match off % 256 with
     | 0x00 => some (linkStatusWord p)
     | 0x08 => some (layW [⟨0, 40, p.delayA⟩])
     | 0x10 => some (layW [⟨0, 40, p.delayB⟩])
     | 0x18 => some (linkOpticsWord p)
     | 0x20 => some (linkKeyWord p)
     | 0x28 => some (bucketWord p.bucket)
     | 0x30 => some (BitVec.ofNat 64 p.forecast)
     | _ => none)
  else if 0x2428 ≤ off ∧ off < 0x2448 then some (granWord (histGran l.histEntry) ((off - 0x2428) / 8))
  else
    match off with
    | 0x2200 => some (codeStatusWord l)
    | 0x2208 => some (BitVec.ofNat 64 l.start.lastPass)
    | 0x2210 => some (bucketWord l.code.flashBucket)
    | 0x2300 => some (fenceStatusWord l.fence)
    | 0x2308 => some (BitVec.ofNat 64 l.fence.fencedAt)
    | 0x2310 => some 0#64
    | 0x2318 => some 0#64
    | 0x2320 => some (layW [⟨0, 32, l.fence.hbTimeout⟩])
    | 0x2400 => some (testCtrlWord l.tests)
    | 0x2408 => some (testResultWord l.tests)
    | 0x2410 => some (histSummary l.history)
    | 0x2420 => some (layW [⟨0, 9, l.histSel⟩])
    | _ => none
/-- A register of the trigger block (R496, R500, R502). -/
def trigBlockWord (l : Leaf) (off : Nat) : Option Word :=
  if off < 0x3100 then
    let t := leafTrig l ((off - 0x3000) / 32)
    (match off % 32 with
     | 0x00 => some (trigCfgWord t)
     | 0x08 => some (BitVec.ofNat 64 t.time)
     | 0x10 => some (layW [⟨0, 48, t.periodNs⟩])
     | _ => some (trigStatusWord l.time t))
  else if off < 0x3140 then some (BitVec.ofNat 64 (tabGet 0 l.caps.cfg ((off - 0x3100) / 8)))
  else if 0x3300 ≤ off ∧ off < 0x3400 then some (BitVec.ofNat 64 (leafSlot l ((off - 0x3300) / 8)).capSeq)
  else
    match off with
    | 0x3148 => some l.caps.pop1
    | 0x3150 => some (layW [⟨0, 3, l.caps.popInput⟩, ⟨3, 1, b2n l.caps.popEmpty⟩, ⟨4, 7, l.caps.popLeft⟩])
    | 0x3200 => some (cappStatusWord l)
    | 0x3218 => some (replayStatusWord l.capp)
    | _ => none
/-- A register of slot s's block (R505 to R508, R511). -/
def slotWord (l : Leaf) (s off : Nat) : Option Word :=
  let x := leafSlot l s
  if 0x100 ≤ off then some (byteWord x.ctxWindow (off - 0x100))
  else if 0x68 ≤ off ∧ off < 0x88 then some (granWord x.jDigest ((off - 0x68) / 8))
  else
    match off with
    | 0x00 => some (slotStatusWord l.start.strictForce x)
    | 0x08 => some (genStatusWord x)
    | 0x10 => some (launchStatusWord x)
    | 0x18 => some (BitVec.ofNat 64 x.launchTime)
    | 0x20 => some (failInfoWord x)
    | 0x28 => some (mmInfoWord x)
    | 0x30 => some (arriveInfoWord x)
    | 0x38 => some 0#64
    | 0x40 => some (BitVec.ofNat 64 x.jTag)
    | 0x48 => some (BitVec.ofNat 64 x.jRank)
    | 0x50 => some (BitVec.ofNat 64 x.jN)
    | 0x58 => some (layW [⟨0, 48, x.jResume⟩, ⟨48, 1, b2n x.jResumeValid⟩])
    | 0x60 => some (BitVec.ofNat 64 x.jTapMask)
    | 0xC0 => some (ctrWord x.wordLate)
    | 0xC8 => some (ctrWord x.domGenFailed)
    | 0xD0 => some (ctrWord x.staleDrop)
    | _ => none
/-- Is `s`'s program window frozen: the sheaf is not CLOSED (R305, R510, R511)? -/
def slotFrozen (l : Leaf) (s : Nat) : Bool := slotOpen (leafSlot l s)
/-- A read of the program aperture (R510): the held copy while the sheaf is open; zero beyond 4,000 bytes. -/
def progWord (l : Leaf) (off : Nat) : Word :=
  let x := leafSlot l l.progSel
  if 4000 ≤ off then 0#64
  else if slotFrozen l l.progSel then BitVec.ofNat 64 (leNat ((x.program.drop off).take 8)) else byteWord x.progWindow off
/-- A word read without side effect, with its response (R487, R488). -/
def leafReadWord (l : Leaf) (off : Nat) : Word × Nat :=
  let ok := fun (o : Option Word) => match o with | some w => (w, respOk) | none => (0#64, respError)
  if off % 8 ≠ 0 then (0#64, respError)
  else match leafCtr l off with
  | some c => (ctrWord c, respOk)
  | none =>
    if off < 0x1000 then ok (globalWord l off)
    else if off < 0x2000 then ok (timeWord l off)
    else if off < 0x3000 then ok (portBlockWord l off)
    else if off < 0x4000 then ok (trigBlockWord l off)
    else if off < 0x8000 then
      let t := leafTap l ((off - 0x4000) / 256)
      if !t.present || t.fault then (0#64, respError) else ok (tapRegWord t (off % 256))
    else if off < 0xC000 then ok (slotWord l ((off - 0x8000) / 512) (off % 512))
    else if off < 0xD000 then (if l.sum.busy then (0#64, respPending) else (tabGet 0#64 l.sum.words ((off - 0xC000) / 8), respOk))
    else if off < 0xE000 then (byteWord l.fwin.window (off - 0xD000), respOk)
    else if off < 0xF000 then (progWord l (off - 0xE000), respOk)
    else if 0x10000 ≤ off ∧ off < 0x20000 then
      let g := tabGet ({} : Granule) (leafSlot l ((off - 0x10000) / 2048)).arrWindow (off % 2048 / 32)
      (granWord g.data (off % 32 / 8), if g.poison then respPoison else respOk)
    else if 0x20000 ≤ off ∧ off < 0x30000 then appRead l ((off - 0x20000) / 8192) (off % 8192)
    else (0#64, respError)
/-- A read on the register port (R488, R489): the answer, and what the read clears, latches or removes. -/
def leafRegRead (l : Leaf) (off : Nat) : Leaf :=
  let r := leafReadWord l off
  let l1 := leafAnswer l r.1 r.2
  if off % 8 ≠ 0 then l1
  else if (leafCtr l off).isSome then leafCtrClear l1 off
  else if off = 0xA0 then intFifoRead l
  else if 0x1020 ≤ off ∧ off < 0x10A0 ∧ off % 32 = 0 then snapRead l ((off - 0x1020) / 32)
  else if 0x1200 ≤ off ∧ off < 0x1280 ∧ off % 32 = 0 then
    let n := (off - 0x1200) / 32
    setLeafTdc l1 n { leafTdc l n with lossCount := 0 }
  else if off = 0x3140 then leafCapPop l
  else if 0x4000 ≤ off ∧ off < 0x8000 ∧ off % 8 = 0 then tapAccess ((off - 0x4000) / 256) (off % 256) false 0#64 l
  else if 0x8000 ≤ off ∧ off < 0xC000 then
    let s := (off - 0x8000) / 512
    (match off % 512 with
     | 0xC0 => updSlot l1 s (fun x => { x with wordLate := {} })
     | 0xC8 => updSlot l1 s (fun x => { x with domGenFailed := {} })
     | 0xD0 => updSlot l1 s (fun x => { x with staleDrop := {} })
     | _ => l1)
  else l1

/-! ### The flash window (R514 to R517) -/
/-- A flash operation ends with a code (R515). -/
def flashEnd (c : Nat) (l : Leaf) : Leaf := leafEv { l with fwin := { l.fwin with busy := false, result := c } } .flashDone 0 c
/-- A refused operation (R515): the code and the event; nothing else changes. -/
def flashRefuse (c : Nat) (l : Leaf) : Leaf := leafEv { l with fwin := { l.fwin with result := c } } .flashDone 0 c
/-- The region of a flash address: 0 factory, 1 A, 2 B, 3 user or history, 4 reserved (R448). -/
def flashRegion (a : Nat) : Nat := if a < flashA then 0 else if a < flashB then 1 else if a < flashUserA then 2 else if a < flashRest then 3 else 4
/-- Is the page in the copy in use? -/
def flashInUse (s : Startup) (a : Nat) : Bool := decide (s.phase ≠ 4) && decide (flashRegion a = if s.copyB then 2 else 1)
/-- The refusal of `PROGRAM` at an address (R515). -/
def programRefusal (l : Leaf) (a : Nat) : Nat :=
  if l.fwin.busy then 4 else if flashRegion a = 0 ∨ flashRegion a = 4 then 1 else if flashInUse l.start a then 2
  else if l.sec.locked then 3 else if flashRegion a = 3 then 5 else 0
/-- The entries in the window for `TRIM_ADD` (R516). -/
def trimEntries (l : Leaf) : List CalEntry :=
  calEntries (satN 512 (byteWord l.fwin.window 0).toNat) (tabReadList 0#8 l.fwin.window 8 4088)
/-- Is each a well-formed `PORT_TRIM` entry for port 0 or 1, and are all of them there? -/
def trimOk (l : Leaf) : Bool :=
  decide ((trimEntries l).length = (byteWord l.fwin.window 0).toNat) && (trimEntries l).all (fun e => decide (e.typ = 4 ∧ e.key < 2 ∧ e.data.length = 8))
/-- Start an operation (R515): it completes at `FLASH_DONE`. -/
def flashGo (op : Nat) (l : Leaf) : Leaf := { l with fwin := { l.fwin with busy := true, op := op, opPage := l.fwin.page } }
/-- `READ` (R514). -/
def leafFlashRead (l : Leaf) : Leaf := if l.fwin.busy then flashRefuse 4 l else flashGo 0 l
/-- `PROGRAM` (R514, R515, R517): the first into a copy starts its staging. -/
def leafFlashProgram (l : Leaf) : Leaf :=
  let a := l.fwin.page * 4096
  let c := programRefusal l a
  if c ≠ 0 then flashRefuse c l
  else
    let s := l.start
    let s1 := if flashRegion a = 1 then { s with stagingA := true } else { s with stagingB := true }
    flashGo 1 { l with start := s1 }
/-- `TRIM_ADD` (R515, R516). -/
def leafFlashTrim (l : Leaf) : Leaf :=
  if l.fwin.busy then flashRefuse 4 l else if l.sec.locked then flashRefuse 3 l else if !trimOk l then flashRefuse 6 l
  else if l.start.restorePending then flashRefuse 7 l
  else flashGo 2 { l with start := userDue (trimEntries l) l.start }
/-- `STAGE_DONE` (R454, R517). -/
def leafFlashStage (l : Leaf) : Leaf := if l.fwin.busy then flashRefuse 4 l else if l.sec.locked then flashRefuse 3 l else flashGo 3 l
/-- The operation running completes (R515): the window is loaded, the sector programmed, the trims saved, or the staged copy checked. -/
def leafFlashDone (l : Leaf) : Leaf :=
  if !l.fwin.busy then l
  else
    let a := l.fwin.opPage * 4096
    match l.fwin.op with
    | 0 => flashEnd 0 { l with fwin := { l.fwin with window := tabWriteList 0#8 [] 0 (flashRead l.start a 4096) } }
    | 1 => flashEnd 0 { l with start := flashWrite (flashErase l.start a 4096) a (tabReadList 0#8 l.fwin.window 0 4096) }
    | 2 => flashEnd 0 { l with start := userSave l.start }
    | _ =>
      let r := stageCheck (leafUnit l) l.sec.owner l.start
      let l1 := flashEnd 0 (leafRaiseAll { l with start := r.1 } r.2.1)
      if r.2.2 then leafViolate 6 l1 else l1
/-- A write of the window at a byte offset (R515). -/
def flashWindowWrite (off : Nat) (w : Word) (l : Leaf) : Leaf :=
  if l.fwin.busy then { l with fwin := { l.fwin with result := 4 } }
  else { l with fwin := { l.fwin with window := tabWriteList 0#8 l.fwin.window off (leBytes 8 w.toNat) } }

/-! ### The summary block (R518 to R520) -/
/-- The word of the block at a byte offset, from the leaf as at the snapshot edge. `cs`: the counters' offsets. -/
def sumWord (cs : List Nat) (seq source : Nat) (l : Leaf) (off : Nat) : Word :=
  let rd := fun (o : Nat) => (leafReadWord l o).1
  if off = 0 then layW [⟨0, 32, 0x4D55534C⟩, ⟨32, 8, 1⟩, ⟨40, 1, source⟩, ⟨48, 16, seq⟩]
  else if off = 8 then BitVec.ofNat 64 (leafNs l)
  else if off < 0x58 then rd (match off with
    | 0x10 => 0x0000 | 0x18 => 0x0008 | 0x20 => 0x0018 | 0x28 => 0x0020 | 0x30 => 0x0028 | 0x38 => 0x0030 | 0x40 => 0x0038 | 0x48 => 0x0040 | _ => 0x0048)
  else if off < 0x118 then
    (match off with
     | 0x58 => rd 0x1180
     | 0x60 => rd 0x1100 | 0x68 => rd 0x1108 | 0x70 => rd 0x1110 | 0x78 => rd 0x1140 | 0x80 => rd 0x1148 | 0x88 => rd 0x1150
     | 0x90 => rd 0x2300 | 0x98 => rd 0x2308
     | 0xA0 => rd 0x0100 | 0xA8 => rd 0x0108
     | 0xB0 => rd 0x2410 | 0xB8 => rd 0x2200
     | 0xC0 => l.ints.status0 | 0xC8 => l.ints.status1
     | 0xD0 => rd 0x2000 | 0xD8 => rd 0x2100
     | 0xE0 => rd 0x1200 | 0xE8 => rd 0x1220 | 0xF0 => rd 0x1240 | 0xF8 => rd 0x1260
     | 0x100 => rd 0x2408 | 0x108 => rd 0x2030 | 0x110 => rd 0x2130
     | _ => 0#64)
  else if 0x200 ≤ off ∧ off < 0x400 then
    let t := leafTap l ((off - 0x200) / 8)
    if t.present then
      layW [⟨0, 6, t.hubStatus⟩, ⟨16, 16, t.hubMargin⟩, ⟨32, 32, ofSigned 32 t.hubSlip⟩]
    else 0#64
  else if 0x400 ≤ off ∧ off < 0x590 then
    (match cs[(off - 0x400) / 8]? with | some o => rd o | none => 0#64)
  else if 0x590 ≤ off ∧ off < 0x5A8 then
    let pick := fun (x : Slot) => if off = 0x590 then x.wordLate else if off = 0x598 then x.domGenFailed else x.staleDrop
    ctrWord ((List.range 32).foldl (fun a s => let c := pick (leafSlot l s)
                                              let b := ctrAdd a c.count
                                              { b with ovf := b.ovf || c.ovf }) {})
  else if 0x600 ≤ off ∧ off < 0xE00 then
    let s := (off - 0x600) / 64
    let x := leafSlot l s
    (match off % 64 with
     | 0x38 => layW [⟨0, 32, x.tag⟩, ⟨32, 18, x.rank⟩]
     | o => (slotWord l s o).getD 0#64)
  else if 0xE00 ≤ off ∧ off < 0xF00 then BitVec.ofNat 64 (leafSlot l ((off - 0xE00) / 8)).capSeq
  else
    match off with
    | 0xF00 => rd 0x3200
    | 0xF08 => rd 0x3218
    | 0xF10 => rd 0x0010
    | _ => 0#64
/-- The 512 words of a block. -/
def sumWords (seq source : Nat) (l : Leaf) : List Word :=
  let cs := leafCtrOffsets
  (List.range 512).map (fun i => sumWord cs seq source l (8 * i))
/-- `SUM_REQUEST` (R519): the snapshot is fixed on this edge; a further request while one is being assembled is ignored. -/
def leafSumRequest (l : Leaf) : Leaf :=
  if l.sum.busy then l
  else
    let seq := (l.sum.seq + 1) % 65536
    { l with sum := { busy := true, valid := false, seq := seq, words := tabWriteList 0#64 [] 0 (sumWords seq 0 l) } }
/-- The block is complete (R519). -/
def leafSumReady (l : Leaf) : Leaf :=
  if l.sum.busy then leafEv { l with sum := { l.sum with busy := false, valid := true } } .summaryReady 0 0 else l
/-- A `SUMMARY` relayed to the leaf (R519): a second block with `SOURCE` = 1. -/
def leafMgmtSummary (l : Leaf) : Leaf :=
  let seq := (l.mgmtSum.seq + 1) % 65536
  { l with mgmtSum := { busy := false, valid := true, seq := seq, words := tabWriteList 0#64 [] 0 (sumWords l.sum.seq 1 l) } }

/-! ### Writes (R487 to R513) -/
/-- A write of a host fingerprint register (R389, R396): each open pod slot sends its member fingerprint. -/
def leafHostFp (dum : Bool) (w : Word) (l : Leaf) : Leaf :=
  let l1 := if dum then { l with hostDum := w } else { l with hostFw := w }
  (List.range 32).foldl (fun a s =>
    let x := leafSlot a s
    if slotOpen x && !x.isLocal then
      let y := { x with fpFw := a.hostFw, fpDum := a.hostDum }
      let g := memberFp a s y a.hostFw a.hostDum
      [0, 1].foldl (fun b d => if slotBound y d || slotWaits y d then leafSolo b d 1 g else b) (setSlot a s y)
    else a) l1
/-- A write of `HIST_SEL` (R495). -/
def leafHistSel (i : Nat) (l : Leaf) : Leaf := { l with histSel := i % 512, histEntry := tabGet {} l.history.entries (i % 512) }
/-- A write of `SLOT_CMD_s` (R507). -/
def leafSlotCmd (s : Nat) (w : Word) (l : Leaf) : Leaf :=
  let cmds := [wbit w 0, wbit w 1, wbit w 3, wbit w 4, wbit w 5].filter id
  if 1 < cmds.length ∨ (wbit w 2 ∧ !wbit w 1) then { l with slotCmdBad := ctrInc l.slotCmdBad }
  else if wbit w 0 then leafJoinGo s l
  else if wbit w 1 then leafArrive s (wf w 14 8) (wbit w 2) l
  else if wbit w 3 then leafLeave s l
  else if wbit w 4 then leafPark s l
  else if wbit w 5 then leafUnpark s l
  else l
/-- Put a word into 256-bit data. -/
def putGranWord (g : Gran) (i : Nat) (w : Word) : Gran :=
  lay [⟨64 * i, 64, w.toNat⟩] ||| (g &&& ~~~ (lay [⟨64 * i, 64, 2 ^ 64 - 1⟩]))
/-- A write of slot s's block (R505 to R508, R511). -/
def slotWrite (s off : Nat) (w : Word) (l : Leaf) : Leaf :=
  if 0x100 ≤ off then
    (if slotFrozen l s then l else updSlot l s (fun x => { x with ctxWindow := tabWriteList 0#8 x.ctxWindow (off - 0x100) (leBytes 8 w.toNat) }))
  else if 0x68 ≤ off ∧ off < 0x88 then updSlot l s (fun x => { x with jDigest := putGranWord x.jDigest ((off - 0x68) / 8) w })
  else
    match off with
    | 0x38 => leafSlotCmd s w l
    | 0x40 => updSlot l s (fun x => { x with jTag := wf w 31 0 })
    | 0x48 => updSlot l s (fun x => { x with jRank := wf w 17 0 })
    | 0x50 => updSlot l s (fun x => { x with jN := wf w 18 0 })
    | 0x58 => updSlot l s (fun x => { x with jResume := wf w 47 0, jResumeValid := wbit w 48 })
    | 0x60 => updSlot l s (fun x => { x with jTapMask := w.toNat })
    | _ => l
/-- A write of the global block. -/
def globalWrite (off : Nat) (w : Word) (l : Leaf) : Leaf :=
  if 0x1C0 ≤ off ∧ off < 0x200 then leafResSel ((off - 0x1C0) / 8) w l
  else if 0x130 ≤ off ∧ off < 0x178 then { l with sec := { l.sec with response := tabSet 0#64 l.sec.response ((off - 0x130) / 8) w } }
  else
    match off with
    | 0x0050 => if wbit w 0 then leafCfgLock l else l
    | 0x0058 =>
      let l1 := { l with start := { l.start with restoreForce := wbit w 2 } }
      let l2 := if wbit w 0 then leafArm l1 else l1
      if wbit w 1 then leafConfirm none (wbit w 2) l2 else l2
    | 0x0060 => leafHostFp false w l
    | 0x0068 => leafHostFp true w l
    | 0x0080 => { l with ints := { l.ints with status0 := l.ints.status0 &&& ~~~w } }
    | 0x0088 => { l with ints := { l.ints with status1 := l.ints.status1 &&& ~~~w } }
    | 0x0090 => { l with ints := { l.ints with enable0 := w } }
    | 0x0098 => { l with ints := { l.ints with enable1 := w } }
    | 0x00A8 => { l with ints := { l.ints with globalEn := wbit w 0, ovf := l.ints.ovf && !wbit w 1 } }
    | 0x0108 => { l with sec := { l.sec with hist := Nat.land l.sec.hist (1023 - wf w 9 1 * 2), histEn := wf w 25 17 } }
    | 0x0178 =>
      let l1 := if wbit w 0 then leafDbgRequest l else l
      let l2 := if wbit w 1 then leafDbgSubmit l1 else l1
      if wbit w 2 then leafDbgEnd l2 else l2
    | 0x0180 => if wbit w 0 then leafSumRequest l else l
    | 0x0188 => { l with progSel := wf w 4 0 }
    | 0x0190 => { l with fwin := { l.fwin with page := wf w 31 12 } }
    | 0x0198 =>
      let l1 := if wbit w 0 then leafFlashRead l else l
      let l2 := if wbit w 1 then leafFlashProgram l1 else l1
      let l3 := if wbit w 2 then leafFlashTrim l2 else l2
      if wbit w 3 then leafFlashStage l3 else l3
    | _ => l
/-- A write of the time block: the two W1C fields it has. -/
def timeWrite (off : Nat) (w : Word) (l : Leaf) : Leaf :=
  if off = 0x1180 then { l with tsel := { l.tsel with apart := l.tsel.apart && !wbit w 5 } }
  else if 0x1200 ≤ off ∧ off < 0x1280 ∧ off % 32 = 0 then
    let n := (off - 0x1200) / 32
    setLeafTdc l n { leafTdc l n with fault := (leafTdc l n).fault && !wbit w 2 }
  else l
/-- A write of the port block (R379, R422, R429, R434, R495). -/
def portBlockWrite (off : Nat) (w : Word) (l : Leaf) : Leaf :=
  match off with
  | 0x2028 => if wbit w 7 then { l with port0 := { l.port0 with bucket := { l.port0.bucket with ovfSeen := false } } } else l
  | 0x2128 => if wbit w 7 then { l with port1 := { l.port1 with bucket := { l.port1.bucket with ovfSeen := false } } } else l
  | 0x2210 => if wbit w 7 then { l with code := { l.code with flashBucket := { l.code.flashBucket with ovfSeen := false } } } else l
  | 0x2310 => if wbit w 0 then leafUnfence l else l
  | 0x2318 => leafHeartbeat l
  | 0x2320 => leafHbTimeout (wf w 31 0) l
  | 0x2400 =>
    let l1 := { l with tests := { l.tests with allow := wbit w 0 } }
    testRetry (if wbit w 2 then leafTestAbort l1 else l1)
  | 0x2420 => leafHistSel (wf w 8 0) l
  | _ => l
/-- A write of the trigger block. -/
def trigBlockWrite (off : Nat) (w : Word) (l : Leaf) : Leaf :=
  if off < 0x3100 then leafTrigWrite ((off - 0x3000) / 32) (off % 32) w l
  else if off < 0x3140 then { l with caps := { l.caps with cfg := tabSet 0 l.caps.cfg ((off - 0x3100) / 8) (wf w 1 0) } }
  else if off = 0x3218 then
    { l with capp := { l.capp with gapSeen := l.capp.gapSeen && !wbit w 2, incompleteSeen := l.capp.incompleteSeen && !wbit w 3 } }
  else l
/-- A write of the arrival window (R509): a word with the port's poison mark poisons its granule; rewriting word 0 starts it clean. -/
def arrWrite (s off : Nat) (w : Word) (poison : Bool) (l : Leaf) : Leaf :=
  updSlot l s (fun x =>
    let g := tabGet ({} : Granule) x.arrWindow (off / 32)
    let h : Granule := { data := putGranWord g.data (off % 32 / 8) w, poison := poison || (g.poison && decide (off % 32 ≠ 0)) }
    { x with arrWindow := tabSet {} x.arrWindow (off / 32) h })
/-- A write of the program window (R371, R510): the poison mark poisons its granule; rewriting word 0 starts it clean. -/
def progWrite (off : Nat) (w : Word) (poison : Bool) (x : Slot) : Slot :=
  let i := off / 32
  let was := x.progPoison.contains i && decide (off % 32 ≠ 0)
  { x with progWindow := tabWriteList 0#8 x.progWindow off (leBytes 8 w.toNat),
           progPoison := (if poison || was then [i] else []) ++ x.progPoison.filter (fun j => decide (j ≠ i)) }
/-- A write on the register port (R487 to R489): every effect is fixed on its edge. -/
def leafRegWrite (off : Nat) (w : Word) (poison : Bool) (l : Leaf) : Leaf :=
  let ans := fun (x : Leaf) => leafAnswer x 0#64 respOk
  if off % 8 ≠ 0 ∨ 0x40000 ≤ off then leafAnswer l 0#64 respError
  else if off < 0x4000 ∧ (leafReadWord l off).2 = respError ∧ off ≠ 0xA0 ∧ off ≠ 0x3140 ∧ ¬(0x1020 ≤ off ∧ off < 0x10A0 ∧ off % 32 = 0) then
    leafAnswer l 0#64 respError
  else if off < 0x1000 then ans (globalWrite off w l)
  else if off < 0x2000 then ans (timeWrite off w l)
  else if off < 0x3000 then ans (portBlockWrite off w l)
  else if off < 0x4000 then ans (trigBlockWrite off w l)
  else if off < 0x8000 then tapAccess ((off - 0x4000) / 256) (off % 256) true w l
  else if off < 0xC000 then
    (if (slotWord l ((off - 0x8000) / 512) (off % 512)).isNone then leafAnswer l 0#64 respError else ans (slotWrite ((off - 0x8000) / 512) (off % 512) w l))
  else if off < 0xD000 then ans l
  else if off < 0xE000 then ans (flashWindowWrite (off - 0xD000) w l)
  else if off < 0xF000 then
    ans (if slotFrozen l l.progSel || decide (4000 ≤ off - 0xE000) then l
         else updSlot l l.progSel (progWrite (off - 0xE000) w poison))
  else if 0x10000 ≤ off ∧ off < 0x20000 then ans (arrWrite ((off - 0x10000) / 2048) (off % 2048) w poison l)
  else if 0x20000 ≤ off ∧ off < 0x30000 then ans l
  else leafAnswer l 0#64 respError

end Sys2Proof.Machine
end

