-- ==== Sys2Proof/Machine/LeafMgmt.lean ====
section
/-! DEFINITION. Management commands relayed to a leaf (R428, R437, R465, R484, R528 to R531): held answers, and what each command does. -/
namespace Sys2Proof.Machine

/-! ### Status codes (R530) -/
def stOk : Nat := 0
def stBadCommand : Nat := 1
def stBadArgs : Nat := 2
def stIdConflict : Nat := 3
def stBusy : Nat := 4
def stQuarantine : Nat := 5
def stLocked : Nat := 6
def stNotDebug : Nat := 7
def stLeafUnknown : Nat := 8
def stLeafNoAnswer : Nat := 9
def stRegRo : Nat := 0x0A
def stSummaryGone : Nat := 0x0B
def stNotMill : Nat := 0x0C
def stNotLead : Nat := 0x0D
def stSheafUnknown : Nat := 0x0E
def stStrictOpen : Nat := 0x101
def stStepRange : Nat := 0x102
def stOffsetRange : Nat := 0x103
def stTooSoon : Nat := 0x104
def stStepPending : Nat := 0x105
def stNotArmed : Nat := 0x106
def stSheavesOpen : Nat := 0x107
def stImageInUse : Nat := 0x108
def stImageBad : Nat := 0x109
def stRestartUnsafe : Nat := 0x10A
def stTestBusy : Nat := 0x10B
def stPackMissing : Nat := 0x10C
def stHostType : Nat := 0x10D
def stPackSigBad : Nat := 0x10E
def stPackTooLarge : Nat := 0x10F
def stPackStale : Nat := 0x110
def stPackFull : Nat := 0x111
def stReplayMismatch : Nat := 0x112
def stInjectDisabled : Nat := 0x113
def stInjectUnsafe : Nat := 0x114
def stFlashProtected : Nat := 0x115
def stSigBad : Nat := 0x116
def stUnwrapFail : Nat := 0x117
def stUnconfirmed : Nat := 0x118

/-! ### Command codes (R531) -/
def cmSummary : Nat := 0x01
def cmFence : Nat := 0x20
def cmRestore : Nat := 0x30
def cmTest : Nat := 0x40
def cmInject : Nat := 0x43
def cmDebug : Nat := 0x51
def cmDebugLock : Nat := 0x52
def cmAlarmClear : Nat := 0x53
def cmHistRead : Nat := 0x60
def cmHistClear : Nat := 0x61

/-- What a command did at a unit: the unit, the status, the answer body. -/
structure Did (α : Type) where
  unit   : α
  status : Nat := 0
  body   : Bytes := []
/-- `FENCE` (R428): cause MGMT, or its release. -/
def leafMgmtFence (release : Bool) (l : Leaf) : Leaf := if release then leafMgmtRelease l else testRetry (leafFence fcMgmt l)
/-- `RESTORE_FACTORY` (R465): the status of a refusal. -/
def restoreStatus (c : Nat) : Nat := match c with | 0 => stOk | 1 => stLocked | 2 => stNotArmed | _ => stSheavesOpen
def leafRestoreCmd (force : Bool) (b : Bytes) (l : Leaf) : Did Leaf :=
  if bf b 8 1 = 0 then
    let m := leafArm l
    { unit := m, status := restoreStatus m.start.refusal, body := if m.start.refusal = 0 then leBytes 2 (m.start.armed.getD 0) else [] }
  else
    let c := leafConfirmRefusal (some (bf b 10 2)) force l
    { unit := leafConfirm (some (bf b 10 2)) force l, status := restoreStatus c }
/-- The refusal of a test order, as a status (R419). -/
def testStatus (pack : Nat) (body : Bytes) (l : Leaf) : Nat :=
  if packReason pack body l ≠ 0 then packReason pack body l
  else if l.tests.active || l.tests.waiting.isSome then stTestBusy else stOk
/-- `TEST_REQUEST` at the leaf: the pack streamed with the order stands behind the first 16 bytes. -/
def leafTestCmd (id : Nat) (b : Bytes) (l : Leaf) : Did Leaf :=
  let pack := bf b 8 4
  let reps := bf b 12 1
  if reps = 0 then { unit := l, status := stBadArgs }
  else { unit := leafTestRequest id pack reps ((bf b 13 1).testBit 0) (b.drop 16) l, status := testStatus pack (b.drop 16) l }
/-- `DEBUG_UNLOCK` (R481, R484). -/
def leafDebugCmd (b : Bytes) (l : Leaf) : Did Leaf :=
  if l.sec.locked then { unit := l, status := stLocked }
  else if bf b 8 1 = 0 then
    let m := leafDbgRequest l
    { unit := m, body := granBytes m.sec.challenge }
  else
    let sig := (b.drop 16).take 64
    { unit := leafDbgResponse (bf b 10 2) sig l, status := if debugOkay l.serial l.time.clock (bf b 10 2) sig l.sec then stOk else stSigBad }
/-- `HISTORY_READ` (R531). -/
def histRead (cap first count : Nat) (h : History) : Option Bytes :=
  if count = 0 ∨ 128 < count ∨ cap < first + count then none
  else some ((List.range count).flatMap (fun i => granBytes (histGran (tabGet {} h.entries (first + i)))))
/-- `HISTORY_CLEAR` at the leaf (R415). -/
def leafHistClear (path : Nat) (l : Leaf) : Leaf := { l with history := histClear path l.history }
/-- The block of a management `SUMMARY` as bytes (R519). -/
def sumBytes (b : SumBlock) : Bytes := (tabReadList 0#64 b.words 0 512).flatMap (fun w => leBytes 8 w.toNat)
/-- A relayed command acts (R428, R465, R484, R531). -/
def leafCommand (id cmd : Nat) (force : Bool) (b : Bytes) (l : Leaf) : Did Leaf :=
  match cmd with
  | 0x01 =>
    let m := leafMgmtSummary l
    { unit := m, body := sumBytes m.mgmtSum }
  | 0x20 => { unit := leafMgmtFence (decide (bf b 8 1 = 1)) l }
  | 0x30 => leafRestoreCmd force b l
  | 0x40 => leafTestCmd id b l
  | 0x43 =>
    let m := testRetry (leafFence fcHeartbeat { l with fence := { l.fence with hbArmed := false } })
    { unit := { m with fence := { m.fence with injected := m.fence.injected || !l.fence.fenced } } }
  | 0x51 => leafDebugCmd b l
  | 0x52 => { unit := leafDbgEnd l }
  | 0x53 =>
    let r := leafAlarmClear id ((b.drop 8).take 64) l
    { unit := r.1, status := if r.2 then stOk else stSigBad }
  | 0x60 =>
    match histRead 512 (bf b 8 4) (bf b 12 4) l.history with
    | some x => { unit := l, body := x }
    | none => { unit := l, status := stBadArgs }
  | 0x61 =>
    if l.sec.locked then { unit := l, status := stLocked }
    else if !l.sec.debugOn then { unit := l, status := stNotDebug }
    else { unit := leafHistClear (bf b 8 8) l }
  | _ => { unit := l, status := stBadCommand }
/-- The 32-byte header of a message (R527). -/
def mgmtHeader (kind target flags cmd status len id accept : Nat) : Bytes :=
  leBytes 4 0x31504D4D ++ leBytes 1 1 ++ leBytes 1 kind ++ leBytes 1 target ++ leBytes 1 flags ++ leBytes 2 cmd ++ leBytes 2 status ++
  leBytes 4 len ++ leBytes 8 id ++ leBytes 8 accept
/-- The flags of an answer. -/
def answerFlags (a : MgmtAnswer) : Nat := b2n a.args.force + 2 * b2n a.repeat_ + 4 * b2n a.more
/-- A message cut in packets of at most 128 granules, each opened by a granule with its `PKT_TYPE`, piece number and leaf serial (R529). -/
def mgmtPackets (ty serial : Nat) (msg : Bytes) : List (List Granule) :=
  let gs := granules msg
  let ps := chunks 127 (gs.length + 1) gs
  (List.range ps.length).map (fun i => plain (lay [⟨0, 8, ty⟩, ⟨8, 24, i⟩, ⟨32, 24, ps.length⟩, ⟨56, 64, serial⟩]) :: ((ps[i]?).getD []).map plain)
/-- Send packets on port d. -/
def leafSendAll (l : Leaf) (d vc : Nat) (ps : List (List Granule)) : Leaf := ps.foldl (fun a gs => leafSend a d vc gs) l
/-- Answer a relayed command on the domain that relayed it (R529). -/
def leafMgmtAnswer (d : Nat) (a : MgmtAnswer) (l : Leaf) : Leaf :=
  leafSendAll l d 3 (mgmtPackets 0x71 l.serial (mgmtHeader 1 0 (answerFlags a) a.args.cmd a.status a.body.length a.id a.accepted ++ a.body))
/-- The general refusals of a relayed command that come before ID_CONFLICT, in their order (R527, R530): an unknown code; ID 0, or a body out of
range. -/
def relayStatus (id cmd : Nat) (b : Bytes) : Nat :=
  if !([cmSummary, cmFence, cmRestore, cmTest, cmInject, cmDebug, cmDebugLock, cmAlarmClear, cmHistRead, cmHistClear].contains cmd) then stBadCommand
  else if id = 0 || (decide (cmd = cmTest) && decide (bf b 12 1 = 0)) || (decide (cmd = cmHistRead) && (histRead 512 (bf b 8 4) (bf b 12 4) {}).isNone)
  then stBadArgs else 0
/-- A relayed command reaches the leaf from domain d (R437, R528, R529): a held ID is answered from what is held, and ID 0 is refused. -/
def leafRelay (d id cmd : Nat) (force : Bool) (b : Bytes) (l : Leaf) : Leaf :=
  let args : MgmtArgs := { cmd := cmd, force := force, body := b }
  let now := fun (st : Nat) => leafMgmtAnswer d { id := id, args := args, status := st, accepted := leafNs l } l
  let st := relayStatus id cmd b
  if id = 0 then now st
  else
  match heldOf id args l.answers with
  | .again a => leafMgmtAnswer d { a with repeat_ := true } l
  | .conflict => now (if st ≠ 0 then st else stIdConflict)
  | .fresh =>
    let r := leafCommand id cmd force b l
    let a : MgmtAnswer := { id := id, args := args, status := r.status, body := r.body, accepted := leafNs l, heldAt := l.time.clock }
    leafMgmtAnswer d a { r.unit with answers := (a :: r.unit.answers).take 64 }

end Sys2Proof.Machine
end

