-- ==== Sys2Proof/Machine/ChanWords.lean ====
section
/-! DEFINITION. Page 0 of a channel's summary as registers by offset (R533), and access to them (R12, R534). -/
namespace Sys2Proof.Machine

/-! ### Words that only the summary forms -/
/-- Any port for which a Boolean holds. -/
def anyPort (c : Chan) (f : Port → Bool) : Bool := c.ports.any (fun x => f x.2)
/-- The `ALARMS` word (R533). -/
def alarmsWord (c : Chan) : Word :=
  layW [⟨0, 1, b2n (decide (c.shv.eng.degraded ≠ 0))⟩, ⟨1, 1, b2n c.gran.degraded⟩, ⟨2, 1, b2n (c.clk.refs.any (fun r => r.2.disagree))⟩,
    ⟨3, 1, b2n c.clk.hold.entered.isSome⟩, ⟨4, 1, b2n c.clk.mill.leadLost⟩, ⟨5, 1, b2n c.sec.keyless⟩, ⟨6, 1, b2n c.sec.locked⟩,
    ⟨7, 1, b2n (decide (c.start.phase = 4))⟩, ⟨8, 1, b2n (anyPort c Port.spanOver)⟩, ⟨9, 1, b2n (!c.bundleBad.isEmpty)⟩,
    ⟨10, 1, b2n (!c.clk.hold.warm)⟩, ⟨11, 1, b2n c.history.full⟩, ⟨12, 1, b2n c.posMismatch⟩,
    ⟨13, 1, b2n (c.series.any Series.standing)⟩, ⟨14, 1, b2n (anyPort c Port.fallback)⟩,
    ⟨15, 1, b2n (anyPort c (fun p => p.key.unauthenticated && decide (p.state = .up)))⟩,
    ⟨16, 1, b2n (hasSource c && decide (c.clk.loop.state ≠ .locked))⟩]
/-- `THRESH_STATUS` (R289). -/
def threshWord (c : Chan) : Word := layW [⟨0, 1, b2n c.shv.eng.saturated⟩, ⟨8, 8, satN 255 (queueFill c)⟩]
/-- A map of the units below `n` that work. -/
def workMap (n : Nat) (f : Nat → Bool) : Nat := ((List.range n).map (fun i => if f i then 2 ^ i else 0)).sum
/-- `ENGINE_MAP`, `ENGINE_AUX`, `CAPACITY_STATUS`, `BLOCK_STATS` (R329). -/
def engineMapWord (c : Chan) : Word := BitVec.ofNat 64 (workMap 64 (thresherWorks c))
def engineAuxWord (c : Chan) : Word :=
  layW [⟨0, 16, workMap 16 (digestWorks c)⟩, ⟨16, 16, workMap 16 (writerWorks c)⟩, ⟨32, 4, workMap 4 (clusterWorks c)⟩]
def capacityWord (c : Chan) : Word :=
  let e := c.shv.eng
  layW [⟨0, 7, (workingThreshers c).length⟩, ⟨7, 1, b2n (decide (e.degraded ≠ 0))⟩, ⟨8, 2, e.degraded⟩, ⟨16, 8, e.loadPct⟩]
def blockWord (c : Chan) : Word := layW [⟨0, 16, satN 65535 c.shv.eng.p1Block⟩, ⟨16, 16, satN 65535 c.shv.eng.refresh⟩]
/-- Retention in seconds: the age of the oldest record of the ring (R359). -/
def retainS (c : Chan) : Nat :=
  match c.gran.recs.getLast? with | some r => satN (2 ^ 32 - 1) ((chanNs c - r.at_) / nsSec) | none => 0
/-- `GRANARY_STATUS`, `GRANARY_LOAD`, `GRANARY_REGIONS` (R359). -/
def granaryStatusWord (c : Chan) : Word :=
  layW [⟨0, 1, b2n c.gran.degraded⟩, ⟨1, 1, b2n c.gran.formattedAtStart⟩, ⟨2, 1, b2n c.gran.unsigned⟩,
    ⟨16, 16, workMap 16 (fun s => !c.gran.lostStacks.contains s)⟩, ⟨32, 32, retainS c⟩]
def granaryLoadWord (c : Chan) : Word := layW [⟨0, 32, projS c⟩, ⟨32, 32, satN (2 ^ 32 - 1) (loadRate c / 1000)⟩]
def granaryRegionsWord (c : Chan) : Word :=
  let left := ((workingStacks c).map (fun s => 12 - tabGet 0 c.gran.sparesUsed s)).sum
  layW [⟨0, 12, ringRegions c⟩, ⟨12, 8, left⟩, ⟨20, 12, c.gran.retired⟩, ⟨32, 8, c.start.policy.retainMin⟩]
/-- `CODE_STATUS` and `DOWN_FALLBACK_MAP` (R379). -/
def chanCodeWord (c : Chan) : Word :=
  layW [⟨0, 16, workMap 16 (fun k => (chanPort c (256 + k)).fallback)⟩, ⟨16, 1, b2n c.code.selftestFail⟩,
    ⟨17, 7, if c.glean.granary then c.glean.read * 100 / max 1 (granaryGrans c) else 0⟩]
def downFallWord (c : Chan) (i : Nat) : Word := BitVec.ofNat 64 (workMap 64 (fun k => (chanPort c (64 * i + k)).fallback))
/-- The word of a stack (R533): the highest level of its regions' buckets, the first such region, and how many stand at 16 or above. -/
def stackWord (c : Chan) (s : Nat) : Word :=
  let l := (List.range 192).map (fun r => (r, (tabGet {} c.gran.regions (192 * s + r)).bucket.level))
  let top := l.foldl (fun (a : Nat × Nat) x => if a.2 < x.2 then x else a) (0, 0)
  layW [⟨0, 6, top.2⟩, ⟨8, 12, top.1⟩, ⟨20, 12, (l.filter (fun x => decide (16 ≤ x.2))).length⟩]
/-- The two words of a sheaf entry (R533). -/
def sheafWord (c : Chan) (s : Sheaf) (second : Bool) : Word :=
  if second then layW [⟨0, 48, s.oldest⟩, ⟨48, 16, s.rc.toNat⟩]
  else
    let out := (s.members.filter (fun m => decide (m.state = .fenced ∨ m.state = .lost))).length
    layW [⟨0, 32, s.tag⟩, ⟨32, 3, stateCode s.state⟩, ⟨35, 2, if s.isApex then s.level else 0⟩, ⟨37, 1, b2n (sheafStrict c s)⟩,
      ⟨38, 1, b2n (s.gens.any (fun g => decide (g.passed = some true) && !genDone g))⟩, ⟨40, 19, out⟩]
/-- The mill word (R533). -/
def millWord (c : Chan) : Word :=
  layW [⟨0, 1, b2n c.clk.mill.settled⟩, ⟨1, 1, b2n (isMill c.clk && decide (c.clk.domain = 0))⟩, ⟨2, 1, b2n c.clk.mill.leadLost⟩,
    ⟨3, 1, b2n c.clk.time.slewing⟩]
/-- The domain as `FREQ_PPT` shows it: the source drives the counter, so that I stands for f̂ (R184). -/
def srcShown (d : DomLoop) : DomLoop := { d with freq := d.integ }

/-! ### Counters by offset (R69, R70, R533) -/
/-- A counter of page 0: its value, and the channel with it cleared. -/
structure CtrAt where
  val   : Ctr
  unit_ : Chan
/-- The counter at an offset, if one stands there. -/
def chanCtr (off : Nat) (c : Chan) : Option CtrAt :=
  let e := c.shv.eng
  let eng := fun (v : Ctr) (x : Engines) => some ({ val := v, unit_ := { c with shv := { c.shv with eng := x } } } : CtrAt)
  let gr := fun (v : Ctr) (x : Granary) => some ({ val := v, unit_ := { c with gran := x } } : CtrAt)
  let co := fun (v : Ctr) (x : CodeRegs) => some ({ val := v, unit_ := { c with code := x } } : CtrAt)
  if 0x1000 ≤ off ∧ off < 0x9800 ∧ 0x40 ≤ off % 0x80 then
    let p := (off - 0x1000) / 0x80
    let k := (off % 0x80 - 0x40) / 8
    some { val := (portCounters (chanPort c p)).getD k {}, unit_ := setChanPort c p (portCtrClear (chanPort c p) k) }
  else if 0x200 ≤ off ∧ off < 0x600 ∧ (off % 0x40 = 0x20 ∨ off % 0x40 = 0x28) then
    let n := (off - 0x200) / 0x40
    let o := outAt c.clk n
    if off % 0x40 = 0x20 then some { val := o.skipped, unit_ := { c with clk := setOut c.clk n { o with skipped := {} } } }
    else some { val := o.cfgBad, unit_ := { c with clk := setOut c.clk n { o with cfgBad := {} } } }
  else
    match off with
    | 0x00D8 => some { val := c.clk.loop.coastCtr, unit_ := { c with clk := { c.clk with loop := { c.clk.loop with coastCtr := {} } } } }
    | 0x0198 => some { val := c.clk.sel.commits, unit_ := { c with clk := { c.clk with sel := { c.clk.sel with commits := {} } } } }
    | 0x01A0 => some { val := c.clk.sel.aborts, unit_ := { c with clk := { c.clk with sel := { c.clk.sel with aborts := {} } } } }
    | 0x0608 => eng e.passGens { e with passGens := {} }
    | 0x0610 => eng e.partDiscard { e with partDiscard := {} }
    | 0x0618 => eng e.ovfLanes { e with ovfLanes := {} }
    | 0x0620 => eng e.poisonLanes { e with poisonLanes := {} }
    | 0x0648 => eng e.stealCore { e with stealCore := {} }
    | 0x0650 => eng e.stealCluster { e with stealCluster := {} }
    | 0x0658 => eng e.stealRemote { e with stealRemote := {} }
    | 0x0660 => eng e.residueErr { e with residueErr := {} }
    | 0x0668 => eng e.rerunFail { e with rerunFail := {} }
    | 0x0670 => eng e.stretch { e with stretch := {} }
    | 0x0678 => eng e.promote { e with promote := {} }
    | 0x06A8 => gr c.gran.torn { c.gran with torn := {} }
    | 0x06B0 => gr c.gran.lateDrop { c.gran with lateDrop := {} }
    | 0x06B8 => gr c.gran.switches { c.gran with switches := {} }
    | 0x06C0 => gr c.gran.gaps { c.gran with gaps := {} }
    | 0x06C8 => gr c.gran.packRefused { c.gran with packRefused := {} }
    | 0x0730 => co c.code.corrected { c.code with corrected := {} }
    | 0x0738 => co c.code.uncorrectable { c.code with uncorrectable := {} }
    | 0x0740 => co c.code.misdirected { c.code with misdirected := {} }
    | 0x0748 => co c.code.poisonSeen { c.code with poisonSeen := {} }
    | 0x0750 => co c.code.parityErr { c.code with parityErr := {} }
    | 0x0758 => co c.code.scrubRace { c.code with scrubRace := {} }
    | 0x0798 => some { val := c.shadowFails, unit_ := { c with shadowFails := {} } }
    | 0x07A0 => some { val := c.localShadow, unit_ := { c with localShadow := {} } }
    | 0x07A8 => some { val := c.mmNotices, unit_ := { c with mmNotices := {} } }
    | 0x07B0 => some { val := c.pathSweeps, unit_ := { c with pathSweeps := {} } }
    | _ => none

/-! ### Words by offset (R533) -/
/-- Word i of a granule. -/
def gran64 (g : Gran) (i : Nat) : Word := BitVec.ofNat 64 (bitsOf g.toNat (64 * i + 63) (64 * i))
/-- A port's words below its counters. -/
def portPageWord (p : Port) (o : Nat) : Word :=
  match o with
  | 0x00 => linkStatusWord p
  | 0x08 => layW [⟨0, 40, p.delayA⟩]
  | 0x10 => layW [⟨0, 40, p.delayB⟩]
  | 0x18 => linkOpticsWord p
  | 0x20 => linkKeyWord p
  | 0x28 => bucketWord p.bucket
  | 0x30 => BitVec.ofNat 64 p.forecast
  | 0x38 => BitVec.ofNat 64 p.far.serial
  | _ => 0#64
/-- An output's words. -/
def outPageWord (c : ChanClock) (o : Output) (n k : Nat) : Word :=
  match k with
  | 0x00 => outCfgWord o.cfg
  | 0x08 => outPeriodWord { o.cfg with period := outPeriod n o.cfg }
  | 0x10 => outOffsetWord o.cfg
  | 0x18 => outStatusWord c o
  | _ => 0#64
/-- A reference's words. -/
def refPageWord (c : Chan) (r k : Nat) : Word :=
  match k with
  | 0x00 => refCfgWord (refAt c.clk r)
  | 0x08 => refStatusWord c.clk r
  | 0x10 => refHistWord (refAt c.clk r)
  | _ => refMeasWord (refAt c.clk r)
/-- The words that stand alone. -/
def plainPageWord (c : Chan) (off : Nat) : Word :=
  let t := c.clk.time
  match off with
  | 0x0000 => layW [⟨0, 32, 0x4D555343⟩, ⟨32, 8, 1⟩, ⟨40, 2, c.clk.role⟩, ⟨42, 1, c.clk.domain⟩]
  | 0x0008 => BitVec.ofNat 64 t.ns
  | 0x0010 => layW [⟨0, 16, c.sumSeq⟩, ⟨16, 13, (openSilos c).length⟩, ⟨29, 1, b2n (decide (1664 < (openSilos c).length))⟩]
  | 0x0018 => BitVec.ofNat 64 c.tele.stream
  | 0x0020 => BitVec.ofNat 64 (c.tele.next + 2 ^ 64 - 1)
  | 0x0028 => BitVec.ofNat 64 c.serial
  | 0x0030 => BitVec.ofNat 64 c.modSerial
  | 0x0038 => layW [⟨0, 32, chanFpa c⟩, ⟨32, 8, c.start.unitVersion⟩, ⟨40, 4, c.start.semVersion⟩]
  | 0x0040 => alarmsWord c
  | 0x0048 => startStatusWord c.start
  | 0x0050 => BitVec.ofNat 64 c.start.imageSeq
  | 0x0058 => gran64 c.start.imageDigest 0
  | 0x0060 => gran64 c.start.imageDigest 1
  | 0x0068 => gran64 c.start.imageDigest 2
  | 0x0070 => gran64 c.start.imageDigest 3
  | 0x0078 => stepDeltaWord t 2
  | 0x0080 => BitVec.ofNat 64 t.pod
  | 0x0088 => layW [⟨0, 16, t.pod / 2 ^ 64⟩, ⟨16, 1, b2n t.saturated⟩]
  | 0x0090 => utcWord t
  | 0x0098 => BitVec.ofNat 64 t.epochBase
  | 0x00A0 => leapWord t
  | 0x00A8 => stepAtWord t 0
  | 0x00B0 => stepDeltaWord t 0
  | 0x00B8 => stepInfoWord t
  | 0x00C0 => domStatusWord (hasSource c) c.clk.loop
  | 0x00C8 => domOffsetWord (srcShown c.clk.loop)
  | 0x00D0 => domRttWord c.clk.loop
  | 0x00E0 => millWord c
  | 0x00E8 => stepAtWord t 1
  | 0x00F0 => stepDeltaWord t 1
  | 0x00F8 => stepAtWord t 2
  | 0x0180 => selCfgWord c.clk
  | 0x0188 => switchWord c.clk
  | 0x0190 => BitVec.ofNat 64 (ofSigned 64 c.clk.sel.delta)
  | 0x01A8 => holdStatusWord c.clk
  | 0x01B0 => holdModelWord c.clk.hold
  | 0x01B8 => gnssWord c.clk.gnss
  | 0x0600 => threshWord c
  | 0x0628 => engineMapWord c
  | 0x0630 => engineAuxWord c
  | 0x0638 => capacityWord c
  | 0x0640 => blockWord c
  | 0x0680 => granaryStatusWord c
  | 0x0688 => granaryLoadWord c
  | 0x0690 => granaryRegionsWord c
  | 0x0698 => BitVec.ofNat 64 c.gran.nextSeq
  | 0x06A0 => BitVec.ofNat 64 c.gran.rootLast
  | 0x0700 => chanCodeWord c
  | 0x0708 => downFallWord c 0
  | 0x0710 => downFallWord c 1
  | 0x0718 => downFallWord c 2
  | 0x0720 => downFallWord c 3
  | 0x0728 => BitVec.ofNat 64 c.glean.lastPass
  | 0x0780 => secStatusWord (chanClock c) c.sec
  | 0x0788 => secHistWord c.sec
  | 0x0790 => histSummary c.history
  | 0x0A20 => bucketWord c.code.flashBucket
  | _ => 0#64
/-- The word at an offset of page 0. Every word not listed is reserved and reads as zero. -/
def chanWord (c : Chan) (off : Nat) : Word :=
  match chanCtr off c with
  | some k => ctrWord k.val
  | none =>
    if 0x9800 ≤ off then
      match (openSilos c)[(off - 0x9800) / 16]? with
      | some s => sheafWord c s (decide (off % 16 = 8))
      | none => 0#64
    else if 0x1000 ≤ off then portPageWord (chanPort c ((off - 0x1000) / 0x80)) (off % 0x80)
    else if 0x0C00 ≤ off ∧ off < 0x0E00 then tdcStatusWord (chanTdc c ((off - 0x0C00) / 8))
    else if 0x0A40 ≤ off ∧ off < 0x0AC0 then stackWord c ((off - 0x0A40) / 8)
    else if 0x0A00 ≤ off ∧ off < 0x0A20 then bucketWord (tabGet {} c.buckets (64 + (off - 0x0A00) / 8))
    else if 0x0800 ≤ off ∧ off < 0x0A00 then bucketWord (tabGet {} c.buckets ((off - 0x0800) / 8))
    else if 0x0200 ≤ off ∧ off < 0x0600 then
      let n := (off - 0x200) / 0x40
      outPageWord c.clk (outAt c.clk n) n (off % 0x40)
    else if 0x0100 ≤ off ∧ off < 0x0180 then refPageWord c ((off - 0x100) / 0x20) (off % 0x20)
    else plainPageWord c off
/-- What a register read clears (R14, R534): a counter, `BLOCK_STATS`, a TDC's `LOSS_COUNT`. -/
def chanReadClear (off : Nat) (c : Chan) : Chan :=
  match chanCtr off c with
  | some k => k.unit_
  | none =>
    if off = 0x0640 then { c with shv := { c.shv with eng := { c.shv.eng with p1Block := 0, refresh := 0 } } }
    else if 0x0C00 ≤ off ∧ off < 0x0E00 then
      let n := (off - 0x0C00) / 8
      setChanTdc c n { chanTdc c n with lossCount := 0 }
    else c

/-! ### Writes (R12, R217, R534) -/
/-- The bits a write may reach at an offset, and whether they are `RWL`. -/
def writeMask (off : Nat) : Nat × Bool :=
  let bits := fun (hi lo : Nat) => 2 ^ (hi + 1) - 2 ^ lo
  if 0x1000 ≤ off ∧ off < 0x9800 then (if off % 0x80 = 0x28 then 0x80 else 0, false)
  else if 0x0C00 ≤ off ∧ off < 0x0E00 then (4, false)
  else if 0x0800 ≤ off ∧ off ≤ 0x0A20 then (0x80, false)
  else if 0x0200 ≤ off ∧ off < 0x0600 then
    (match off % 0x40 with
     | 0x00 => bits 5 0 + bits 37 8
     | 0x08 => if (off - 0x200) / 0x40 < 4 then 0 else bits 39 0
     | 0x10 => bits 39 0
     | 0x18 => 0x8C
     | _ => 0, false)
  else if 0x0100 ≤ off ∧ off < 0x0180 then
    (match off % 0x20 with
     | 0x00 => (bits 5 0 + bits 39 8 + bits 55 40, true)
     | 0x10 => (bits 4 0 + bits 12 8, false)
     | _ => (0, false))
  else if off = 0x0180 then (bits 12 0, true)
  else if off = 0x0690 then (bits 39 32, true)
  else if off = 0x0788 then (bits 9 1 + bits 25 17, false)
  else (0, false)
/-- Write an output's fields; an accepted offset is due to be saved (R217, R462). -/
def outRegWrite (n k v : Nat) (c : Chan) : Chan :=
  let g := (outAt c.clk n).cfg
  let h := match k with
    | 0x00 => outCfgOf v g.period (ofSigned 40 g.offset)
    | 0x08 => { g with period := bitsOf v 39 0 }
    | _ => { g with offset := toSigned 40 (bitsOf v 39 0) }
  let c1 := { c with clk := outWrite n h c.clk }
  if k = 0x10 ∧ (outAt c1.clk n).cfg.offset ≠ g.offset then
    { c1 with start := userDue [{ typ := 6, key := n, data := leBytes 8 (bitsOf v 39 0) }] c1.start }
  else c1
/-- Clear a bucket's `OVF_SEEN`. -/
def bucketSeen (b : Bucket) : Bucket := { b with ovfSeen := false }
/-- The write itself: `m` are the mask's bits that a write may reach, `v` the value under them, `w` the whole new word of a `RW` register. -/
def chanRegPut (off m v : Nat) (c : Chan) : Chan :=
  let old := (chanWord c off).toNat
  let w := Nat.lor (Nat.land old (Nat.xor (2 ^ 64 - 1) m)) (Nat.land v m)
  let set := Nat.land v m
  if 0x1000 ≤ off then
    let p := (off - 0x1000) / 0x80
    if set = 0 then c else setChanPort c p { chanPort c p with bucket := bucketSeen (chanPort c p).bucket }
  else if 0x0C00 ≤ off then
    let n := (off - 0x0C00) / 8
    if set = 0 then c else setChanTdc c n { chanTdc c n with fault := false }
  else if off = 0x0A20 then if set = 0 then c else { c with code := { c.code with flashBucket := bucketSeen c.code.flashBucket } }
  else if 0x0800 ≤ off then if set = 0 then c else { c with buckets := tabUpd {} c.buckets ((off - 0x0800) / 8) bucketSeen }
  else if off = 0x0788 then
    { c with sec := { c.sec with hist := Nat.land c.sec.hist (Nat.xor (2 ^ 64 - 1) (Nat.land set 0x3FE)), histEn := bitsOf w 25 17 } }
  else if off = 0x0690 then { c with start := { c.start with policy := { c.start.policy with retainMin := bitsOf w 39 32 } } }
  else if 0x0200 ≤ off then
    let n := (off - 0x200) / 0x40
    if off % 0x40 = 0x18 then
      let o := outAt c.clk n
      { c with clk := setOut c.clk n { o with shortSeen := o.shortSeen && !set.testBit 2, openSeen := o.openSeen && !set.testBit 3,
                                              driftSeen := o.driftSeen && !set.testBit 7 } }
    else outRegWrite n (off % 0x40) w c
  else if off = 0x0180 then { c with clk := { c.clk with revertive := w.testBit 0, wtrS := bitsOf w 12 1 } }
  else
    let r := (off - 0x100) / 0x20
    let x := refAt c.clk r
    if off % 0x20 = 0x10 then
      chanClk (refHistEnabled r x.histEn)
        { c with clk := setRef c.clk r { x with hist := Nat.land x.hist (Nat.xor 0x1F (Nat.land set 0x1F)), histEn := bitsOf w 12 8 } }
    else
      let y := refOf w
      { c with clk := clkOwnTdcs (setRef c.clk r { x with enable := y.enable, priority := y.priority, pair := y.pair, cable := y.cable,
                                                          jumpNs := y.jumpNs, state := if y.enable = x.enable then x.state else y.state }) }
/-- `REG_WRITE` (R534): the channel, and the status. -/
def chanRegWrite (off v mask : Nat) (c : Chan) : Chan × Nat :=
  let k := writeMask off
  let m := Nat.land mask k.1
  if m = 0 then (c, 0x0A)
  else if k.2 && c.start.cfgLocked then ({ c with lockedWrite := ctrInc c.lockedWrite }, 0x0A)
  else (chanRegPut off m v c, 0)

/-! ### Snapshots (R532) -/
/-- Snapshots held 60 s of the channel's own clock, the last four. -/
def snapsHeld (c : Chan) : List Snap := (c.snaps.filter (fun s => decide (chanClock c < s.at_ + 60 * nsSec))).take 4
/-- Page 0 as at this edge. -/
def pageWords (c : Chan) : List Word := (List.range 8192).map (fun i => chanWord c (8 * i))
/-- The entries of page 1. -/
def page1Words (c : Chan) : List Word := ((openSilos c).drop 1664).flatMap (fun s => [sheafWord c s false, sheafWord c s true])
/-- Words as bytes. -/
def wordBytes (l : List Word) : Bytes := l.flatMap (fun w => leBytes 8 w.toNat)
/-- A snapshot is taken (R532); `SUM_SEQ` counts modulo 2^16. -/
def chanSnapshot (c : Chan) : Chan × Bytes :=
  let c1 := { c with sumSeq := (c.sumSeq + 1) % 65536 }
  let ws := pageWords c1
  let s : Snap := { seq := c1.sumSeq, page0 := tabWriteList 0#64 [] 0 ws, page1 := page1Words c1, at_ := chanClock c1 }
  ({ c1 with snaps := (s :: snapsHeld c1).take 4 }, wordBytes ws)
/-- Page 1 of a held snapshot. -/
def chanPage1 (seq : Nat) (c : Chan) : Option Bytes :=
  ((snapsHeld c).find? (fun s => decide (s.seq = seq))).map (fun s => wordBytes s.page1)

end Sys2Proof.Machine
end

