-- ==== Sys2Proof/Machine/ChanMgmt.lean ====
section
/-! DEFINITION. Management commands at a channel (R437, R439, R440, R454, R465, R477, R484, R525 to R540): held answers, the order of refusals,
what each command does, and commands relayed to leaves. -/
namespace Sys2Proof.Machine

/-! ### Acceptance (R437, R528, R530, R540) -/
/-- What a command did: the channel, the status, the answer body, whether more follows, and whether it is still running. -/
structure Ran where
  unit    : Chan
  status  : Nat := 0
  body    : Bytes := []
  more    : Bool := false
  running : Bool := false
/-- Which of the general refusals a command meets (R455, R481, R531). -/
structure Gate where
  /-- a channel in QUARANTINE answers it -/
  quar  : Bool := false
  /-- a standing LOCK refuses it -/
  lock  : Bool := false
  /-- it needs debug-unlocked state -/
  debug : Bool := false
/-- How a request is answered: from the held answers, or at once by a status that is not held (assumption 67). -/
inductive Reply where
  | held (again : Bool)
  | now (status : Nat)
  deriving DecidableEq, Repr
/-- The general refusals in their order (R530); `bad`: the body is out of range. A restart accepted before answers `BUSY` (R540). -/
def generalStatus (g : Gate) (bad : Bool) (c : Chan) : Nat :=
  if bad then 2
  else if c.restart.isSome then 4
  else if c.start.phase = 4 && !g.quar then 5
  else if c.sec.locked && g.lock then 6
  else if g.debug && !c.sec.debugOn then 7 else 0
/-- Answers are held for 24 h of the channel's own clock (R437). -/
def answersHeld (c : Chan) : List MgmtAnswer := c.answers.filter (fun a => a.running || decide (chanClock c < a.heldAt + nsDay))
/-- A request (R437, R528, R530, R540): its ID and arguments are compared with what is held; a fresh one meets the general refusals, runs, and
its answer is held. Every accepted command is audited (R342). -/
def chanCommand (cmd : Nat) (g : Gate) (bad : Bool) (id : Nat) (force : Bool) (body : Bytes) (f : Chan → Ran) (c : Chan) : Chan × Reply :=
  let args : MgmtArgs := { cmd := cmd, force := force, body := body }
  if id = 0 then (c, .now 2)
  else
    match heldOf id args c.answers with
    | .again _ => (c, .held true)
    | .conflict => (c, .now (if bad then 2 else 3))
    | .fresh =>
      let st := generalStatus g bad c
      if st = 4 then (c, .now 4)
      else
        let at_ := chanNs c
        let r : Ran := if st = 0 then f c else { unit := c, status := st }
        let u := if r.status = 0 then chanAudit r.unit none [id, cmd] else r.unit
        let a : MgmtAnswer := { id := id, args := args, status := r.status, body := r.body, accepted := at_, heldAt := chanClock u,
                                running := r.running, more := r.more }
        ({ u with answers := a :: answersHeld u }, .held false)
/-- A running command is answered (R181, R529). -/
def finishAnswer (id status : Nat) (body : Bytes) (c : Chan) : Chan :=
  { c with answers := c.answers.map (fun a =>
      if a.id = id && a.running then { a with running := false, status := status, body := body, heldAt := chanClock c } else a) }
/-- The leaf serial at the head of a body: zero for the channel itself (R531). -/
def serialOf (body : Bytes) : Nat := bf body 0 8

/-! ### Relayed commands (R529) -/
/-- The packets of a message to the leaf of a serial. -/
def relayPackets (serial cmd id : Nat) (force : Bool) (body : Bytes) : List (List Granule) :=
  mgmtPackets 0x70 serial (mgmtHeader 0 0 (b2n force) cmd 0 body.length id 0 ++ body)
/-- A command goes on to its leaf, or is answered `LEAF_UNKNOWN`; `extra` is what the channel streams behind the body. -/
def chanRelayOut (cmd id : Nat) (force : Bool) (body extra : Bytes) (c : Chan) : Ran :=
  match dirFind c (serialOf body) with
  | none => { unit := c, status := stLeafUnknown }
  | some d =>
    let c1 := (relayPackets (serialOf body) cmd id force (body ++ extra)).foldl (fun (a : Chan) k => chanSend a (portToward c d.2.1) 3 k) c
    let r : Relay := { id := id, serial := serialOf body, session := 0, args := { cmd := cmd, force := force, body := body }, accepted := chanClock c }
    { unit := { c1 with relays := c1.relays ++ [r] }, running := true }
/-- A `MGMT_RELAY` packet on its way through a channel: down toward the serial its opening granule names (assumption 5). -/
def chanRelayPass (gs : List Granule) (c : Chan) : Chan :=
  match dirFind c (gf (gs.headD {}).data 119 56) with
  | some d => chanSend c (portToward c d.2.1) 3 gs
  | none => c
/-- The answer of a relayed test order: an accepted one is awaited (R420). -/
def testAwait (r : Relay) (status : Nat) (c : Chan) : Chan :=
  if r.args.cmd = cmTest ∧ status = 0 then { c with testWaits := c.testWaits ++ [{ id := r.id, serial := r.serial, at_ := chanClock c }] } else c
/-- A `MGMT_ANSWER` packet arrives (R529): the channel that relayed the command gathers the pieces and answers; another passes it up. -/
def chanMgmtAnswer (gs : List Granule) (c : Chan) : Chan :=
  let g := (gs.headD {}).data
  let serial := gf g 119 56
  let bytes := (gs.drop 1).flatMap (fun x => granBytes x.data)
  match c.relays.find? (fun r => decide (r.serial = serial) && (decide (0 < r.body.length) || (decide (gf g 31 8 = 0) && decide (bf bytes 16 8 = r.id)))) with
  | none => chanSendUp c 3 gs
  | some r =>
    let all := r.body ++ bytes
    if gf g 31 8 + 1 < gf g 55 32 then
      { c with relays := c.relays.map (fun x => if x.id = r.id then { x with body := all } else x) }
    else
      let c1 := { c with relays := c.relays.filter (fun x => decide (x.id ≠ r.id)) }
      let st := bf all 10 2
      finishAnswer r.id st ((all.drop 32).take (bf all 12 4)) (testAwait r st c1)
/-- No answer within 1 s (R529). -/
def chanNoAnswer (id : Nat) (c : Chan) : Chan :=
  chanAtClock (fun x => (x.relays.find? (fun r => decide (r.id = id))).map (fun r => r.accepted + nsSec))
    (fun x => finishAnswer id stLeafNoAnswer [] { x with relays := x.relays.filter (fun r => decide (r.id ≠ id)) }) c
/-- A leaf-capable command: on a leaf's serial it is relayed, on zero the channel runs it. -/
def leafOr (cmd id : Nat) (force : Bool) (body : Bytes) (f : Chan → Ran) (c : Chan) : Ran :=
  if serialOf body = 0 then f c else chanRelayOut cmd id force body [] c
/-- The general refusals of such a command are the channel's only where it runs it. -/
def leafGate (body : Bytes) (g : Gate) : Gate := if serialOf body = 0 then g else {}

/-! ### Summary, registers, history, logs (R531 to R536) -/
def runSummary (c : Chan) : Ran :=
  let r := chanSnapshot c
  { unit := r.1, body := r.2 }
def mgmtSummary (id serial : Nat) (c : Chan) : Chan × Reply :=
  let b := leBytes 8 serial ++ leBytes 2 0
  chanCommand cmSummary { quar := decide (serial = 0) } false id false b (leafOr cmSummary id false b runSummary) c
def runPage1 (seq : Nat) (c : Chan) : Ran :=
  match chanPage1 seq c with
  | some x => { unit := c, body := x }
  | none => { unit := c, status := stSummaryGone }
def mgmtPage1 (id seq : Nat) (c : Chan) : Chan × Reply :=
  chanCommand cmSummary { quar := true } false id false (leBytes 8 0 ++ leBytes 2 1 ++ leBytes 2 seq) (runPage1 seq) c
/-- Read `n` words (R534): all on one edge, then what the read clears; an event of that edge comes after it (R14, assumption 74). -/
def runRegRead (off n : Nat) (c : Chan) : Ran :=
  let offs := (List.range n).map (fun i => off + 8 * i)
  { unit := chanEdgeWith (fun x => offs.foldl (fun (a : Chan) o => chanReadClear o a) x) c, body := wordBytes (offs.map (chanWord (chanOnEdge c))) }
def mgmtRegRead (id off n : Nat) (c : Chan) : Chan × Reply :=
  let bad := decide (off % 8 ≠ 0) || decide (n = 0) || decide (512 < n) || decide (65536 < off + 8 * n)
  chanCommand 2 {} bad id false (leBytes 4 off ++ leBytes 4 n) (runRegRead off n) c
/-- Write a word (R534), on an edge; a bit that an event of the edge sets stays set (R13, assumption 74). The answer is the word after the write. -/
def runRegWrite (off v mask : Nat) (c : Chan) : Ran :=
  let r := chanRegWrite off v mask (chanOnEdge c)
  { unit := chanEdgeWith (fun x => (chanRegWrite off v mask x).1) c, status := r.2,
    body := if r.2 = 0 then leBytes 8 (chanWord r.1 off).toNat else [] }
def mgmtRegWrite (id off v mask : Nat) (c : Chan) : Chan × Reply :=
  let bad := decide (off % 8 ≠ 0) || decide (65536 ≤ off)
  chanCommand 3 { lock := true } bad id false (leBytes 8 off ++ leBytes 8 v ++ leBytes 8 mask) (runRegWrite off v mask) c
def runHistRead (first count : Nat) (c : Chan) : Ran :=
  match histRead 4096 first count c.history with
  | some x => { unit := c, body := x }
  | none => { unit := c, status := stBadArgs }
def mgmtHistRead (id serial first count : Nat) (c : Chan) : Chan × Reply :=
  let b := leBytes 8 serial ++ leBytes 4 first ++ leBytes 4 count
  chanCommand cmHistRead { quar := decide (serial = 0) } false id false b (leafOr cmHistRead id false b (runHistRead first count)) c
def runHistClear (path : Nat) (c : Chan) : Ran := { unit := { c with history := histClear path c.history } }
def mgmtHistClear (id serial path : Nat) (c : Chan) : Chan × Reply :=
  let b := leBytes 8 serial ++ leBytes 8 path
  chanCommand cmHistClear (leafGate b { lock := true, debug := true }) false id false b (leafOr cmHistClear id false b (runHistClear path)) c
/-- Whole records in ascending order up to a byte limit; second, whether some were left out. -/
def takeRecs : Nat → List Rec → Bytes × Bool
  | _, [] => ([], false)
  | n, r :: rs => if recBytes r ≤ n then let x := takeRecs (n - recBytes r) rs; (recAll r ++ x.1, x.2) else ([], true)
/-- The records of an area (R536). -/
def logArea (area tag : Nat) (c : Chan) : List Rec :=
  if area = 0 then c.gran.logs.filter (fun r => decide (r.typ = 4 ∨ r.typ = 5))
  else if area = 1 then c.gran.recs.filter (fun r => decide (r.tag = tag)) else c.gran.roots
def runLogRead (area tag first limit : Nat) (c : Chan) : Ran :=
  let l := ((logArea area tag c).filter (fun r => decide (first ≤ r.seq))).reverse
  let x := takeRecs limit l
  { unit := c, body := x.1, more := x.2 }
def mgmtLogRead (id area tag first limit : Nat) (c : Chan) : Chan × Reply :=
  let b := leBytes 4 area ++ leBytes 4 tag ++ leBytes 8 first ++ leBytes 4 limit
  chanCommand 0x62 {} (decide (2 < area) || decide (1048576 < limit)) id false b (runLogRead area tag first limit) c

/-! ### Time (R55, R180, R181) -/
/-- The notice of a `PHASE_STEP`. -/
def stepOf (utc : Bool) (delta : Int) (at_ : Nat) (count : BitVec 16) : Notice :=
  { target := if utc then .utc else .podTime, at_ := at_, delta := delta, count := count }
def stepBytes (utc : Bool) (delta : Int) (at_ : Nat) : Bytes := leBytes 8 (b2n utc) ++ leBytes 8 (ofSigned 64 delta) ++ leBytes 8 at_
def runPhaseStep (id : Nat) (utc : Bool) (delta : Int) (at_ : Nat) (c : Chan) : Ran :=
  let n := stepOf utc delta at_ (nextCount c.clk)
  if !isMill c.clk then { unit := c, status := stNotMill }
  else if isFollower c.clk then { unit := c, status := stNotLead }
  else
    let k := stepRefusal (strictHere c) n c.clk
    if k ≠ 0 then { unit := c, status := 0x100 + k }
    else
      let c1 := chanClk (issue n) c
      { unit := { c1 with passed := c1.passed ++ [{ id := id, count := n.count, at_ := chanClock c, cmd := true }], passQ := c1.passQ ++ [(id, n)] },
        body := leBytes 2 n.count.toNat, running := true }
def mgmtPhaseStep (id : Nat) (utc : Bool) (delta : Int) (at_ : Nat) (c : Chan) : Chan × Reply :=
  chanCommand 0x10 {} false id false (stepBytes utc delta at_) (runPhaseStep id utc delta at_) c
/-- `TIME_PASS` at the follower (R181, R537): a count not above its own changes nothing; the notice goes down its tree at once. DEDUCED (assumption
67): a channel that is no follower mill refuses it with `NOT_MILL`. -/
def runTimePass (n : Notice) (c : Chan) : Ran :=
  if !isFollower c.clk then { unit := c, status := stNotMill }
  else { unit := if serHigher n.count c.clk.time.stepCount && !noticeKnown c.clk.time n then chanTimeIssue n c else c }
where
  /-- issue a notice as the follower -/
  chanTimeIssue (n : Notice) (c : Chan) : Chan := chanClk (issue n) c
def mgmtTimePass (id : Nat) (utc : Bool) (delta : Int) (at_ count : Nat) (c : Chan) : Chan × Reply :=
  chanCommand 0x11 {} false id false (stepBytes utc delta at_ ++ leBytes 8 count) (runTimePass (stepOf utc delta at_ (BitVec.ofNat 16 count))) c
/-- The follower's confirmation reaches the lead (R181). -/
def chanConfirmed (id : Nat) (c : Chan) : Chan :=
  match c.passed.find? (fun p => decide (p.id = id)) with
  | none => c
  | some p =>
    let c1 := { c with passed := c.passed.filter (fun x => decide (x.id ≠ id)) }
    if p.cmd then finishAnswer id 0 (leBytes 2 p.count.toNat) c1 else c1
/-- 50 ms without one (R181). -/
def chanUnconfirmed (id : Nat) (c : Chan) : Chan :=
  let of := fun (x : Chan) => x.passed.find? (fun p => decide (p.id = id))
  chanAtClock (fun x => (of x).map (fun p => p.at_ + 50000000))
    (fun x =>
      let x2 := chanEv { x with passed := x.passed.filter (fun y => decide (y.id ≠ id)) } .followerUnconfirmed [id]
      match of x with
      | some p => if p.cmd then finishAnswer id stUnconfirmed (leBytes 2 p.count.toNat) x2 else x2
      | none => x2) c

/-! ### Sheaves (R258, R259, R531) -/
/-- Does the hall's tag directory hold the tag as open (R225, R531)? At the mill it stands here; for a barn or a yard `known` says so. -/
def tagKnown (tag : Nat) (known : Bool) (c : Chan) : Bool := if c.clk.role = 3 then decide (tabGet 0 c.shv.tags tag ≠ 0) else known
/-- `CLOSE`: at the apex here, else passed toward it, unless the hall's tag directory does not hold the tag as open. -/
def runClose (tag : Nat) (known : Bool) (c : Chan) : Ran :=
  match sheafOf c tag with
  | some s =>
    if s.state = .closed then { unit := c, status := stSheafUnknown }
    else if s.isApex then { unit := closeSheaf tag 2 c } else { unit := towardApex tag 1 [plain (forwardGran 1 tag 0 0)] c }
  | none => if tagKnown tag known c then { unit := towardApex tag 1 [plain (forwardGran 1 tag 0 0)] c } else { unit := c, status := stSheafUnknown }
def mgmtClose (id tag : Nat) (known : Bool) (c : Chan) : Chan × Reply := chanCommand 0x21 {} false id false (leBytes 4 tag) (runClose tag known) c
/-- `FORCE_ARRIVE`; `there`: what the apex finds, where it is another channel: 0 no open sheaf, 1 refused under R258, 2 accepted. -/
def runForceArrive (tag rank n : Nat) (there : Nat) (c : Chan) : Ran :=
  match sheafOf c tag with
  | some s =>
    if s.isApex then if forceArriveOk s rank n then { unit := chanForceArrive tag rank n c } else { unit := c, status := stBadArgs }
    else forceThere c
  | none => forceThere c
where
  /-- the apex is elsewhere -/
  forceThere (c : Chan) : Ran :=
    if there = 0 || !tagKnown tag true c then { unit := c, status := stSheafUnknown }
    else if there = 1 then { unit := c, status := stBadArgs } else { unit := towardApex tag 1 [plain (forwardGran 2 tag rank n)] c }
def mgmtForceArrive (id tag rank n there : Nat) (c : Chan) : Chan × Reply :=
  chanCommand 0x22 { debug := true } false id false (leBytes 4 tag ++ leBytes 4 rank ++ leBytes 8 n) (runForceArrive tag rank n there) c
def runForceRelease (tag n : Nat) (there : Nat) (c : Chan) : Ran :=
  match sheafOf c tag with
  | some s =>
    if s.isApex then if forceReleaseOk s n then { unit := chanForceRelease tag n c } else { unit := c, status := stBadArgs }
    else forceThere c
  | none => forceThere c
where
  /-- the apex is elsewhere -/
  forceThere (c : Chan) : Ran :=
    if there = 0 || !tagKnown tag true c then { unit := c, status := stSheafUnknown }
    else if there = 1 then { unit := c, status := stBadArgs } else { unit := towardApex tag 1 [plain (forwardGran 3 tag 0 n)] c }
def mgmtForceRelease (id tag n there : Nat) (c : Chan) : Chan × Reply :=
  chanCommand 0x23 { debug := true } false id false (leBytes 8 tag ++ leBytes 8 n) (runForceRelease tag n there) c

/-! ### Fences, tests, replay, injection (R353, R356, R419, R428, R439, R440) -/
def mgmtFence (id serial : Nat) (release : Bool) (c : Chan) : Chan × Reply :=
  let b := leBytes 8 serial ++ leBytes 8 (b2n release)
  chanCommand cmFence {} false id false b (chanRelayOut cmFence id false b []) c
/-- The channel streams the pack's bytes with the order, where it holds the pack (R419). -/
def runTest (id : Nat) (body : Bytes) (pack : Nat) (c : Chan) : Ran :=
  chanRelayOut cmTest id false body (match packOf c pack with | some p => p.bytes | none => []) c
def mgmtTest (id serial pack reps : Nat) (fence : Bool) (c : Chan) : Chan × Reply :=
  let b := leBytes 8 serial ++ leBytes 4 pack ++ leBytes 1 reps ++ leBytes 3 (b2n fence)
  chanCommand cmTest {} (decide (reps = 0)) id false b (runTest id b pack) c
/-- The last piece completes the command, which telemetry tells too (R531, R539). -/
def runPackLoad (id : Nat) (body : Bytes) (c : Chan) : Ran :=
  let r := chanPackLoad body c
  { unit := if r.2 = 0 ∧ bf body 8 1 % 2 = 1 then teleDone id 0 [] r.1 else r.1, status := r.2 }
def mgmtPackLoad (id off total : Nat) (last : Bool) (data : Bytes) (c : Chan) : Chan × Reply :=
  let b := leBytes 4 off ++ leBytes 4 total ++ leBytes 8 (b2n last) ++ data
  chanCommand 0x41 { lock := true } (decide (1048576 < data.length)) id false b (runPackLoad id b) c
def runReplay (id : Nat) (body : Bytes) (c : Chan) : Ran :=
  let b := replayBody body
  if replayDiffers c b then { unit := c, status := stReplayMismatch }
  else
    let r := chanReplay id body c
    { unit := r.1, body := leBytes 4 r.2 }
def mgmtReplay (id : Nat) (body : Bytes) (c : Chan) : Chan × Reply :=
  chanCommand 0x42 {} (decide (body.length < 72) || decide (1 < bf body 0 1)) id false body (runReplay id body) c
/-- Are an injection's arguments those of its kind (R439)? -/
def injTargetOk (kind arg arg2 : Nat) (c : Chan) : Bool :=
  match kind with
  | 1 => (portList c).contains arg
  | 2 => (portList c).contains arg && decide (arg2 < 2)
  | 6 => decide (arg < 64)
  | 7 => decide (arg < 4)
  | _ => true
/-- `INJECT` (R439, R440); `safe`: every leaf the fault would reach has its other domain LOCKED and no injection runs on that domain. -/
def runInject (id kind arg arg2 dur count : Nat) (force safe : Bool) (c : Chan) : Ran :=
  if !c.start.injectOk then { unit := c, status := stInjectDisabled }
  else if !force && !safe then { unit := c, status := stInjectUnsafe }
  else if kind = 8 then
    match dirFind c arg with
    | none => { unit := c, status := stLeafUnknown }
    | some d =>
      let c1 := injStart id kind arg arg2 dur count c
      { unit := (relayPackets arg cmInject id false (leBytes 8 arg)).foldl (fun (a : Chan) k => chanSend a (portToward c d.2.1) 3 k) c1 }
  else { unit := injStart id kind arg arg2 dur count c }
def injectBytes (kind arg arg2 dur count : Nat) (cancel : Bool) : Bytes :=
  leBytes 1 kind ++ leBytes 3 (b2n cancel) ++ leBytes 4 dur ++ leBytes 8 count ++ leBytes 8 arg ++ leBytes 8 arg2 ++ leBytes 8 0
def mgmtInject (id kind arg arg2 dur count : Nat) (force safe : Bool) (c : Chan) : Chan × Reply :=
  let bad := !injArgsOk kind dur count || !injTargetOk kind arg arg2 c
  chanCommand cmInject { lock := true, debug := force } bad id force (injectBytes kind arg arg2 dur count false)
    (runInject id kind arg arg2 dur count force safe) c
def runInjectCancel (target : Nat) (c : Chan) : Ran := { unit := injEnd target c }
def mgmtInjectCancel (id target : Nat) (c : Chan) : Chan × Reply :=
  chanCommand cmInject { lock := true } (!c.inj.any (fun i => decide (i.id = target))) id false (injectBytes 0 target 0 0 0 true) (runInjectCancel target) c

/-! ### Flash, restart, security (R454, R463, R465 to R467, R477, R481, R484, R540) -/
def runImageWrite (body : Bytes) (c : Chan) : Ran :=
  let r := chanImageWrite body c
  { unit := r.1, status := r.2.1, body := r.2.2 }
def mgmtImageWrite (id off : Nat) (last : Bool) (data : Bytes) (c : Chan) : Chan × Reply :=
  let b := leBytes 4 off ++ leBytes 4 (b2n last) ++ data
  chanCommand 0x31 { quar := true, lock := true } (decide (1048576 < data.length) || decide (0x400000 < off + data.length)) id false b (runImageWrite b) c
def runCalWrite (body : Bytes) (c : Chan) : Ran :=
  let r := chanCalWrite body c
  { unit := r.1, status := r.2 }
def mgmtCalWrite (id : Nat) (body : Bytes) (c : Chan) : Chan × Reply := chanCommand 0x32 { lock := true } false id false body (runCalWrite body) c
def runArm (c : Chan) : Ran :=
  let m := chanArm c
  { unit := m, body := leBytes 2 (m.start.armed.getD 0) }
def mgmtArm (id serial : Nat) (c : Chan) : Chan × Reply :=
  let b := leBytes 8 serial ++ leBytes 2 0 ++ leBytes 2 0
  chanCommand cmRestore (leafGate b { lock := true }) false id false b (leafOr cmRestore id false b runArm) c
def runConfirm (code : Nat) (force : Bool) (c : Chan) : Ran :=
  let st := chanConfirmStatus code force c
  { unit := if st = 0 then chanConfirm c else c, status := st }
def mgmtConfirm (id serial code : Nat) (force : Bool) (c : Chan) : Chan × Reply :=
  let b := leBytes 8 serial ++ leBytes 2 1 ++ leBytes 2 code
  chanCommand cmRestore (leafGate b { lock := true }) false id force b (leafOr cmRestore id force b (runConfirm code force)) c
/-- `RESTART` (R467, R540); `safe`: every leaf beneath the channel has its other domain LOCKED. -/
def runRestart (force safe : Bool) (c : Chan) : Ran :=
  if !force && !safe then { unit := c, status := stRestartUnsafe } else { unit := { c with restart := some (chanClock c + nsSec) } }
def mgmtRestart (id : Nat) (force safe : Bool) (c : Chan) : Chan × Reply :=
  chanCommand 0x33 { quar := true, lock := true } false id force [] (runRestart force safe) c
def runKeyRotate (id : Nat) (body : Bytes) (c : Chan) : Ran :=
  let r := chanKeyRotate id body c
  { unit := r.1, status := r.2 }
def mgmtKeyRotate (id : Nat) (body : Bytes) (c : Chan) : Chan × Reply :=
  chanCommand 0x50 { lock := true } (decide (body.length ≠ 128)) id false body (runKeyRotate id body) c
def runDbgRequest (c : Chan) : Ran :=
  let m := chanDbgRequest c
  { unit := m, body := granBytes m.sec.challenge }
def mgmtDbgRequest (id serial : Nat) (c : Chan) : Chan × Reply :=
  let b := leBytes 8 serial ++ leBytes 8 0
  chanCommand cmDebug (leafGate b { lock := true }) false id false b (leafOr cmDebug id false b runDbgRequest) c
def runDbgResponse (dur : Nat) (sig : Bytes) (c : Chan) : Ran :=
  { unit := chanDbgResponse dur sig c, status := if debugOkay c.serial (chanClock c) dur sig c.sec then 0 else stSigBad }
def mgmtDbgResponse (id serial dur : Nat) (sig : Bytes) (c : Chan) : Chan × Reply :=
  let b := leBytes 8 serial ++ leBytes 2 1 ++ leBytes 6 dur ++ sig.take 64
  chanCommand cmDebug (leafGate b { lock := true }) (decide (sig.length ≠ 64)) id false b (leafOr cmDebug id false b (runDbgResponse dur sig)) c
def runDbgLock (c : Chan) : Ran := { unit := chanDbgEnd c }
def mgmtDbgLock (id serial : Nat) (c : Chan) : Chan × Reply :=
  let b := leBytes 8 serial
  chanCommand cmDebugLock {} false id false b (leafOr cmDebugLock id false b runDbgLock) c
def runAlarmClear (id : Nat) (sig : Bytes) (c : Chan) : Ran :=
  let r := chanAlarmClear id sig c
  { unit := r.1, status := if r.2 then 0 else stSigBad }
def mgmtAlarmClear (id serial : Nat) (sig : Bytes) (c : Chan) : Chan × Reply :=
  let b := leBytes 8 serial ++ sig.take 64
  chanCommand cmAlarmClear {} (decide (sig.length ≠ 64)) id false b (leafOr cmAlarmClear id false b (runAlarmClear id sig)) c
/-- A tick record each second of pod time (R539). -/
def chanTeleTick (c0 : Chan) : Chan :=
  let c := chanToWhole nsSec c0
  let body := leBytes 8 (alarmsWord c).toNat ++ leBytes 8 c.gran.rootLast ++ leBytes 8 c.gran.nextSeq
  { c with tele := teleAdd c.tele 2 none 0 (chanNs c) false 0 body }

end Sys2Proof.Machine
end

