-- ==== Sys2Proof/Machine/StateModule.lean ====
section
/-! DEFINITION. An MX-2 module (chapters The MX-2 Module, Martenov Management Protocol): feeds, bricks, fan trays, the two sleds, and the
management card with its sessions. The channel of the model sits on sled 0. Every field's default is its value at reset; that a module is
fitted, fed and powered when the model starts is a choice (assumption 50), and the words a poll latches start at the zeros of R560. -/
namespace Sys2Proof.Machine

/-- States of a feed (R544), in the order of their codes (R560). -/
inductive FeedState where
  | absent
  | usable
  | undervolt
  | overvolt
  | reversed
  deriving DecidableEq, Repr
/-- A feed (R543, R544, R560): voltage in 0.1 V, current in mA. -/
structure Feed where
  state : FeedState := .usable
  volt  : Int := 0
  ma    : Nat := 0
  deriving DecidableEq, Repr
/-- A power brick (R546, R560, R561). -/
structure Brick where
  present   : Bool := true
  ok        : Bool := true
  enabled   : Bool := true
  condemned : Bool := false
  temp      : Int := 0
  outW      : Nat := 0
  deriving DecidableEq, Repr
/-- A fan tray (R552, R560, R561): the demands heard from the two sleds, in percent. -/
structure FanTray where
  present   : Bool := true
  ok        : Bool := true
  noDemand  : Bool := false
  condemned : Bool := false
  demand0   : Option Nat := none
  demand1   : Option Nat := none
  /-- when it last heard a demand, or was inserted, on the module's clock (R552) -/
  heardAt   : Nat := 0
  rpmA      : Nat := 0
  rpmB      : Nat := 0
  deriving DecidableEq, Repr
/-- A sled as its hot-swap controller, its backup cell and the thermal protection see it (R550, R553, R557, R559, R560). -/
structure Sled where
  present    : Bool := true
  powered    : Bool := true
  /-- a soft start is running -/
  starting   : Bool := false
  /-- when the soft start began, or the last trip was, on the module's clock (R550) -/
  since      : Nat := 0
  /-- trips since the sled was seated (R550) -/
  trips      : Nat := 0
  efuseOff   : Bool := false
  thermalOff : Bool := false
  safe       : Bool := false
  inletT     : Int := 0
  watts      : Nat := 0
  /-- a lid opening, a mesh fault, latched while unpowered (R559) -/
  lidLatched : Bool := false
  meshLatched : Bool := false
  deriving DecidableEq, Repr
/-- A message of the card to a session or to the follower's card (R527). -/
structure MgmtMsg where
  kind   : Nat
  target : Nat
  flags  : Nat
  cmd    : Nat
  status : Nat
  id     : Nat
  accept : Nat
  body   : Bytes
  deriving DecidableEq, Repr
/-- A telemetry subscription of a session (R538): its target and the `TSEQ` it delivers next. -/
structure Sub where
  target : Nat
  next   : Nat
  deriving DecidableEq, Repr
/-- A management session (R525, R526): its place, when it last carried traffic, its subscriptions, the messages sent on it, oldest first, the
bytes of telemetry buffered since the last tick, and the first and last `TSEQ` skipped for want of buffer, with their target (R538). -/
structure Session where
  place  : Nat
  lastAt : Nat
  subs   : List Sub := []
  out    : List MgmtMsg := []
  held   : Nat := 0
  gap    : Option (Nat × Nat × Nat) := none
  deriving DecidableEq, Repr
/-- A request not yet answered (R526, R528): who waits for which command's answer. -/
structure CardWait where
  place   : Nat
  target  : Nat
  id      : Nat
  repeat_ : Bool
  deriving DecidableEq, Repr
/-- The management card (R525 to R540, R560). -/
structure Card where
  present   : Bool := true
  sessions  : List Session := []
  waits     : List CardWait := []
  answers   : List MgmtAnswer := []
  /-- the follower's card: address and certificate digest (R537) -/
  follower  : Option (Bytes × Bytes) := none
  /-- `TIME_PASS` messages sent to it, oldest first -/
  passes    : List MgmtMsg := []
  ptpServer : Bool := false
  port1g    : Bool := false
  port10g   : Bool := false
  tele      : Tele := {}
  deriving DecidableEq, Repr
/-- An MX-2 module. -/
structure Module where
  /-- the module serial in the midplane's EEPROM (R541) -/
  serial  : Nat := 0
  feeds   : Tab Feed := []
  bricks  : Tab Brick := []
  fans    : Tab FanTray := []
  sleds   : Tab Sled := []
  card    : Card := {}
  /-- per sled held off by heat, since when it has been cool with three trays working (R553) -/
  cool    : Tab (Option Nat) := []
  /-- the module's clock, in ns, at the last start of the channel on sled 0; from there it counts with that channel's (assumption 50) -/
  past    : Nat := 0
  /-- the 54 V bus stands (R547) -/
  busOn   : Bool := true
  busMv   : Nat := 0
  inputW  : Nat := 0
  pwrWarn : Bool := false
  thermalWarn : Bool := false
  feedLoss   : Ctr := {}
  brickFault : Ctr := {}
  efuseTrip  : Ctr := {}
  thermalOff : Ctr := {}
  /-- the words of R560 as the last poll latched them, by their offset -/
  words   : Tab Word := []
  free    : Nat := 0
  deriving DecidableEq, Repr

/-- A module with its channel on sled 0, as the card sees the two together. -/
structure Box where
  chan : Chan := {}
  mod  : Module := {}
  deriving DecidableEq, Repr
/-- What a poll of the PMBus reads (R552, R553, R560, R561): per feed the voltage in 0.1 V and current in mA; per brick whether its output is
within R546, temperature and power; per tray whether its rotors follow the demand, and their speeds; per sled inlet temperature in 0.25 °C,
power, and `SAFE`; bus and input, the card's PTP and link bits, and whether a condition of THERMAL_WARN still stands. -/
structure Poll where
  feeds  : List (Int × Nat) := []
  bricks : List (Bool × Int × Nat) := []
  fans   : List (Bool × Nat × Nat) := []
  sleds  : List (Int × Nat × Bool) := []
  busMv  : Nat := 0
  inputW : Nat := 0
  ptp    : Bool := false
  port1g : Bool := false
  port10g : Bool := false
  hot    : Bool := false
  deriving DecidableEq, Repr
/-- The board of a replacement sled (R452, R557): its channel die's fuses and its own flash. -/
structure Board where
  fuses : Fuses := {}
  flash : Tab Byte := []
  deriving DecidableEq, Repr

end Sys2Proof.Machine
end

