-- ==== Sys2Proof/Machine/ModOps.lean ====
section
/-! DEFINITION. The management card's sessions and telemetry (R525 to R540), and the module's power, cooling and service (R541 to R561). -/
namespace Sys2Proof.Machine

/-! ### Parts -/
def feedAt (m : Module) (f : Nat) : Feed := tabGet {} m.feeds f
def brickAt (m : Module) (b : Nat) : Brick := tabGet {} m.bricks b
def fanAt (m : Module) (k : Nat) : FanTray := tabGet {} m.fans k
def sledAt (m : Module) (s : Nat) : Sled := tabGet {} m.sleds s
def setFeed (m : Module) (f : Nat) (x : Feed) : Module := { m with feeds := tabSet {} m.feeds f x }
def setBrick (m : Module) (b : Nat) (x : Brick) : Module := { m with bricks := tabSet {} m.bricks b x }
def setFan (m : Module) (k : Nat) (x : FanTray) : Module := { m with fans := tabSet {} m.fans k x }
def setSled (m : Module) (s : Nat) (x : Sled) : Module := { m with sleds := tabSet {} m.sleds s x }
/-- Is the channel supplied? It sits on sled 0. -/
def chanPowered (m : Module) : Bool := (sledAt m 0).powered
/-- Bricks that work (R546, R558), and trays that work (R552, R561). -/
def brickWorks (x : Brick) : Bool := x.present && x.ok && x.enabled
def bricksOk (m : Module) : Nat := ((List.range 2).filter (fun b => brickWorks (brickAt m b))).length
def fanWorks (x : FanTray) : Bool := x.present && x.ok && !x.condemned
def fansOk (m : Module) : Nat := ((List.range 4).filter (fun k => fanWorks (fanAt m k))).length
def feedsUsable (m : Module) : Bool := (List.range 2).any (fun f => decide ((feedAt m f).state = .usable))
/-- The duty a tray runs at (R552, R561). -/
def fanDuty (x : FanTray) : Nat := if x.condemned || x.noDemand then 100 else max (x.demand0.getD 0) (x.demand1.getD 0)

/-! ### The module's clock -/
/-- The clock of the controllers, the trays and the card, in ns. DESIGN CHOICE (assumption 50): it counts with that of the channel on sled 0, and
goes on where that one starts again. -/
def boxClock (b : Box) : Nat := b.mod.past + chanClock b.chan
/-- The module's clock runs to `t`: the channel's edges bring it there, or, with the sled unpowered, only the clock moves. -/
def boxTo (t : Nat) (b : Box) : Box :=
  if t ≤ boxClock b then b
  else if chanPowered b.mod then { b with chan := chanToClock (t - b.mod.past) b.chan }
  else { b with mod := { b.mod with past := t - chanClock b.chan } }
/-- A row that names a deadline on the module's clock: with none to come nothing happens; else the clock runs to it, and the row acts if it still stands. -/
def boxAt (due : Module → Option Nat) (act : Box → Box) (b : Box) : Box :=
  match due b.mod with
  | none => b
  | some t =>
    let b1 := boxTo t b
    if (due b1.mod).any (fun u => decide (u ≤ boxClock b1)) then act b1 else b1
/-- The channel on sled 0 starts (R337): its clock begins again. -/
def boxStart (held : Bool) (b : Box) : Box :=
  { chan := chanReset held b.mod.serial b.chan, mod := { b.mod with past := boxClock b } }
/-- `RESTART`'s wait ends (R540). -/
def boxRestart (b : Box) : Box :=
  let c := chanAtClock restartDue id b.chan
  if c.restart.isSome then boxStart true { b with chan := c } else { b with chan := c }
/-- A sled held off that has its inlet at 35 °C or below and three trays working is cool from now, or from when that began (R553). -/
def coolSettle (now : Nat) (m : Module) : Module :=
  { m with cool := (List.range 2).foldl (fun (t : Tab (Option Nat)) s =>
      let on := (sledAt m s).thermalOff && decide ((sledAt m s).inletT ≤ 140) && decide (3 ≤ fansOk m)
      tabSet none t s (if on then some ((tabGet none t s).getD now) else none)) m.cool }

/-! ### Sessions (R525, R526, R527) -/
def sessionAt (c : Card) (p : Nat) : Option Session := c.sessions.find? (fun s => decide (s.place = p))
def sessionUpd (c : Card) (p : Nat) (f : Session → Session) : Card :=
  { c with sessions := c.sessions.map (fun s => if s.place = p then f s else s) }
/-- A message goes out on a session that is still open; it counts as traffic. -/
def sessionSend (now p : Nat) (m : MgmtMsg) (c : Card) : Card := sessionUpd c p (fun s => { s with out := s.out ++ [m], lastAt := now })
/-- The session closes: its subscriptions end and no command is cancelled (R526). -/
def sessionEnd (p : Nat) (c : Card) : Card :=
  { c with sessions := c.sessions.filter (fun s => decide (s.place ≠ p)), waits := c.waits.filter (fun w => decide (w.place ≠ p)) }
/-- The answer to a waiting request (R527, R528). -/
def answerMsg (target : Nat) (again : Bool) (a : MgmtAnswer) : MgmtMsg :=
  { kind := 1, target := target, flags := answerFlags { a with repeat_ := again }, cmd := a.args.cmd, status := a.status, id := a.id,
    accept := a.accepted, body := a.body }
/-- The answer a request waits for, once it stands. -/
def answerReady (w : CardWait) (chanAns cardAns : List MgmtAnswer) : Option MgmtAnswer :=
  (if w.target = 0x0F then cardAns else chanAns).find? (fun a => decide (a.id = w.id) && !a.running)
/-- Deliver every answer that stands, oldest request first. -/
def deliver (now : Nat) (chanAns : List MgmtAnswer) (c : Card) : Card :=
  c.waits.foldl (fun (k : Card) w =>
    match answerReady w chanAns c.answers with
    | some a => sessionSend now w.place (answerMsg w.target w.repeat_ a) k
    | none => { k with waits := k.waits ++ [w] }) { c with waits := [] }

/-! ### Telemetry (R538, R539) -/
/-- Event names as ASCII. -/
def nameBytes (s : String) : Bytes :=
  let b : Bytes := s.toList.map (fun ch => BitVec.ofNat 8 ch.toNat)
  (b ++ List.replicate 24 0#8).take 24
/-- The 192 bytes of a telemetry body (R539). -/
def teleBytes (stream : Nat) (r : TeleRec) : Bytes :=
  leBytes 8 r.tseq ++ leBytes 8 stream ++ leBytes 8 r.at_ ++ leBytes 1 r.kind ++ leBytes 1 (b2n r.injected) ++ leBytes 2 r.code ++ leBytes 4 0 ++
  nameBytes (match r.ev with | some e => e.name | none => "") ++ leBytes 8 r.subject ++ (r.detail ++ List.replicate 128 0#8).take 128
def teleMsg (target stream : Nat) (r : TeleRec) : MgmtMsg :=
  { kind := 2, target := target, flags := 0, cmd := 0x70, status := 0, id := 0, accept := 0, body := teleBytes stream r }
/-- A `GAP` record (R538, R539). -/
def gapMsg (target stream at_ first last : Nat) : MgmtMsg :=
  teleMsg target stream { tseq := last + 1, kind := 3, at_ := at_, detail := leBytes 8 first ++ leBytes 8 last }
/-- Bytes of a telemetry message, and the buffer of a session (R538). -/
def teleSize : Nat := 224
def teleBuffer : Nat := 16 * 2 ^ 20
/-- Offer a record to a session: sent, or skipped when the buffer is full (assumption 67: the buffer drains at each tick). -/
def teleOffer (target stream : Nat) (s : Session) (r : TeleRec) : Session :=
  if s.held + teleSize ≤ teleBuffer then { s with out := s.out ++ [teleMsg target stream r], held := s.held + teleSize }
  else
    match s.gap with
    | some (t, f, l) => if t = target then { s with gap := some (t, f, r.tseq) } else { s with gap := some (t, f, l) }
    | none => { s with gap := some (target, r.tseq, r.tseq) }
/-- Offer a session everything its subscription has not had. -/
def teleSub (target : Nat) (t : Tele) (s : Session) : Session :=
  match s.subs.find? (fun x => decide (x.target = target)) with
  | none => s
  | some x =>
    let s1 := ((t.recs.takeWhile (fun r => decide (x.next ≤ r.tseq))).reverse).foldl (teleOffer target t.stream) s
    { s1 with subs := s1.subs.map (fun y => if y.target = target then { y with next := max y.next t.next } else y) }
/-- The buffers have drained: a session that skipped records is told which (R538). -/
def teleDrain (chanStream cardStream at_ : Nat) (s : Session) : Session :=
  match s.gap with
  | none => { s with held := 0 }
  | some (t, f, l) => { s with held := teleSize, gap := none, out := s.out ++ [gapMsg t (if t = 0x0F then cardStream else chanStream) at_ f l] }
/-- A subscription (R538): at the named record where the stream matches and it is held, or is the next to be raised; else at the oldest held,
behind a `GAP` record. -/
def subscribe (target stream first : Nat) (t : Tele) (at_ : Nat) (s : Session) : Session :=
  let oldest := (t.recs.getLast?.map TeleRec.tseq).getD t.next
  let good := decide (stream = t.stream) && decide (oldest ≤ first) && decide (first ≤ t.next)
  let rest := s.subs.filter (fun x => decide (x.target ≠ target))
  if good then { s with subs := rest ++ [{ target := target, next := first }] }
  else
    { s with subs := rest ++ [{ target := target, next := oldest }],
             out := s.out ++ [gapMsg target t.stream at_ (if stream = t.stream then first else 0) (oldest - 1)] }
/-- Changes for the follower go to its card under their IDs, if one is configured (R181, R537). -/
def passMsg (p : Nat × Notice) : MgmtMsg :=
  { kind := 0, target := 0, flags := 0, cmd := 0x11, status := 0, id := p.1, accept := 0,
    body := stepBytes (match p.2.target with | .utc => true | .podTime => false) p.2.delta p.2.at_ ++ leBytes 8 p.2.count.toNat }
/-- What the card takes up after anything moved at the channel or itself: answers, telemetry, changes for the follower. -/
def cardTake (b : Box) : Box :=
  if b.mod.card.present then
    let c1 := deliver (boxClock b) b.chan.answers b.mod.card
    let c2 := { c1 with sessions := c1.sessions.map (fun s => teleSub 0x0F c1.tele (teleSub 0 b.chan.tele s)),
                        passes := if c1.follower.isSome then c1.passes ++ b.chan.passQ.map passMsg else c1.passes }
    { chan := { b.chan with passQ := [] }, mod := { b.mod with card := c2 } }
  else { b with chan := { b.chan with passQ := [] } }
/-- What follows anything that moved at the channel or the module. -/
def pumpBox (b : Box) : Box := cardTake { b with mod := coolSettle (boxClock b) b.mod }

/-! ### Requests (R526 to R531) -/
/-- An answer given at once, which is not held; `ns` is the pod time it carries, `now` the card's clock. -/
def answerNow (now ns p target cmd id status : Nat) (force : Bool) (c : Card) : Card :=
  sessionSend now p { kind := 1, target := target, flags := b2n force, cmd := cmd, status := status, id := id, accept := ns, body := [] } c
/-- May session p take another request (R526)? -/
def sessionFull (p : Nat) (c : Card) : Bool := decide (16 ≤ (c.waits.filter (fun w => decide (w.place = p))).length)
/-- A request to the channel arrives on session p. With the sled unpowered nothing answers it. -/
def askChan (p cmd id : Nat) (force : Bool) (run : Chan → Chan × Reply) (b : Box) : Box :=
  let now := boxClock b
  let ns := chanNs b.chan
  if !b.mod.card.present then b
  else
    match sessionAt b.mod.card p with
    | none => b
    | some _ =>
      let c0 := sessionUpd b.mod.card p (fun s => { s with lastAt := now })
      if sessionFull p c0 then pumpBox { b with mod := { b.mod with card := answerNow now ns p 0 cmd id stBusy force c0 } }
      else if !chanPowered b.mod then
        { b with mod := { b.mod with card := { c0 with waits := c0.waits ++ [{ place := p, target := 0, id := id, repeat_ := false }] } } }
      else
        let r := run b.chan
        let c1 : Card := match r.2 with
          | .held again => { c0 with waits := c0.waits ++ [{ place := p, target := 0, id := id, repeat_ := again }] }
          | .now st => answerNow now ns p 0 cmd id st force c0
        pumpBox { chan := r.1, mod := { b.mod with card := c1 } }
/-- A request to the card arrives on session p; `f` answers it. -/
def askCard (p cmd id : Nat) (force : Bool) (body : Bytes) (f : Module → Module × Bytes) (b : Box) : Box :=
  let now := boxClock b
  let ns := chanNs b.chan
  if !b.mod.card.present then b
  else
    match sessionAt b.mod.card p with
    | none => b
    | some _ =>
      let c0 := sessionUpd b.mod.card p (fun s => { s with lastAt := now })
      let args : MgmtArgs := { cmd := cmd, force := force, body := body }
      if sessionFull p c0 then pumpBox { b with mod := { b.mod with card := answerNow now ns p 0x0F cmd id stBusy force c0 } }
      else if id = 0 then pumpBox { b with mod := { b.mod with card := answerNow now ns p 0x0F cmd id stBadArgs force c0 } }
      else
        match heldOf id args c0.answers with
        | .again _ => pumpBox { b with mod := { b.mod with card := { c0 with waits := c0.waits ++ [{ place := p, target := 0x0F, id := id, repeat_ := true }] } } }
        | .conflict => pumpBox { b with mod := { b.mod with card := answerNow now ns p 0x0F cmd id stIdConflict force c0 } }
        | .fresh =>
          let r := f { b.mod with card := c0 }
          let a : MgmtAnswer := { id := id, args := args, body := r.2, accepted := ns, heldAt := now }
          let c1 := { r.1.card with answers := a :: r.1.card.answers.filter (fun x => decide (now < x.heldAt + nsDay)),
                                    waits := r.1.card.waits ++ [{ place := p, target := 0x0F, id := id, repeat_ := false }] }
          pumpBox { b with mod := { r.1 with card := c1 } }
/-- A request with an unknown command code (R530). A channel whose sled is not supplied answers nothing, and that on sled 1 is not this model's. -/
def askUnknown (p target cmd id : Nat) (b : Box) : Box :=
  let now := boxClock b
  let ns := chanNs b.chan
  let c := sessionUpd b.mod.card p (fun s => { s with lastAt := now })
  if !b.mod.card.present || (sessionAt b.mod.card p).isNone then b
  else if target = 0x0F || (decide (target = 0) && chanPowered b.mod) then
    { b with mod := { b.mod with card := answerNow now ns p target cmd id stBadCommand false c } }
  else { b with mod := { b.mod with card := c } }

/-! ### Events of the module (R561) -/
/-- The card's part of an event. -/
def cardEv (e : Ev) (vals : List Nat) (b : Box) : Box :=
  if b.mod.card.present then
    let c := b.mod.card
    { b with mod := { b.mod with card := { c with tele := teleAdd c.tele 0 (some e) 0 (chanNs b.chan) false (vals.headD 0)
                                                            (granBytes 0#256 ++ vals.flatMap (leBytes 8)) } } }
  else b
/-- The channel's part: its telemetry stream and every open silo. -/
def sledEv (e : Ev) (vals : List Nat) (b : Box) : Box := if chanPowered b.mod then { b with chan := chanEv b.chan e vals } else b
def boxEv (e : Ev) (vals : List Nat) (b : Box) : Box := cardEv e vals (sledEv e vals b)
/-- An error of a module unit enters the channel's module-unit history (R414, R415, R561): the box, and whether the unit is now PERMANENT. -/
def boxError (kind index : Nat) (b : Box) : Box × Bool :=
  if chanPowered b.mod then
    let r := histEnter 4096 (unitPath 4 kind index) opNone (chanNs b.chan) b.chan.history
    ({ b with chan := chanRaiseAll { b.chan with history := r.1 } r.2.1 }, decide (r.2.2 = 3))
  else (b, false)

/-! ### Session rows (R525, R526) -/
/-- A handshake (R525, R526): `ok` when the client's certificate chain ends at the owner key; a ninth is refused. -/
def boxSessionOpen (ok : Bool) (addr : Nat) (b : Box) : Box :=
  let c := b.mod.card
  if !c.present ∨ 8 ≤ c.sessions.length then b
  else if !ok then pumpBox (cardEv .mgmtAuthFail [addr] b)
  else
    match (List.range 8).find? (fun p => (sessionAt c p).isNone) with
    | none => b
    | some p => { b with mod := { b.mod with card := { c with sessions := c.sessions ++ [{ place := p, lastAt := boxClock b }] } } }
def boxSessionClosed (p : Nat) (b : Box) : Box := { b with mod := { b.mod with card := sessionEnd p b.mod.card } }
/-- 300 s without traffic and without a subscription (R526). -/
def boxSessionIdle (p : Nat) (b : Box) : Box :=
  boxAt (fun m => (sessionAt m.card p).bind (fun s => if s.subs.isEmpty then some (s.lastAt + 300 * nsSec) else none))
    (fun x => { x with mod := { x.mod with card := sessionEnd p x.mod.card } }) b

/-! ### Telemetry rows (R538, R539) -/
def telemetryBytes (stream first : Nat) (stop : Bool) : Bytes := leBytes 8 stream ++ leBytes 8 first ++ leBytes 8 (b2n stop)
/-- Is the request on session p one that its target will run, not one it has answered before? -/
def freshAsk (p target id : Nat) (b : Box) : Bool :=
  b.mod.card.present && (sessionAt b.mod.card p).isSome && !sessionFull p b.mod.card && decide (id ≠ 0) &&
  (if target = 0x0F then !b.mod.card.answers.any (fun a => decide (a.id = id))
   else decide (target = 0) && chanPowered b.mod && !b.chan.answers.any (fun a => decide (a.id = id)) && decide (generalStatus {} false b.chan = 0))
def subAt (p target : Nat) (f : Session → Session) (b : Box) : Box :=
  pumpBox { b with mod := { b.mod with card := sessionUpd b.mod.card p (fun s => if target = 0 ∨ target = 0x0F then f s else s) } }
/-- Ask the target of a `TELEMETRY` request; its answer is empty. -/
def askTelemetry (p target id : Nat) (body : Bytes) (b : Box) : Box :=
  if target = 0x0F then askCard p 0x70 id false body (fun m => (m, [])) b
  else if target ≠ 0 then { b with mod := { b.mod with card := sessionUpd b.mod.card p (fun s => { s with lastAt := boxClock b }) } }
  else askChan p 0x70 id false (chanCommand 0x70 {} false id false body (fun c => { unit := c })) b
/-- `TELEMETRY` (R538): answered, then the records follow. -/
def boxTelemetry (p target id stream first : Nat) (b : Box) : Box :=
  let b1 := askTelemetry p target id (telemetryBytes stream first false) b
  if freshAsk p target id b then
    let t := if target = 0x0F then b1.mod.card.tele else b1.chan.tele
    subAt p target (subscribe target stream first t (chanNs b1.chan)) b1
  else b1
/-- `TELEMETRY` with `STOP`. -/
def boxTelemetryStop (p target id : Nat) (b : Box) : Box :=
  let b1 := askTelemetry p target id (telemetryBytes 0 0 true) b
  if freshAsk p target id b then subAt p target (fun s => { s with subs := s.subs.filter (fun x => decide (x.target ≠ target)) }) b1 else b1
/-- A second of pod time ends (R539): the channel's tick, the card's, and the sessions' buffers. -/
def boxTick (b : Box) : Box :=
  let c := if chanPowered b.mod then chanTeleTick b.chan else b.chan
  let k := b.mod.card
  let t := if k.present then teleAdd k.tele 2 none 0 (chanNs c) false 0 [] else k.tele
  let k1 := { k with tele := t, sessions := k.sessions.map (teleDrain c.tele.stream t.stream (chanNs c)) }
  pumpBox { chan := c, mod := { b.mod with card := k1 } }

/-! ### Card commands (R537, R560) -/
def feedCode : FeedState → Nat
  | .absent => 0 | .usable => 1 | .undervolt => 2 | .overvolt => 3 | .reversed => 4
def feedWord (x : Feed) : Word := layW [⟨0, 16, ofSigned 16 x.volt⟩, ⟨16, 16, x.ma⟩, ⟨32, 3, feedCode x.state⟩]
def brickWord (x : Brick) : Word :=
  layW [⟨0, 1, b2n x.present⟩, ⟨1, 1, b2n x.ok⟩, ⟨2, 1, b2n x.enabled⟩, ⟨3, 1, b2n x.condemned⟩, ⟨8, 8, ofSigned 8 x.temp⟩, ⟨16, 16, x.outW⟩]
def fanWord (x : FanTray) : Word :=
  layW [⟨0, 1, b2n x.present⟩, ⟨1, 1, b2n (fanWorks x)⟩, ⟨2, 1, b2n x.noDemand⟩, ⟨8, 7, fanDuty x⟩, ⟨16, 16, x.rpmA⟩, ⟨32, 16, x.rpmB⟩]
def sledWord (x : Sled) : Word :=
  layW [⟨0, 1, b2n x.present⟩, ⟨1, 1, b2n x.powered⟩, ⟨2, 1, b2n x.efuseOff⟩, ⟨3, 1, b2n x.thermalOff⟩, ⟨4, 1, b2n x.safe⟩,
        ⟨8, 16, ofSigned 16 x.inletT⟩, ⟨24, 16, x.watts⟩]
def modStatusWord (m : Module) : Word :=
  layW [⟨0, 16, m.busMv⟩, ⟨16, 16, m.inputW⟩, ⟨32, 1, b2n m.pwrWarn⟩, ⟨33, 1, b2n m.thermalWarn⟩, ⟨34, 2, bricksOk m⟩, ⟨36, 3, fansOk m⟩]
def cardWord (c : Card) : Word :=
  layW [⟨0, 1, b2n c.ptpServer⟩, ⟨1, 1, b2n c.port1g⟩, ⟨2, 1, b2n c.port10g⟩, ⟨3, 1, b2n c.follower.isSome⟩, ⟨4, 4, c.sessions.length⟩]
/-- The words that a poll latches (R560), by offset. -/
def pollWords (m : Module) : List (Nat × Word) :=
  [(0x10, modStatusWord m)] ++ (List.range 2).map (fun f => (0x18 + 8 * f, feedWord (feedAt m f))) ++
  (List.range 2).map (fun b => (0x28 + 8 * b, brickWord (brickAt m b))) ++ (List.range 4).map (fun k => (0x38 + 8 * k, fanWord (fanAt m k))) ++
  (List.range 2).map (fun s => (0x58 + 8 * s, sledWord (sledAt m s)))
/-- The body of `MODULE_STATUS` (R560): what the last poll latched, and the card's own words. -/
def moduleStatus (m : Module) : Bytes :=
  (layW [⟨0, 32, 0x4D55444D⟩, ⟨32, 8, 1⟩] :: layW [⟨0, 64, m.serial⟩] :: tabReadListBy m.words [0x10, 0x18, 0x20, 0x28, 0x30, 0x38, 0x40, 0x48, 0x50, 0x58, 0x60] ++
    [cardWord m.card, ctrWord m.feedLoss, ctrWord m.brickFault, ctrWord m.efuseTrip, ctrWord m.thermalOff]).flatMap (fun w => leBytes 8 w.toNat)
where
  /-- the latched words at some offsets -/
  tabReadListBy (t : Tab Word) (l : List Nat) : List Word := l.map (tabGet 0#64 t)
def boxModuleStatus (p id : Nat) (b : Box) : Box := askCard p 0x80 id false [] (fun m => (m, moduleStatus m)) b
/-- `CARD_CONFIG` (R537): the follower's card address, 16 bytes, and its certificate's digest, 32. -/
def boxCardConfig (p id : Nat) (addr digest : Bytes) (b : Box) : Box :=
  askCard p 0x81 id false (addr.take 16 ++ digest.take 32)
    (fun m => ({ m with card := { m.card with follower := some (addr.take 16, digest.take 32) } }, [])) b

/-! ### Power (R544, R547, R550) -/
/-- The channel on sled 0 loses its supply: nothing that waits on it is answered any more (R540). -/
def waitsCut (c : Card) : Card := { c with waits := c.waits.filter (fun w => decide (w.target = 0x0F)) }
/-- Sled s loses its supply; `f` says what else its controller records. -/
def sledDown (s : Nat) (f : Sled → Sled) (b : Box) : Box :=
  let m := setSled b.mod s (f { sledAt b.mod s with powered := false, starting := false, safe := false, since := boxClock b })
  let fans := (List.range 4).foldl (fun (a : Module) k =>
    let x := fanAt a k
    setFan a k (if s = 0 then { x with demand0 := none } else { x with demand1 := none })) m
  if s = 0 then { b with mod := { fans with card := waitsCut fans.card } } else { b with mod := fans }
/-- Soft starts begin on the sleds that may have supply (R550, R553). -/
def sledsStart (now : Nat) (m : Module) : Module :=
  (List.range 2).foldl (fun (a : Module) s =>
    let x := sledAt a s
    if x.present && !x.powered && !x.efuseOff && !x.thermalOff then setSled a s { x with starting := true, since := now } else a) m
/-- With a usable feed and a working brick the bus stands again (R543). -/
def busRise (now : Nat) (m : Module) : Module :=
  if !m.busOn && feedsUsable m && decide (0 < bricksOk m) then sledsStart now { m with busOn := true } else m
/-- A feed is `USABLE` again while the bus stands: `pwr_warn` falls and the deferred saves run (R547). -/
def warnFalls (b : Box) : Box :=
  if b.mod.pwrWarn && b.mod.busOn then
    let b1 := { b with mod := { b.mod with pwrWarn := false } }
    if chanPowered b1.mod then
      let c := chanEv b1.chan .powerWarnClear []
      let c1 := { c with pwrWarn := false, start := { c.start with saveHeld := false } }
      cardEv .powerWarnClear [] { b1 with chan := if c1.start.due.isEmpty then c1 else chanUserSave false c1 }
    else cardEv .powerWarnClear [] b1
  else b
/-- A feed meets the entry rule of `USABLE` (R544): a reversed one leaves to `ABSENT` only. -/
def boxFeedUsable (f : Nat) (b : Box) : Box :=
  let x := feedAt b.mod f
  if x.state = .usable ∨ x.state = .reversed then b
  else
    let b1 := boxEv .feedRestored [f] { b with mod := setFeed b.mod f { x with state := .usable } }
    let b2 := warnFalls b1
    pumpBox { b2 with mod := busRise (boxClock b2) b2.mod }
/-- A feed enters another state of R544 from one that leads there; what it raises. -/
def feedMove (f : Nat) (from_ : List FeedState) (st : FeedState) (e : Option Ev) (b : Box) : Box :=
  let x := feedAt b.mod f
  if from_.contains x.state then
    let b1 := { b with mod := setFeed b.mod f { x with state := st } }
    pumpBox (match e with | some v => boxEv v [f] b1 | none => b1)
  else b
def boxFeedUndervolt (f : Nat) (b : Box) : Box :=
  let hit := decide ((feedAt b.mod f).state = .usable ∨ (feedAt b.mod f).state = .absent)
  let b1 := if hit then { b with mod := { b.mod with feedLoss := ctrInc b.mod.feedLoss } } else b
  feedMove f [.usable, .absent] .undervolt (some .feedLost) b1
def boxFeedOvervolt (f : Nat) (b : Box) : Box := feedMove f [.usable, .absent] .overvolt (some .feedOvervolt) b
def boxFeedReversed (f : Nat) (b : Box) : Box := feedMove f [.absent] .reversed (some .feedReversed) b
def boxFeedAbsent (f : Nat) (b : Box) : Box := feedMove f [.usable, .undervolt, .reversed] .absent none b
/-- The last usable feed is lost (R547). -/
def boxPowerWarn (b : Box) : Box :=
  if feedsUsable b.mod || b.mod.pwrWarn || !b.mod.busOn then b
  else
    let b1 := { b with mod := { b.mod with pwrWarn := true } }
    let b2 := boxEv .powerWarn [] b1
    pumpBox (if chanPowered b2.mod then { b2 with chan := { b2.chan with pwrWarn := true, start := { b2.chan.start with saveHeld := true } } } else b2)
/-- The card starts afresh (R538, R560): sessions, held answers and counters go; `CARD_CONFIG` stays in its own store. -/
def cardStart (m : Module) : Module :=
  { m with card := { present := m.card.present, follower := m.card.follower, tele := { stream := Config.free .streamId m.free % 2 ^ 64 } },
           feedLoss := {}, brickFault := {}, efuseTrip := {}, thermalOff := {}, words := [], free := m.free + 1 }
/-- The bus falls below 51 V (R547). -/
def boxBusCollapse (b : Box) : Box :=
  if b.mod.busOn then
    let b1 := sledDown 1 id (sledDown 0 id b)
    { b1 with mod := cardStart { b1.mod with busOn := false, pwrWarn := false, thermalWarn := false } }
  else b
/-- Full voltage within 50 ms (R550): the sled is supplied, and the channel on sled 0 starts under R337. -/
def boxSoftStart (s : Nat) (b : Box) : Box :=
  let x := sledAt b.mod s
  if x.starting then
    let m := setSled b.mod s { x with starting := false, powered := true }
    if s = 0 then pumpBox (boxStart false { b with mod := m }) else { b with mod := m }
  else b
/-- A trip (R550): the first is retried, after the second the sled stays off until it is reseated. -/
def sledTrip (s : Nat) (b : Box) : Box :=
  let n := (sledAt b.mod s).trips + 1
  let b1 := sledDown s (fun x => { x with trips := n, efuseOff := decide (2 ≤ n) }) b
  let b2 := { b1 with mod := { b1.mod with efuseTrip := ctrInc b1.mod.efuseTrip } }
  pumpBox (if 2 ≤ n then boxEv .sledPowerFault [s] b2 else b2)
/-- Full voltage is not reached within 50 ms (R550). -/
def boxSoftStartTimeout (s : Nat) (b : Box) : Box :=
  boxAt (fun m => if (sledAt m s).starting then some ((sledAt m s).since + 50000000) else none) (sledTrip s) b
def boxOvercurrent (s : Nat) (b : Box) : Box := if (sledAt b.mod s).powered then sledTrip s b else b
/-- The controller retries 1 s after a first trip. -/
def boxTripRetry (s : Nat) (b : Box) : Box :=
  boxAt (fun m =>
    let x := sledAt m s
    if x.present && decide (x.trips = 1) && !x.powered && !x.starting && !x.thermalOff && m.busOn then some (x.since + nsSec) else none)
    (fun x => { x with mod := setSled x.mod s { sledAt x.mod s with starting := true, since := boxClock x } }) b

/-! ### Service (R540, R557, R559) -/
/-- A sled is inserted, the one pulled or a replacement with its own fuses and flash. -/
def boxSledInserted (s : Nat) (r : Option Board) (b : Box) : Box :=
  let x := sledAt b.mod s
  if x.present then b
  else
    let y : Sled := { present := true, powered := false, starting := b.mod.busOn, since := boxClock b, lidLatched := if r.isSome then false else x.lidLatched,
                      meshLatched := if r.isSome then false else x.meshLatched }
    let c : Chan := match r with
      | some d => if s = 0 then { fuses := d.fuses, start := { flash := d.flash }, free := b.chan.free } else b.chan
      | none => b.chan
    pumpBox (boxEv .sledInserted [s] { chan := c, mod := setSled b.mod s y })
/-- A sled is pulled: its ports go dark and its commands end. -/
def boxSledRemoved (s : Nat) (b : Box) : Box :=
  if (sledAt b.mod s).present then
    pumpBox (boxEv .sledRemoved [s] (sledDown s (fun x => { x with present := false, trips := 0, efuseOff := false, thermalOff := false }) b))
  else b
def boxBrickInserted (k : Nat) (b : Box) : Box :=
  if (brickAt b.mod k).present then b
  else
    let b1 := boxEv .brickInserted [k] { b with mod := setBrick b.mod k {} }
    pumpBox { b1 with mod := busRise (boxClock b1) b1.mod }
def boxBrickRemoved (k : Nat) (b : Box) : Box :=
  if (brickAt b.mod k).present then
    pumpBox (boxEv .brickRemoved [k] { b with mod := setBrick b.mod k { present := false, ok := false, enabled := false } })
  else b
def boxFanInserted (k : Nat) (b : Box) : Box :=
  if (fanAt b.mod k).present then b else pumpBox (boxEv .fanInserted [k] { b with mod := setFan b.mod k { heardAt := boxClock b } })
def boxFanRemoved (k : Nat) (b : Box) : Box :=
  if (fanAt b.mod k).present then pumpBox (boxEv .fanRemoved [k] { b with mod := setFan b.mod k { present := false, ok := false } }) else b
/-- A card is inserted: it holds no `CARD_CONFIG`; a failed self-test enters the channel's module-unit history (R537, R561). -/
def boxCardInserted (selftestOk : Bool) (b : Box) : Box :=
  if b.mod.card.present then b
  else
    let m := cardStart { b.mod with card := { present := true } }
    let b1 := boxEv .cardInserted [] { b with mod := m }
    pumpBox (if selftestOk then b1 else (boxError 0x42 0 b1).1)
/-- The card is pulled: every session ends, and its PTP client with it (R426, R540). -/
def boxCardRemoved (b : Box) : Box :=
  if b.mod.card.present then
    let m := { b.mod with card := { present := false } }
    { chan := if chanPowered m then chanClk (refReject 3 rcLos none) b.chan else b.chan, mod := m }
  else b
/-- A lid opening, or a mesh fault, on an unpowered sled is latched (R559). -/
def boxLidUnpowered (s : Nat) (mesh : Bool) (b : Box) : Box :=
  let x := sledAt b.mod s
  if x.powered then b
  else { b with mod := setSled b.mod s (if mesh then { x with meshLatched := true } else { x with lidLatched := true }) }
/-- `IMAGE` ends on sled 0: what was latched is applied there and no longer held (R559). -/
def boxImage (b : Box) : Box :=
  let x := sledAt b.mod 0
  if b.chan.start.phase ≠ 0 then b
  else pumpBox { chan := chanImage x.lidLatched x.meshLatched b.chan, mod := setSled b.mod 0 { x with lidLatched := false, meshLatched := false } }

/-! ### Poll, fans and heat (R552, R553, R561) -/
/-- A brick's reading: a brick that was working and is not raises `BRICK_FAULT`; a PERMANENT one is switched off unless it is the only
working one. -/
def pollBrick (k : Nat) (r : Bool × Int × Nat) (b : Box) : Box :=
  let x := brickAt b.mod k
  if !x.present then b
  else
    let b1 := { b with mod := setBrick b.mod k { x with ok := r.1, temp := r.2.1, outW := r.2.2 } }
    if x.ok && !r.1 then
      let b2 := boxEv .brickFault [k] { b1 with mod := { b1.mod with brickFault := ctrInc b1.mod.brickFault } }
      let e := boxError 0x40 k b2
      if e.2 then
        let y := brickAt e.1.mod k
        let others := (List.range 2).any (fun j => decide (j ≠ k) && brickWorks (brickAt e.1.mod j))
        { e.1 with mod := setBrick e.1.mod k { y with condemned := true, enabled := !others } }
      else e.1
    else b1
/-- A tray's reading. -/
def pollFan (k : Nat) (r : Bool × Nat × Nat) (b : Box) : Box :=
  let x := fanAt b.mod k
  if !x.present then b
  else
    let b1 := { b with mod := setFan b.mod k { x with ok := r.1, rpmA := r.2.1, rpmB := r.2.2 } }
    if x.ok && !r.1 then
      let e := boxError 0x41 k (boxEv .fanFault [k] b1)
      if e.2 then { e.1 with mod := setFan e.1.mod k { fanAt e.1.mod k with condemned := true } } else e.1
    else b1
/-- What a poll reads of feeds and sleds, the bus and the card. -/
def pollTake (r : Poll) (m : Module) : Module :=
  let m1 := (r.feeds.take 2).zipIdx.foldl (fun (a : Module) x => setFeed a x.2 { feedAt a x.2 with volt := x.1.1, ma := x.1.2 }) m
  let m2 := (r.sleds.take 2).zipIdx.foldl (fun (a : Module) x =>
    setSled a x.2 { sledAt a x.2 with inletT := x.1.1, watts := x.1.2.1, safe := x.1.2.2 && (sledAt a x.2).powered }) m1
  { m2 with busMv := r.busMv, inputW := r.inputW, thermalWarn := m2.thermalWarn && r.hot,
            card := { m2.card with ptpServer := r.ptp, port1g := r.port1g, port10g := r.port10g } }
/-- A poll of the PMBus (R560, R561): faults are raised and entered in the history, and the card's words latched. -/
def boxPoll (r : Poll) (b : Box) : Box :=
  let b1 := (r.bricks.take 2).zipIdx.foldl (fun a x => pollBrick x.2 x.1 a) { b with mod := pollTake r b.mod }
  let b2 := (r.fans.take 4).zipIdx.foldl (fun a x => pollFan x.2 x.1 a) b1
  let w := (pollWords b2.mod).foldl (fun (t : Tab Word) x => tabSet 0#64 t x.1 x.2) b2.mod.words
  pumpBox { b2 with mod := { b2.mod with words := w } }
/-- A channel's fan demand (R552). -/
def boxFanDemand (s pct : Nat) (b : Box) : Box :=
  if (sledAt b.mod s).powered then
    let d := min pct 100
    let m := (List.range 4).foldl (fun (a : Module) k =>
      let x := fanAt a k
      let y := { x with noDemand := false, heardAt := boxClock b }
      setFan a k (if s = 0 then { y with demand0 := some d } else { y with demand1 := some d })) b.mod
    { chan := if s = 0 then { b.chan with fanDemand := d } else b.chan, mod := m }
  else b
/-- A tray that heard no demand for 5 s (R552). -/
def boxFanNoDemand (k : Nat) (b : Box) : Box :=
  boxAt (fun m => let x := fanAt m k; if x.present && !x.noDemand then some (x.heardAt + 5 * nsSec) else none)
    (fun x => { x with mod := setFan x.mod k { fanAt x.mod k with noDemand := true, demand0 := none, demand1 := none } }) b
/-- A die at 100 °C or a sled ambient at 50 °C for 10 s (R553). -/
def boxThermalWarn (s : Nat) (b : Box) : Box :=
  if (sledAt b.mod s).powered then
    let b1 := boxEv .thermalWarn [s] { b with mod := { b.mod with thermalWarn := true } }
    pumpBox (if s = 0 then { b1 with chan := { b1.chan with thermWarn := true } } else b1)
  else b
/-- A die at 110 °C for 1 s (R553): the card or, without it, the other channel removes the sled's supply. -/
def boxThermalShutdown (s : Nat) (b : Box) : Box :=
  if (sledAt b.mod s).powered && (b.mod.card.present || (sledAt b.mod (1 - s)).powered) then
    let b1 := sledDown s (fun x => { x with thermalOff := true }) b
    pumpBox (boxEv .thermalShutdown [s] { b1 with mod := { b1.mod with thermalOff := ctrInc b1.mod.thermalOff } })
  else b
/-- A sled held off has been cool, with three trays working, for 60 s (R553). -/
def boxThermalRestored (s : Nat) (b : Box) : Box :=
  boxAt (fun m => if (sledAt m s).thermalOff then (tabGet none m.cool s).map (· + 60 * nsSec) else none)
    (fun x =>
      let y := { sledAt x.mod s with thermalOff := false, starting := x.mod.busOn, since := boxClock x }
      pumpBox (boxEv .thermalRestored [s] { x with mod := setSled x.mod s y })) b

end Sys2Proof.Machine
end

