-- ==== Sys2Proof/Syntax.lean ====
section
/-! DEFINITION. The commands: one constructor per row of spec/opcode_table.json, in the table's order, with the operands that each carries
from outside (assumption 1): what arrived, on which port, which slot, tap, sheaf or part it concerns. -/
namespace Sys2Proof
open Sys2Proof.Machine

/-- Which of the two units of the model a command of either reaches. -/
inductive On where
  | leaf
  | chan
  deriving DecidableEq, Repr
/-- A Skellet port: port d of the leaf (0 Wheat, 1 Barley, R19), or port p of the channel (downward 0 to 255, upward 256 to 271, R307). -/
inductive At where
  | leaf (d : Nat)
  | chan (p : Nat)
  deriving DecidableEq, Repr
/-- Who asks a management command that a channel or a leaf may run (R529, R531): a session of the card, at the channel; or a barn that relays
it, at the leaf, on domain d. -/
inductive Via where
  | session (place : Nat)
  | relay (d : Nat)
  deriving DecidableEq, Repr
/-- As `Via`, or a write of the leaf's own register (R470, R485). -/
inductive Asker where
  | session (place : Nat)
  | relay (d : Nat)
  | register
  deriving DecidableEq, Repr
/-- A LEAVE (R259): written by host firmware for a slot, or the packet at a channel. -/
inductive LeaveAt where
  | leaf (k : Nat)
  | chan (g : Gran)
  deriving DecidableEq, Repr
/-- A sheaf is CLOSED (R248, R259): told to a leaf on domain d for a slot, found so at its apex, or passing a level. -/
inductive ClosedAt where
  | leaf (d k tag cause : Nat)
  | apex (tag : Nat)
  | level (p : Nat) (g : Gran)
  deriving DecidableEq, Repr
/-- A suspended sheaf (R93, R251): the local one of a slot, or a tag at its apex. -/
inductive SheafAt where
  | hub (k : Nat)
  | apex (tag : Nat)
  deriving DecidableEq, Repr
/-- A result granule (R244): granule i of a generation under resumption count rc, a status or a result granule, landing at a leaf on domain d; or the
packet at a level. -/
inductive ResultAt where
  | leaf (d k gen : Nat) (rc : BitVec 16) (i : Nat) (status : Bool) (g : Granule)
  | level (gs : List Granule)
  deriving DecidableEq, Repr
/-- The end of a replay stream (R353): landing at a leaf, sent by the barn that ran the stream, or passing a channel. -/
inductive EndAt where
  | leaf (d : Nat)
  | stream (cmd rank : Nat)
  | pass (g : Gran)
  deriving DecidableEq, Repr
/-- What the gleaner reads (R377): the leaf's flash, whose pass ends; or at a channel a granule g as it stands with its fold f and whether a
write raced it, of a record's granule. -/
inductive GleanRead where
  | leafFlash
  | chan (w : GleanAt) (g f : Nat) (raced : Bool) (seq gran : Nat)
  deriving DecidableEq, Repr
/-- A relayed command (R529): landing at the leaf on domain d, or on its way through a channel. -/
inductive RelayAt where
  | leaf (d id cmd : Nat) (force : Bool) (body : Bytes)
  | level (gs : List Granule)
  deriving DecidableEq, Repr

/-- The commands of the fabric (opcode_table.json). -/
inductive Instr where
  /-- `LIGHT_DETECTED` (R149) -/
  | lightDetected (a : At) (lane : Nat) (power : Nat)
  /-- `TRAIN_FRAME` (R149) -/
  | trainFrame (a : At) (own : Nat) (g : Gran) (testsDone : Bool)
  /-- `LANE_STUCK` (R151) -/
  | laneStuck (a : At) (k : Nat)
  /-- `IDENT` (R31) -/
  | ident (a : At) (g : Gran)
  /-- `ANCESTRY` (R24) -/
  | ancestry (a : At) (g : Gran)
  /-- `LINK_PARAMS` (R131) -/
  | linkParams (a : At) (g : Gran)
  /-- `TRAINING_TIMEOUT` (R149) -/
  | trainingTimeout (a : At)
  /-- `TRAINING_NO_LIGHT` (R149) -/
  | trainingNoLight (a : At)
  /-- `TRAINING_RETRY` (R31) -/
  | trainingRetry (a : At)
  /-- `DUPLICATE_ORDER` (R32) -/
  | duplicateOrder (g : Gran)
  /-- `LOSS_OF_SIGNAL` (R151) -/
  | lossOfSignal (a : At) (fibreB : Bool)
  /-- `MISSING_SLOTS` (R152) -/
  | missingSlots (a : At)
  /-- `FRAME_LOCK_LOST` (R149) -/
  | frameLockLost (a : At)
  /-- `DATA_FRAME_RECEIVED` (R133) -/
  | dataFrameReceived (a : At) (line : BitVec 320)
  /-- `ACK_NAK` (R133) -/
  | ackNak (a : At) (g : Gran)
  /-- `ACK_NAK_SEND` (R133) -/
  | ackNakSend (a : At)
  /-- `NAK_REPEAT` (R133) -/
  | nakRepeat (a : At)
  /-- `BEAT_SEND` (R136) -/
  | beatSend (a : At)
  /-- `BEAT_RECEIVED` (R137) -/
  | beatReceived (a : At) (g : Gran) (ok : Bool) (e : EdgeIn)
  /-- `BLOCK_RELEASE` (R138) -/
  | blockRelease (a : At)
  /-- `GEAR_ADVANCE` (R163) -/
  | gearAdvance (a : At)
  /-- `SWITCH_RULE4` (R169) -/
  | switchRule4
  /-- `TIME_INFO` (R139) -/
  | timeInfo (a : At) (g : Gran)
  /-- `STEP_NOTICE` (R140) -/
  | stepNotice (a : At) (g : Gran)
  /-- `STEP_INSTANT` (R57) -/
  | stepInstant (u : On)
  /-- `SLEW_END` (R61) -/
  | slewEnd (u : On)
  /-- `UTC_STEP_APPLY` (R63) -/
  | utcStepApply (u : On)
  /-- `TIME_SATURATED` (R69) -/
  | timeSaturated (u : On)
  /-- `TIME_SNAP_LO_READ` (R66) -/
  | timeSnapLoRead (k : Nat)
  /-- `STRICT_REPORT` (R56) -/
  | strictReport (p : Nat) (g : Gran)
  /-- `TURN_SCHED` (R145) -/
  | turnSched (a : At) (g : Gran)
  /-- `TURN_SLOT_DUE` (R144) -/
  | turnSlotDue (p : Nat)
  /-- `TURN_SLOT_FORCED` (R146) -/
  | turnSlotForced (p : Nat)
  /-- `ECHO_RETURNED` (R147) -/
  | echoReturned (a : At) (e : EdgeIn)
  /-- `ECHO_NOT_RETURNED` (R147) -/
  | echoNotReturned (a : At)
  /-- `CAL_RESULT` (R147) -/
  | calResult (a : At) (g : Gran)
  /-- `KEY_NONCE` (R475) -/
  | keyNonce (a : At) (g : Gran)
  /-- `KEY_WRAP_LO` (R475) -/
  | keyWrapLo (a : At) (g : Gran)
  /-- `KEY_WRAP_HI` (R475) -/
  | keyWrapHi (a : At) (g : Gran)
  /-- `KEY_CONFIRM` (R475) -/
  | keyConfirm (a : At) (g : Gran)
  /-- `KEY_CONFIRM_TIMEOUT` (R475) -/
  | keyConfirmTimeout (a : At)
  /-- `KEY_SWITCH` (R477) -/
  | keySwitch (a : At) (g : Gran)
  /-- `NO_KEYS` (R478) -/
  | noKeys (a : At)
  /-- `REKEY_DUE` (R477) -/
  | rekeyDue (p : Nat)
  /-- `REKEY_RETRY` (R477) -/
  | rekeyRetry (p : Nat)
  /-- `TAP_TIME_PAIR_SEND` (R74) -/
  | tapTimePairSend (n : Nat)
  /-- `TAP_TIME_RELOAD` (R77) -/
  | tapTimeReload (n : Nat) (wa : Word) (wb : Word)
  /-- `TAP_FIRE_WORD` (R75) -/
  | tapFireWord (n : Nat) (w : Word)
  /-- `TAP_FIRE` (R82) -/
  | tapFire (n : Nat) (x : RegionIn)
  /-- `FIRED_REPORT` (R83) -/
  | firedReport (n : Nat) (w : Word)
  /-- `TAP_STEP_WORD` (R75) -/
  | tapStepWord (n : Nat) (wa : Word) (wb : Word)
  /-- `TAP_STEP_APPLY` (R75) -/
  | tapStepApply (n : Nat)
  /-- `TAP_CFG_ACCESS` (R490) -/
  | tapCfgAccess (n : Nat) (off : Nat) (wr : Bool) (w : Word)
  /-- `TAP_DELAY_MEASURE` (R76) -/
  | tapDelayMeasure (n : Nat) (roundTrip : Nat)
  /-- `TAP_FAULT` (R86) -/
  | tapFault (n : Nat)
  /-- `REGION_CLOCK_STOPPED` (R86) -/
  | regionClockStopped (n : Nat)
  /-- `LB_ARRIVE` (R93) -/
  | lbArrive (n : Nat) (k : Nat) (flag : Bool)
  /-- `LB_RELEASE_TAP` (R92) -/
  | lbReleaseTap (n : Nat) (k : Nat)
  /-- `LOCAL_GEN_TIMEOUT` (R93) -/
  | localGenTimeout (k : Nat)
  /-- `PHASE_START` (R96) -/
  | phaseStart (n : Nat)
  /-- `PHASE_DONE` (R95): of tap n, with the last region edge it needs, at tap m -/
  | phaseDone (n : Nat) (m : Nat) (after : Nat) (sample : Nat)
  /-- `REPLICA_SAMPLE` (R99): the slack of the last capturing edge, reported `after` time-clock edges from now -/
  | replicaSample (n : Nat) (after : Nat) (slack : Nat)
  /-- `TDC_START_EDGE` (R111) -/
  | tdcStartEdge (u : On) (n : Nat) (e : EdgeIn)
  /-- `TDC_STOP_EDGE` (R111) -/
  | tdcStopEdge (u : On) (n : Nat) (e : EdgeIn)
  /-- `TDC_COARSE_OVERFLOW` (R111) -/
  | tdcCoarseOverflow (u : On) (n : Nat)
  /-- `TDC_LOCK_ACQUIRED` (R114) -/
  | tdcLockAcquired (u : On) (n : Nat) (start : Bool)
  /-- `TDC_LOCK_LOST` (R115) -/
  | tdcLockLost (u : On) (n : Nat) (start : Bool)
  /-- `TDC_LOCK_TIMEOUT` (R115) -/
  | tdcLockTimeout (u : On) (n : Nat)
  /-- `TDC_LOOP_RANGE_CHECK` (R116) -/
  | tdcLoopRangeCheck (u : On) (n : Nat) (v : LoopVal)
  /-- `TDC_HISTOGRAM_DONE` (R116) -/
  | tdcHistogramDone (u : On) (n : Nat) (start : Bool) (hist : List Nat)
  /-- `CAPTURE_EDGE` (R501): an edge at input k, and those at other inputs that the same time-clock edge samples -/
  | captureEdge (k : Nat) (e : EdgeIn) (more : List (Nat × EdgeIn))
  /-- `TIME_LINE_SEND` (R177) -/
  | timeLineSend (u : On)
  /-- `TIME_LINE_RECEIVED` (R178) -/
  | timeLineReceived (p : Nat) (g : Gran)
  /-- `TIME_LINE_COMBINE` (R178) -/
  | timeLineCombine
  /-- `MILL_SETTLE_WAIT` (R179) -/
  | millSettleWait
  /-- `LEAD_LOST` (R180) -/
  | leadLost
  /-- `FOLLOWER_CONFIRM_TIMEOUT` (R181) -/
  | followerConfirmTimeout (id : Nat)
  /-- `STEP_RELAY_CHECK` (R591) -/
  | stepRelayCheck
  /-- `STEP_RELAY` (R591) -/
  | stepRelay (p : Nat) (g : Gran)
  /-- `REF_PULSE` (R192) -/
  | refPulse (r : Nat) (x : RefIn)
  /-- `REF_WINDOW_MISS` (R192) -/
  | refWindowMiss (r : Nat)
  /-- `REF_EDGE_MISS` (R192) -/
  | refEdgeMiss (r : Nat)
  /-- `PTP_SYNC_MISS` (R192) -/
  | ptpSyncMiss
  /-- `PTP_ANNOUNCE_TIMEOUT` (R192) -/
  | ptpAnnounceTimeout
  /-- `GNSS_TIME_INVALID` (R192) -/
  | gnssTimeInvalid
  /-- `GNSS_SURVEY_DONE` (R190) -/
  | gnssSurveyDone
  /-- `REF_FREQ_RESULT` (R193) -/
  | refFreqResult (r : Nat) (m : Int)
  /-- `DISAGREE_CLEARED` (R203) -/
  | disagreeCleared
  /-- `REF_QUALIFIED` (R195) -/
  | refQualified (r : Nat)
  /-- `WTR_END` (R198) -/
  | wtrEnd (r : Nat)
  /-- `SWITCH_COMMIT` (R201) -/
  | switchCommit
  /-- `ANT_OPEN` (R190) -/
  | antOpen
  /-- `ANT_SHORT` (R190) -/
  | antShort
  /-- `ANT_FEED_RETRY` (R190) -/
  | antFeedRetry (feed : Nat)
  /-- `WARM_SET` (R205) -/
  | warmSet
  /-- `WARM_CLEARED` (R205) -/
  | warmCleared
  /-- `HOLDOVER_SAMPLE` (R206) -/
  | holdoverSample
  /-- `AGEING_REFIT` (R206) -/
  | ageingRefit
  /-- `OUTPUT_EDGE` (R211) -/
  | outputEdge (n : Nat)
  /-- `OUTPUT_MONITOR` (R216) -/
  | outputMonitor (n : Nat) (e : EdgeIn)
  /-- `OUT_SHORT` (R216) -/
  | outShort (n : Nat)
  /-- `OUT_SHORT_RETRY` (R216) -/
  | outShortRetry (n : Nat) (still : Bool)
  /-- `OUT_OPEN` (R216) -/
  | outOpen (x : OutSwing)
  /-- `OUT_CFG_APPLY` (R217) -/
  | outCfgApply (n : Nat)
  /-- `JOIN_GO` (R222) -/
  | joinGo (k : Nat)
  /-- `JOIN_FORWARD` (R224) -/
  | joinForward (p : Nat) (gs : List Granule)
  /-- `JOIN_AT_MILL` (R225) -/
  | joinAtMill (p : Nat) (gs : List Granule)
  /-- `JOIN_AT_APEX` (R36) -/
  | joinAtApex (p : Nat) (gs : List Granule)
  /-- `ROUTE_UPDATE` (R43) -/
  | routeUpdate (p : Nat) (gs : List Granule)
  /-- `ROUTE_UPDATE_ACK` (R44) -/
  | routeUpdateAck (g : Gran)
  /-- `ROUTE_UPDATE_RESEND` (R44) -/
  | routeUpdateResend (tag : Nat)
  /-- `ROUTE_UNREACHABLE` (R45) -/
  | routeUnreachable (tag : Nat) (rank : Nat)
  /-- `JOIN_ACK` (R38) -/
  | joinAck (a : At) (g : Gran)
  /-- `WITHDRAW_NOTICE` (R38) -/
  | withdrawNotice (g : Gran)
  /-- `FORM_TIMEOUT` (R228) -/
  | formTimeout (tag : Nat)
  /-- `ARRIVE` (R232) -/
  | arrive (k : Nat) (pay : Nat) (freq : Bool)
  /-- `ARRIVAL_TOKEN` (R233) -/
  | arrivalToken (p : Nat) (g : Gran)
  /-- `ARRIVAL_PAYLOAD` (R234) -/
  | arrivalPayload (p : Nat) (gs : List Granule)
  /-- `LEVEL_CUTOFF` (R270) -/
  | levelCutoff (tag : Nat) (n : Nat)
  /-- `PARTIAL_RECEIVED` (R274) -/
  | partialReceived (p : Nat) (sender : Nat) (gs : List Granule)
  /-- `PARTIAL_TIMEOUT` (R274) -/
  | partialTimeout (tag : Nat) (n : Nat) (sender : Nat)
  /-- `DECISION_TIME` (R236) -/
  | decisionTime (tag : Nat) (n : Nat)
  /-- `UNHEARD_TIMEOUT` (R236) -/
  | unheardTimeout (tag : Nat) (rank : Nat)
  /-- `GENERATION_THRESHED` (R231) -/
  | generationThreshed (tag : Nat) (n : Nat)
  /-- `LAUNCH_WORD` (R242) -/
  | launchWord (a : At) (g : Gran)
  /-- `LAUNCH_FIRE` (R242) -/
  | launchFire (k : Nat) (gen : Nat)
  /-- `FAILURE_WORD` (R245) -/
  | failureWord (a : At) (g : Gran)
  /-- `LAUNCH_MISSED` (R243) -/
  | launchMissed (k : Nat) (gen : Nat)
  /-- `RESULT_GRANULE` (R244) -/
  | resultGranule (v : ResultAt)
  /-- `RESULT_MISSING` (R244) -/
  | resultMissing (k : Nat) (gen : Nat)
  /-- `FENCE_NOTICE` (R431) -/
  | fenceNotice (g : Gran)
  /-- `SUSPEND_TIMEOUT` (R251) -/
  | suspendTimeout (v : SheafAt)
  /-- `AUTO_JOIN` (R252) -/
  | autoJoin (k : Nat) (d : Nat)
  /-- `REFORM_NOTICE` (R253) -/
  | reformNotice (a : At) (g : Gran)
  /-- `PARK` (R254) -/
  | park (k : Nat)
  /-- `PARK_NOTICE` (R254) -/
  | parkNotice (g : Gran)
  /-- `UNPARK` (R257) -/
  | unpark (k : Nat)
  /-- `UNPARK_NOTICE` (R257) -/
  | unparkNotice (g : Gran)
  /-- `LEAVE` (R259) -/
  | leave (v : LeaveAt)
  /-- `SHEAF_CLOSED` (R259) -/
  | sheafClosed (v : ClosedAt)
  /-- `OUTLIER_NOTE` (R410) -/
  | outlierNote (g : Gran)
  /-- `TASK_COMPLETE` (R313) -/
  | taskComplete (t : Nat) (ok : Bool)
  /-- `THRESHER_STEAL` (R311) -/
  | thresherSteal (t : Nat)
  /-- `STARVE_PROMOTE` (R321) -/
  | starvePromote
  /-- `LOAD_WINDOW` (R327) -/
  | loadWindow
  /-- `IDLE_SELFTEST` (R416) -/
  | idleSelftest (kind : Nat) (ix : Nat) (pass : Bool)
  /-- `SATURATION_ENTER` (R286) -/
  | saturationEnter
  /-- `SATURATION_EXIT` (R286) -/
  | saturationExit
  /-- `CLUSTER_LOST` (R328) -/
  | clusterLost (k : Nat)
  /-- `CAPTURE_DESCRIPTOR` (R343) -/
  | captureDescriptor (h : Nat) (g : Gran)
  /-- `CAPTURE_DATA_BEAT` (R578) -/
  | captureDataBeat (h : Nat) (g : Granule) (nbytes : Nat) (eop : Bool)
  /-- `CAPTURE_IDLE_TIMEOUT` (R346) -/
  | captureIdleTimeout (h : Nat)
  /-- `CAPTURE_OPEN_PACKET` (R345) -/
  | captureOpenPacket (p : Nat) (o0 : Gran) (o1 : Gran)
  /-- `CAPTURE_DATA_PACKET` (R345) -/
  | captureDataPacket (p : Nat) (d0 : Gran) (gs : List Granule)
  /-- `CAPTURE_CLOSE_PACKET` (R345) -/
  | captureClosePacket (p : Nat) (c0 : Gran) (c1 : Gran)
  /-- `CAPTURE_CLOSE_TIMEOUT` (R346) -/
  | captureCloseTimeout (p : Nat) (k : Nat) (seq : Nat)
  /-- `LEDGER_ROOT` (R352) -/
  | ledgerRoot
  /-- `RETENTION_CHECK` (R350) -/
  | retentionCheck
  /-- `SILO_MODE` (R350) -/
  | siloMode (d : Nat) (g : Gran)
  /-- `REGION_MIGRATION_DONE` (R335) -/
  | regionMigrationDone (n : Nat)
  /-- `STACK_LOST` (R336) -/
  | stackLost (k : Nat)
  /-- `REPLAY_RECORD` (R354) -/
  | replayRecord (d : Nat) (r : RepRec)
  /-- `REPLAY_FETCH` (R354) -/
  | replayFetch (p : Nat) (g : Gran)
  /-- `REPLAY_FETCH_TIMEOUT` (R354) -/
  | replayFetchTimeout
  /-- `REPLAY_END` (R353) -/
  | replayEnd (v : EndAt)
  /-- `COMPARE_FIND` (R357) -/
  | compareFind (g : Gran) (d : Gran)
  /-- `GLEANER_PASS_START` (R377) -/
  | gleanerPassStart (v : Option GleanAt)
  /-- `GLEANER_GRANULE` (R377) -/
  | gleanerGranule (v : GleanRead)
  /-- `BUCKET_LEAK` (R376) -/
  | bucketLeak (u : On)
  /-- `MEMBER_FINGERPRINT` (R385) -/
  | memberFingerprint (p : Nat) (g : Gran)
  /-- `RUN_FINGERPRINT` (R386) -/
  | runFingerprint (gs : List Granule)
  /-- `HOST_FP_WRITE` (R389) -/
  | hostFpWrite (dum : Bool) (w : Word)
  /-- `MISMATCH_CLASSIFY` (R400) -/
  | mismatchClassify (k : Nat) (gen : Nat)
  /-- `MISMATCH_NOTICE` (R401) -/
  | mismatchNotice (g : Gran)
  /-- `PATH_SWEEP_DONE` (R402) -/
  | pathSweepDone (tag : Nat) (failed : List (Nat × Nat))
  /-- `HISTORY_DECAY` (R415) -/
  | historyDecay (u : On) (n : Nat)
  /-- `TEST_REQUEST` (R419) -/
  | testRequest (v : Via) (id : Nat) (serial : Nat) (pack : Nat) (reps : Nat) (fence : Bool) (bytes : Bytes)
  /-- `TEST_BUSY_TIMEOUT` (R419) -/
  | testBusyTimeout
  /-- `TEST_DIGEST` (R420) -/
  | testDigest (g : Gran)
  /-- `TEST_ITEM_TIMEOUT` (R420) -/
  | testItemTimeout
  /-- `TEST_ABORT` (R422) -/
  | testAbort
  /-- `TEST_NO_RESULT` (R420) -/
  | testNoResult (id : Nat)
  /-- `TEST_ENGINE_NOT_READY` (R580) -/
  | testEngineNotReady
  /-- `TEST_PERIOD` (R421) -/
  | testPeriod (packs : List (Nat × Bytes))
  /-- `HEARTBEAT` (R429) -/
  | heartbeat
  /-- `HB_TIMEOUT_WRITE` (R429) -/
  | hbTimeoutWrite (v : Nat)
  /-- `HEARTBEAT_EXPIRE` (R429) -/
  | heartbeatExpire
  /-- `HOST_RESET` (R428) -/
  | hostReset
  /-- `FENCE_PIN` (R428) -/
  | fencePin
  /-- `FENCE_DRAINED` (R430) -/
  | fenceDrained
  /-- `UNFENCE` (R434) -/
  | unfence
  /-- `LEAF_RESET` (R435) -/
  | leafReset
  /-- `RESET_RELEASE` (R568) -/
  | resetRelease (ws : List (Option Word))
  /-- `IMAGE_ACCEPTED` (R452) -/
  | imageAccepted (u : On)
  /-- `SELFTEST_DONE` (R456) -/
  | selftestDone (u : On) (r : SelfTest)
  /-- `RESTORE_DONE` (R456) -/
  | restoreDone (u : On)
  /-- `CFG_LOCK` (R457) -/
  | cfgLock
  /-- `USER_BLOCK_SAVE` (R463) -/
  | userBlockSave (u : On) (hourly : Bool)
  /-- `INJECT` (R439) -/
  | inject (place : Nat) (id : Nat) (kind : Nat) (arg : Nat) (arg2 : Nat) (dur : Nat) (count : Nat) (force : Bool) (safe : Bool)
  /-- `INJECT_CANCEL` (R439) -/
  | injectCancel (place : Nat) (id : Nat) (target : Nat)
  /-- `INJECT_END` (R441) -/
  | injectEnd (id : Nat)
  /-- `MARGIN_REPORT_SEND` (R443) -/
  | marginReportSend (u : On) (os : List Optics)
  /-- `MARGIN_REPORT` (R443) -/
  | marginReport (p : Nat) (g : Gran)
  /-- `FORECAST_EVAL` (R444) -/
  | forecastEval
  /-- `FORECAST` (R444) -/
  | forecast (d : Nat) (g : Gran)
  /-- `LID_OPEN` (R479) -/
  | lidOpen
  /-- `MESH_FAULT` (R479) -/
  | meshFault
  /-- `VOLT_GLITCH` (R479) -/
  | voltGlitch (u : On)
  /-- `CLOCK_GLITCH` (R479) -/
  | clockGlitch (u : On)
  /-- `TEMP_VIOLATION` (R479) -/
  | tempViolation (u : On)
  /-- `HOST_ALARM` (R479) -/
  | hostAlarm
  /-- `FUSE_BLOW_DONE` (R573) -/
  | fuseBlowDone (u : On) (ok : Bool)
  /-- `DEBUG_UNLOCK_REQUEST` (R484) -/
  | debugUnlockRequest (v : Asker) (id : Nat) (serial : Nat)
  /-- `DEBUG_UNLOCK_RESPONSE` (R484) -/
  | debugUnlockResponse (v : Asker) (id : Nat) (serial : Nat) (dur : Nat) (sig : Bytes)
  /-- `DEBUG_LOCK` (R484) -/
  | debugLock (v : Asker) (id : Nat) (serial : Nat)
  /-- `DEBUG_EXPIRY` (R484) -/
  | debugExpiry (u : On)
  /-- `CHALLENGE_EXPIRY` (R484) -/
  | challengeExpiry (u : On)
  /-- `ALARM_CLEAR` (R481) -/
  | alarmClear (v : Via) (id : Nat) (serial : Nat) (sig : Bytes)
  /-- `KEY_ROTATE` (R477) -/
  | keyRotate (place : Nat) (id : Nat) (body : Bytes)
  /-- `REGISTER_WRITE` (R487) -/
  | registerWrite (wr : Bool) (addr : Nat) (w : Word) (poison : Bool)
  /-- `HIST_SEL_WRITE` (R495) -/
  | histSelWrite (n : Nat)
  /-- `TRIGGER_WRITE` (R497) -/
  | triggerWrite (k : Nat) (off : Nat) (w : Word)
  /-- `TRIGGER_EDGE` (R498) -/
  | triggerEdge (k : Nat)
  /-- `TRIGGER_PULSE_END` (R497) -/
  | triggerPulseEnd (k : Nat)
  /-- `CAP_POP_READ` (R500) -/
  | capPopRead
  /-- `SUM_REQUEST` (R519) -/
  | sumRequest
  /-- `SUMMARY_READY` (R519) -/
  | summaryReady
  /-- `RES_SEL_WRITE` (R513) -/
  | resSelWrite (k : Nat) (w : Word)
  /-- `INT_FIFO_READ` (R522) -/
  | intFifoRead
  /-- `FLASH_READ` (R514) -/
  | flashRead
  /-- `FLASH_PROGRAM` (R515) -/
  | flashProgram
  /-- `FLASH_TRIM_ADD` (R516) -/
  | flashTrimAdd
  /-- `FLASH_STAGE_DONE` (R517) -/
  | flashStageDone
  /-- `FLASH_DONE` (R515) -/
  | flashDone
  /-- `SESSION_OPEN` (R525) -/
  | sessionOpen (ok : Bool) (addr : Nat)
  /-- `SESSION_IDLE_TIMEOUT` (R526) -/
  | sessionIdleTimeout (place : Nat)
  /-- `SUMMARY` (R532) -/
  | summary (v : Via) (id : Nat) (serial : Nat)
  /-- `SUMMARY_PAGE1` (R532) -/
  | summaryPage1 (place : Nat) (id : Nat) (seq : Nat)
  /-- `REG_READ` (R534) -/
  | regRead (place : Nat) (id : Nat) (off : Nat) (n : Nat)
  /-- `REG_WRITE` (R534) -/
  | regWrite (place : Nat) (id : Nat) (off : Nat) (v : Nat) (mask : Nat)
  /-- `PHASE_STEP` (R55) -/
  | phaseStep (place : Nat) (id : Nat) (utc : Bool) (delta : Int) (at_ : Nat)
  /-- `TIME_PASS` (R181) -/
  | timePass (place : Nat) (id : Nat) (utc : Bool) (delta : Int) (at_ : Nat) (count : Nat)
  /-- `FENCE` (R428) -/
  | fence (v : Via) (id : Nat) (serial : Nat)
  /-- `FENCE_RELEASE` (R434) -/
  | fenceRelease (v : Via) (id : Nat) (serial : Nat)
  /-- `CLOSE` (R259) -/
  | close (place : Nat) (id : Nat) (tag : Nat) (known : Bool)
  /-- `FORCE_ARRIVE` (R258) -/
  | forceArrive (place : Nat) (id : Nat) (tag : Nat) (rank : Nat) (n : Nat) (there : Nat)
  /-- `FORCE_RELEASE` (R258) -/
  | forceRelease (place : Nat) (id : Nat) (tag : Nat) (n : Nat) (there : Nat)
  /-- `RESTORE_FACTORY_ARM` (R465) -/
  | restoreFactoryArm (v : Asker) (id : Nat) (serial : Nat)
  /-- `RESTORE_FACTORY_CONFIRM` (R466) -/
  | restoreFactoryConfirm (v : Asker) (id : Nat) (serial : Nat) (code : Nat) (force : Bool)
  /-- `ARM_EXPIRY` (R465) -/
  | armExpiry (u : On)
  /-- `IMAGE_WRITE` (R454) -/
  | imageWrite (place : Nat) (id : Nat) (off : Nat) (last : Bool) (data : Bytes)
  /-- `CAL_WRITE` (R463) -/
  | calWrite (place : Nat) (id : Nat) (body : Bytes)
  /-- `RESTART` (R467) -/
  | restart (place : Nat) (id : Nat) (force : Bool) (safe : Bool)
  /-- `RESTART_WAIT_END` (R540) -/
  | restartWaitEnd
  /-- `PACK_LOAD` (R358) -/
  | packLoad (place : Nat) (id : Nat) (off : Nat) (total : Nat) (last : Bool) (data : Bytes)
  /-- `REPLAY` (R353) -/
  | replay (place : Nat) (id : Nat) (body : Bytes)
  /-- `HISTORY_READ` (R531) -/
  | historyRead (v : Via) (id : Nat) (serial : Nat) (first : Nat) (count : Nat)
  /-- `HISTORY_CLEAR` (R415) -/
  | historyClear (v : Via) (id : Nat) (serial : Nat) (path : Nat)
  /-- `LOG_READ` (R536) -/
  | logRead (place : Nat) (id : Nat) (area : Nat) (tag : Nat) (first : Nat) (limit : Nat)
  /-- `TELEMETRY` (R538) -/
  | telemetry (place : Nat) (target : Nat) (id : Nat) (stream : Nat) (first : Nat)
  /-- `TELEMETRY_STOP` (R538) -/
  | telemetryStop (place : Nat) (target : Nat) (id : Nat)
  /-- `TELEMETRY_TICK` (R539) -/
  | telemetryTick
  /-- `MODULE_STATUS` (R560) -/
  | moduleStatus (place : Nat) (id : Nat)
  /-- `CARD_CONFIG` (R537) -/
  | cardConfig (place : Nat) (id : Nat) (addr : Bytes) (digest : Bytes)
  /-- `MGMT_RELAY` (R529) -/
  | mgmtRelay (v : RelayAt)
  /-- `MGMT_ANSWER` (R529) -/
  | mgmtAnswer (gs : List Granule)
  /-- `LEAF_NO_ANSWER` (R529) -/
  | leafNoAnswer (id : Nat)
  /-- `FEED_USABLE` (R544) -/
  | feedUsable (f : Nat)
  /-- `FEED_UNDERVOLT` (R544) -/
  | feedUndervolt (f : Nat)
  /-- `FEED_OVERVOLT` (R544) -/
  | feedOvervolt (f : Nat)
  /-- `FEED_REVERSED` (R544) -/
  | feedReversed (f : Nat)
  /-- `FEED_ABSENT` (R544) -/
  | feedAbsent (f : Nat)
  /-- `POWER_WARN` (R547) -/
  | powerWarn
  /-- `BUS_COLLAPSE` (R547) -/
  | busCollapse
  /-- `SLED_SOFT_START_DONE` (R550) -/
  | sledSoftStartDone (k : Nat)
  /-- `SLED_SOFT_START_TIMEOUT` (R550) -/
  | sledSoftStartTimeout (k : Nat)
  /-- `SLED_OVERCURRENT` (R550) -/
  | sledOvercurrent (k : Nat)
  /-- `SLED_TRIP_RETRY` (R550) -/
  | sledTripRetry (k : Nat)
  /-- `SLED_INSERTED` (R557) -/
  | sledInserted (k : Nat) (board : Option Board)
  /-- `SLED_REMOVED` (R557) -/
  | sledRemoved (k : Nat)
  /-- `BRICK_INSERTED` (R557) -/
  | brickInserted (k : Nat)
  /-- `BRICK_REMOVED` (R557) -/
  | brickRemoved (k : Nat)
  /-- `FAN_INSERTED` (R557) -/
  | fanInserted (k : Nat)
  /-- `FAN_REMOVED` (R557) -/
  | fanRemoved (k : Nat)
  /-- `CARD_INSERTED` (R557) -/
  | cardInserted (selftestOk : Bool)
  /-- `CARD_REMOVED` (R540) -/
  | cardRemoved
  /-- `PMBUS_POLL` (R561) -/
  | pmbusPoll (r : Poll)
  /-- `FAN_DEMAND` (R552) -/
  | fanDemand (k : Nat) (pct : Nat)
  /-- `FAN_NO_DEMAND` (R552) -/
  | fanNoDemand (k : Nat)
  /-- `THERMAL_WARN` (R553) -/
  | thermalWarn (k : Nat)
  /-- `THERMAL_SHUTDOWN` (R553) -/
  | thermalShutdown (k : Nat)
  /-- `THERMAL_RESTORED` (R553) -/
  | thermalRestored (k : Nat)
  /-- `SLED_LID_UNPOWERED` (R559) -/
  | sledLidUnpowered (k : Nat) (mesh : Bool)
  /-- `HUB_REF_CLOCK_FAIL` (R567) -/
  | hubRefClockFail
  /-- `SENSOR_UPDATE` (R581) -/
  | sensorUpdate (u : On) (n : Nat) (temp : Int) (mv : Nat) (vmin : Nat)
  /-- `SENSOR_STALE` (R581) -/
  | sensorStale (u : On) (n : Nat)
  /-- `FOLLOWER_CONFIRM` (R181) -/
  | followerConfirm (id : Nat)
  /-- `HOLDOVER_UPDATE` (R208) -/
  | holdoverUpdate
  /-- `REGION_EDGE` (R87) -/
  | regionEdge (n : Nat) (x : RegionIn)
  /-- `FORGET_PAIR` (R224) -/
  | forgetPair (tag : Nat) (digest : Gran)
  /-- `FENCE_INPUT_DEASSERTED` (R434) -/
  | fenceInputDeasserted (reset : Bool)
  /-- `ENGINE_VECTOR_TEST` (R416) -/
  | engineVectorTest (a : At) (pass : Bool)
  /-- `SESSION_CLOSED` (R526) -/
  | sessionClosed (place : Nat)
  /-- `BAD_COMMAND` (R530) -/
  | badCommand (place : Nat) (target : Nat) (cmd : Nat) (id : Nat)
  deriving DecidableEq, Repr

end Sys2Proof
end

