-- ==== Sys2Proof/Decode.lean ====
section
/-! DEFINITION. The word form of commands. spec/opcode_table.json gives no row any bits: every row's `fields` are empty, and its operands come
from outside as packets, messages, pins and register accesses. So no word spells a command (assumption 1). -/
namespace Sys2Proof

/-- The command that a word spells by the table's bits: no row of the table has any, so none. -/
def decodeTableWord (_nbits _w : Nat) : Option Instr := none

end Sys2Proof
end

