-- ==== Sys2Proof/Machine/Ranges.lean ====
section
/-! DEFINITION. The ranges of operands that number a port, a slot, a TDC, an engine or a region of the fabric. -/
namespace Sys2Proof.Machine

/-- Ports: two at a leaf (R19), 272 at a channel (R307). -/
def atOk : At → Bool
  | .leaf d => decide (d < 2)
  | .chan p => decide (p < 272)
/-- TDCs: four at a leaf (R118), 64 at a channel (R119). -/
def tdcOk : On → Nat → Bool
  | .leaf, n => decide (n < 4)
  | .chan, n => decide (n < 64)
/-- The domain that relays a command to the leaf (R529). -/
def viaOk : Via → Bool
  | .session _ => true
  | .relay d => decide (d < 2)
def askerOk : Asker → Bool
  | .session _ => true
  | .relay d => decide (d < 2)
  | .register => true
/-- Slots: 32 at a leaf (R222). -/
def leaveOk : LeaveAt → Bool
  | .leaf k => decide (k < 32)
  | .chan _ => true
def closedOk : ClosedAt → Bool
  | .leaf d k _ _ => decide (d < 2) && decide (k < 32)
  | .apex _ => true
  | .level p _ => decide (p < 272)
def sheafAtOk : SheafAt → Bool
  | .hub k => decide (k < 32)
  | .apex _ => true
def resultOk : ResultAt → Bool
  | .leaf d k _ _ _ _ _ => decide (d < 2) && decide (k < 32)
  | .level _ => true
def endOk : EndAt → Bool
  | .leaf d => decide (d < 2)
  | .stream _ _ => true
  | .pass _ => true
def relayOk : RelayAt → Bool
  | .leaf d _ _ _ _ => decide (d < 2)
  | .level _ => true
/-- Regions: 192 in each of 16 stacks (R333), 3072 naming the whole granary; four cache slices (R307). -/
def gleanAtOk : GleanAt → Bool
  | .region i => decide (i ≤ 3072)
  | .slice k => decide (k < 4)
  | .flash => true
/-- A pass: the leaf's over its flash, or a channel's. -/
def gleanOk : Option GleanAt → Bool
  | none => true
  | some w => gleanAtOk w
/-- A read stands in one region, one slice or the flash. -/
def gleanReadOk : GleanRead → Bool
  | .leafFlash => true
  | .chan w _ _ _ _ _ => match w with | .region i => decide (i < 3072) | _ => gleanAtOk w
/-- Engines an idle self-test tries (R322, R416): threshers 0 to 63 (kind 1), digest units and ledger writers 0 to 15 (kinds 2 and 3). -/
def selfTestOk (kind ix : Nat) : Bool := (decide (kind = 1) && decide (ix < 64)) || ((decide (kind = 2) || decide (kind = 3)) && decide (ix < 16))

end Sys2Proof.Machine
end

