-- ==== Sys2Proof/Machine/State.lean ====
section
/-! DEFINITION. The machine's state: one leaf, one MX-2 module with its channel on sled 0, and the commands that wait, first in, first out
(assumption 1); the reasons a step can stop; and the state after reset. -/
namespace Sys2Proof.Machine

/-- The machine. -/
structure State where
  leaf    : Leaf := {}
  box     : Box := {}
  pending : List Instr := []
  deriving DecidableEq, Repr

/-- Why a step stops. Every one is raised by a command whose operand numbers a thing that the fabric does not have (assumption 2), and every
one is safe: the hardware has no such thing for a command to reach. -/
inductive Fault where
  /-- a port beyond the leaf's two (R19) or the channel's 272 (R307), or a domain beyond 1; raised by the rows that land at a port. Safe. -/
  | noSuchPort
  /-- a lane-end or fibre that a port does not have (R141); raised by the training rows. Safe. -/
  | noSuchLane
  /-- a snapshot context (R66) or local channel (R91) beyond 3. Safe. -/
  | noSuchContext
  /-- a region tap beyond 63 (R73). Safe. -/
  | noSuchTap
  /-- a TDC beyond the leaf's 4 (R118) or the channel's 64 (R119). Safe. -/
  | noSuchTdc
  /-- a trigger output, capture input or result aperture beyond 7 (R497, R500, R513). Safe. -/
  | noSuchPin
  /-- a reference beyond 3 (R186). Safe. -/
  | noSuchReference
  /-- an output beyond 15 (R211). Safe. -/
  | noSuchOutput
  /-- a sheaf slot beyond 31 (R222). Safe. -/
  | noSuchSlot
  /-- a thresher, digest unit, writer or cluster that a channel does not have (R307). Safe. -/
  | noSuchEngine
  /-- a capture handle beyond 15 (R578). Safe. -/
  | noSuchHandle
  /-- a memory region, stack or cache slice that a granary does not have (R333). Safe. -/
  | noSuchRegion
  /-- a sensor beyond 3 (R581). Safe. -/
  | noSuchSensor
  /-- a feed, brick, fan tray or sled that a module does not have (R541). Safe. -/
  | noSuchPart
  deriving DecidableEq, Repr

/-- Why the model refuses a command: it has not been given its meaning. Raised by no arm of `exec` now. -/
inductive Refusal where
  | notModelled (mnemonic : String)
  deriving DecidableEq, Repr

/-- The machine right after reset (R54, R337, R435, R560): every field at the value the spec gives, or, where it gives none, at the one that
the assumption log names; no command waits. -/
def State.reset : State := {}

end Sys2Proof.Machine
end

