-- ==== Sys2Proof/Machine/Ops.lean ====
section
/-! DEFINITION. How a command reaches its unit: the leaf while it runs, the channel while its sled is supplied, the module; and what each unit
does after every command that reached it. Raising an interrupt or an event is `leafRaise` and `chanRaise`. -/
namespace Sys2Proof.Machine

/-- What a meaning answers. -/
abbrev Out := Host.Outcome State Fault Refusal

/-- Go on only when the operands number things that exist; `f` names what does not. -/
def need (ok : Bool) (f : Fault) (k : Out) : Out := if ok then k else .fault f
/-- Does the leaf run? In reset, and without its clock, it answers nothing (R435, R567). -/
def leafRuns (l : Leaf) : Bool := !l.inReset && !l.clkFail
/-- A command at the leaf, when it runs. -/
def leafStep (f : Leaf → Leaf) (l : Leaf) : Leaf := if leafRuns l then f l else l
/-- A command at the leaf. -/
def leafDo (f : Leaf → Leaf) (s : State) : Out := .next { s with leaf := leafStep f s.leaf }
/-- A reset or clock event of the leaf, which needs nothing running. -/
def leafAlways (f : Leaf → Leaf) (s : State) : Out := .next { s with leaf := f s.leaf }
/-- A change of an input's level at the leaf: `f` while it runs; a leaf held in reset or without its clock takes the level alone. -/
def leafInput (f level : Leaf → Leaf) (s : State) : Out := leafAlways (fun l => if leafRuns l then f l else level l) s
/-- A command at the module. -/
def boxDo (f : Box → Box) (s : State) : Out := .next { s with box := f s.box }
/-- What a channel does after every command that reached it: injections whose count is used up end (R439), units that history condemned leave service
(R417), and it is kept since when the threshers' queues call for another mode (R286). -/
def chanSettled (c : Chan) : Chan := satSettle (unitSettle (injSettle c))
/-- A command at the channel, while sled 0 is supplied; the card then takes answers and telemetry. -/
def chanStep (f : Chan → Chan) (b : Box) : Box :=
  if chanPowered b.mod then pumpBox { b with chan := chanSettled (f b.chan) } else b
def chanDo (f : Chan → Chan) (s : State) : Out := boxDo (chanStep f) s
/-- In QUARANTINE a channel keeps every Skellet port dark: nothing arrives on one (R455). -/
def portLive (f : Chan → Chan) (c : Chan) : Chan := if c.start.phase = 4 then c else f c
/-- A command at a port of the channel, or of a packet it carries. -/
def linkDo (f : Chan → Chan) (s : State) : Out := chanDo (portLive f) s
/-- A command of either unit. -/
def atUnit (u : On) (f : Leaf → Leaf) (g : Chan → Chan) (s : State) : Out :=
  match u with
  | .leaf => leafDo f s
  | .chan => chanDo g s
/-- A command at a port of either unit. -/
def atPort (a : At) (f : Nat → Leaf → Leaf) (g : Nat → Chan → Chan) (s : State) : Out :=
  match a with
  | .leaf d => leafDo (f d) s
  | .chan p => linkDo (g p) s
/-- An operation of one port, with what it raises and what a changed link brings about. -/
def portRow (a : At) (f : Nat → Port → Evd Port) (s : State) : Out :=
  atPort a (fun d => leafPortDo d (f d)) (fun p => chanPortDo p (f p)) s
/-- One that also needs the unit's keys (R475). -/
def keyRow (a : At) (f : KeyCtx → Nat → Port → Evd Port) (s : State) : Out :=
  atPort a (fun d l => leafPortDo d (f (leafKeyCtx l d) d) l) (fun p c => chanPortDo p (f (chanKeyCtx c p) p) c) s
/-- An operation of one TDC, on its unit's time, `after` edges of the time clock from now. -/
def tdcRow (u : On) (n after : Nat) (f : TimeCore → Tdc → Tdc) (s : State) : Out :=
  atUnit u (fun l0 => let l := leafTicks after l0; setLeafTdc l n (f l.time (leafTdc l n)))
    (fun c0 => let c := chanEdges after c0; setChanTdc c n (f c.clk.time (chanTdc c n))) s
/-- Is reference r absent: by an injection (R439), or, as PTP, with the card that holds its client (R191, R540)? -/
def refAway (m : Module) (r : Nat) (c : Chan) : Bool := refDark c r || (decide (r = 3) && !m.card.present)
/-- Something of reference r, `after` edges from now, unless it is absent. -/
def refRow (r after : Nat) (f : Chan → Chan) (s : State) : Out :=
  chanDo (fun c0 => let c := chanEdges after c0; if refAway s.box.mod r c then c else f c) s
/-- Does the lead's card know its follower, by `CARD_CONFIG` (R537)? -/
def followerKnown (m : Module) : Bool := m.card.present && m.card.follower.isSome
/-- A deadline of the channel's clock. -/
def clkRow (due : ChanClock → Option Nat) (act : ChanClock → ClockOut) (s : State) : Out := chanDo (chanClkAt due act) s
/-- A management request on a session, to the channel. -/
def askRow (place cmd id : Nat) (force : Bool) (run : Chan → Chan × Reply) (s : State) : Out :=
  boxDo (askChan place cmd id force (fun c => let r := run c; (chanSettled r.1, r.2))) s
/-- One that a leaf may get relayed: its body as it was sent (R529). -/
def viaRow (v : Via) (id cmd : Nat) (force : Bool) (body : Bytes) (run : Chan → Chan × Reply) (s : State) : Out :=
  match v with
  | .session p => askRow p cmd id force run s
  | .relay d => leafDo (leafRelay d id cmd force body) s
/-- One that the leaf's registers offer too. -/
def askerRow (v : Asker) (id cmd : Nat) (force : Bool) (body : Bytes) (run : Chan → Chan × Reply) (reg : Leaf → Leaf) (s : State) : Out :=
  match v with
  | .session p => askRow p cmd id force run s
  | .relay d => leafDo (leafRelay d id cmd force body) s
  | .register => leafDo reg s

/-! ### The time clock (assumption 10) -/
/-- The machine idles for one edge of the time clock. -/
def tick (s : State) : State := { s with leaf := leafStep leafTick s.leaf, box := chanStep chanEdge s.box }

end Sys2Proof.Machine
end

