-- ==== Sys2Proof/Machine/Operands.lean ====
section
/-! DEFINITION. The operand forms: what a command does by where it lands or who asks it. -/
namespace Sys2Proof.Machine

/-- Is port number ix of a unit the upper end of its link? A leaf's never is; a channel's downward ports are. -/
def upperEnd (a : At) (ix : Nat) : Bool :=
  match a with
  | .leaf _ => false
  | .chan _ => !isUpPort ix
/-- A LEAVE (R259). -/
def leaveRow (v : LeaveAt) (s : State) : Out :=
  match v with
  | .leaf k => leafDo (leafLeave k) s
  | .chan g => linkDo (chanLeave g) s
/-- A sheaf is CLOSED (R248, R259). -/
def closedRow (v : ClosedAt) (s : State) : Out :=
  match v with
  | .leaf d k tag cause => leafDo (leafSheafClosed d k tag cause) s
  | .apex tag => linkDo (chanClosed tag) s
  | .level p g => linkDo (levelClosed p g) s
/-- A suspension has lasted its time (R93, R251). -/
def suspendRow (v : SheafAt) (s : State) : Out :=
  match v with
  | .hub k => leafDo (leafLocalSuspendTimeout k) s
  | .apex tag => linkDo (chanSuspendTimeout tag) s
/-- A result granule (R244, R248). -/
def resultRow (v : ResultAt) (s : State) : Out :=
  match v with
  | .leaf d k gen rc i status g => leafDo (leafResultGranule d k gen rc i status g) s
  | .level gs => linkDo (levelResult gs) s
/-- A replay stream ends (R353). -/
def endRow (v : EndAt) (s : State) : Out :=
  match v with
  | .leaf d => leafDo (leafReplayEnd d) s
  | .stream cmd rank => linkDo (chanStreamEnd cmd rank) s
  | .pass g => linkDo (chanEndPass g) s
/-- A scrub pass falls due (R377): the leaf's over its flash, or the channel's. -/
def gleanStartRow (v : Option GleanAt) (s : State) : Out :=
  match v with
  | none => leafDo leafPassDue s
  | some w => chanDo (chanGleanStart w) s
/-- The gleaner's read completes (R377, R378). -/
def gleanReadRow (v : GleanRead) (s : State) : Out :=
  match v with
  | .leafFlash => leafDo leafPassEnd s
  | .chan w g f raced seq gran => chanDo (chanGleanGranule w g f raced seq gran) s
/-- A relayed command lands, or passes (R529). -/
def relayRow (v : RelayAt) (s : State) : Out :=
  match v with
  | .leaf d id cmd force body => leafDo (leafRelay d id cmd force body) s
  | .level gs => linkDo (chanRelayPass gs) s
/-- `IMAGE` ends (R452): on sled 0 with what was latched while it was unpowered (R559). -/
def imageRow (u : On) (s : State) : Out :=
  match u with
  | .leaf => leafDo leafImage s
  | .chan => boxDo (fun b => if chanPowered b.mod then boxImage b else b) s
/-- A test order's body (R531). -/
def testBody (serial pack reps : Nat) (fence : Bool) : Bytes := leBytes 8 serial ++ leBytes 4 pack ++ leBytes 1 reps ++ leBytes 3 (b2n fence)
/-- `RESTORE_FACTORY` `ARM` and `CONFIRM` (R465). -/
def armRow (v : Asker) (id serial : Nat) (s : State) : Out :=
  askerRow v id cmRestore false (leBytes 8 serial ++ leBytes 2 0 ++ leBytes 2 0) (mgmtArm id serial) leafArm s
def confirmRow (v : Asker) (id serial code : Nat) (force : Bool) (s : State) : Out :=
  askerRow v id cmRestore force (leBytes 8 serial ++ leBytes 2 1 ++ leBytes 2 code) (mgmtConfirm id serial code force) (leafConfirm none force) s
/-- `DEBUG_UNLOCK` and `DEBUG_LOCK` (R484, R485). -/
def debugRequestRow (v : Asker) (id serial : Nat) (s : State) : Out :=
  askerRow v id cmDebug false (leBytes 8 serial ++ leBytes 8 0) (mgmtDbgRequest id serial) leafDbgRequest s
def debugResponseRow (v : Asker) (id serial dur : Nat) (sig : Bytes) (s : State) : Out :=
  askerRow v id cmDebug false (leBytes 8 serial ++ leBytes 2 1 ++ leBytes 6 dur ++ sig.take 64) (mgmtDbgResponse id serial dur sig) leafDbgSubmit s
def debugLockRow (v : Asker) (id serial : Nat) (s : State) : Out :=
  askerRow v id cmDebugLock false (leBytes 8 serial) (mgmtDbgLock id serial) leafDbgEnd s
/-- `RESTART`'s wait ends (R540). -/
def restartRow (s : State) : Out := boxDo (fun b => if chanPowered b.mod then pumpBox (boxRestart b) else b) s
/-- A request in the first 10 µs after the release of reset is held until they are over (R568). -/
def leafHeld (l : Leaf) : Leaf := if l.time.edges < 12800 then leafToEdge 12800 l else l
/-- An access on the leaf's register port (R487, R488, R568). -/
def leafPortAccess (wr : Bool) (addr : Nat) (w : Word) (poison : Bool) (l : Leaf) : Leaf :=
  leafTickWith (fun x => if wr then leafRegWrite addr w poison x else leafRegRead x addr) (leafHeld l)
/-- A nonce from the far end at the leaf (R475); to a leaf without keys it says that the link runs unauthenticated (R478). -/
def leafKeyNonce (d : Nat) (g : Gran) (l : Leaf) : Leaf :=
  if (leafKeyCtx l d).keyless then leafPortDo d (noKeys d (leafKeyCtx l d)) l else
  { leafPortDo d (fun p => (keyNonceAnswer (leafKeyCtx l d) (Config.free .nonce l.free) g p, [])) l with free := l.free + 1 }
/-- A replica sample at tap n (R99, R100): a slack below the warning is told, and counts against the region (R414). -/
def leafReplica (n slack : Nat) (l : Leaf) : Leaf :=
  let r := replicaSample slack (leafTap l n)
  if r.2 then leafError (unitPath 2 0x21 n) opNone (leafEv (setTap l n r.1) .marginLow n 0) else setTap l n r.1

/-! ### References and outputs -/
/-- What arrives at a reference (R187 to R193); the PTP client hears the domain of the image alone, any before an image names one (R191, R454). -/
def chanRefIn (r : Nat) (x : RefIn) (c : Chan) : Chan :=
  let heard := fun (d : Nat) => decide (c.start.phase = 4) || decide (d = c.start.policy.ptpDomain)
  let ok := match x with
    | .sync d _ => heard d
    | .announce d _ _ => heard d
    | .pulse _ _ => true
    | .edge _ => true
    | .receiver _ _ _ _ _ => true
  if ok then chanClk (refInput r x) c else c
/-- A frequency result: of a reference (R193), or of the 10 MHz input of `EXT_A` (4) or `EXT_B` (5) that is only watched (R186). -/
def chanFreqIn (r : Nat) (m : Int) (c : Chan) : Chan :=
  if r < 4 then chanClk (freqResult r m) c else chanClkIs (edgeFreqResult (r - 4) m) c
/-- The next learning sample (R206): the channel's clock at a whole 16 s. -/
def chanSampleRow (c : Chan) : Chan :=
  chanClkIs holdSample (chanToEdge ((c.clk.time.edges / (16 * edgesPerSec) + 1) * (16 * edgesPerSec)) c)
/-- The next refit (R206): the channel's clock at a whole hour. -/
def chanRefitRow (c : Chan) : Chan :=
  chanClk holdRefit (chanToEdge ((c.clk.time.edges / (3600 * edgesPerSec) + 1) * (3600 * edgesPerSec)) c)
/-- Output n's next instant comes (R211): pod time reaches it. -/
def chanOutRow (n : Nat) (c : Chan) : Chan :=
  let c1 := match outDue n c.clk with
    | none => c
    | some x => chanRun (fun y => match outDue n y.clk with | none => true | some z => decide (z ≤ podPs y.clk.time)) (edgesTo c.clk.time (x / 1000 + 1)) c
  chanClk (outEdge n) c1
/-- Output n's changed configuration takes effect (R217): pod time has reached the whole second. -/
def chanApplyRow (n : Nat) (c : Chan) : Chan := chanAtPod (fun x => applyDue x.clk n) (chanClkIs (outApply n)) c
/-- `tst_engine_ready` has stayed low for 60 s (R580): a running test ends aborted. -/
def leafEngineLost (l : Leaf) : Leaf := if l.tests.active then testEnd testAborted l else l

end Sys2Proof.Machine
end

