-- ==== Sys2Proof/Machine/Engines.lean ====
section
/-! DEFINITION. Meanings: the engines of a channel and unit history (R307 to R330, R411 to R417). -/
namespace Sys2Proof.Machine

/-- `TASK_COMPLETE` (R313): A thresher finishes a task and checks its residue or comparators. -/
def execTaskComplete (t : Nat) (ok : Bool) (s : State) : Out := need (decide (t < 64)) .noSuchEngine (chanDo (chanTaskRow t ok) s)
/-- `THRESHER_STEAL` (R311): A thresher with an empty queue steals a tail task or runs idle work. -/
def execThresherSteal (t : Nat) (s : State) : Out := need (decide (t < 64)) .noSuchEngine (chanDo (chanSteal t) s)
/-- `STARVE_PROMOTE` (R321): A P2 to P4 request waiting 1 ms is promoted. -/
def execStarvePromote (s : State) : Out := chanDo chanPromote s
/-- `LOAD_WINDOW` (R327): Each 1 ms window the thresher load is evaluated for OVERLOAD. -/
def execLoadWindow (s : State) : Out := chanDo chanLoadWindow s
/-- `IDLE_SELFTEST` (R416): A thresher, digest unit or writer runs its periodic known-answer self-test. -/
def execIdleSelftest (kind : Nat) (ix : Nat) (pass : Bool) (s : State) : Out :=
  need (selfTestOk kind ix) .noSuchEngine (chanDo (chanIdleTest kind ix pass) s)
/-- `SATURATION_ENTER` (R286): Queues above 75 % for 10 µs make the channel saturated. -/
def execSaturationEnter (s : State) : Out := chanDo chanSaturate s
/-- `SATURATION_EXIT` (R286): Queues below 50 % for 100 µs end saturation. -/
def execSaturationExit (s : State) : Out := chanDo chanDesaturate s
/-- `CLUSTER_LOST` (R328): A cluster island fails; its ports go DOWN and threshers leave service. -/
def execClusterLost (k : Nat) (s : State) : Out := need (decide (k < 4)) .noSuchEngine (chanDo (chanClusterLost k) s)
/-- `HISTORY_DECAY` (R415): A history entry's error-free period expires and its class falls. -/
def execHistoryDecay (u : On) (n : Nat) (s : State) : Out := atUnit u (leafHistDecay n) (chanHistDecay n) s
/-- `ENGINE_VECTOR_TEST` (R416): Hourly, or every 7.5 min when SUSPECT, an idle Skellet port or code engine runs the R375 vectors and enters any
failure in its history. -/
def execEngineVectorTest (a : At) (pass : Bool) (s : State) : Out :=
  need (atOk a) .noSuchPort (atPort a (fun d => leafVectors d pass) (fun p => chanVectors p pass) s)

end Sys2Proof.Machine
end

