-- ==== Sys2Proof/Machine/Fences.lean ====
section
/-! DEFINITION. Meanings: fencing, injections, margins and forecasts (R427 to R446). -/
namespace Sys2Proof.Machine

/-- `FENCE_NOTICE` (R431): A fence notice is held and forwarded by the barn and sets the member FENCED at the apex. -/
def execFenceNotice (g : Gran) (s : State) : Out := linkDo (chanFenceNotice g) s
/-- `HEARTBEAT` (R429): A write of HEARTBEAT arms or restarts the heartbeat timer. -/
def execHeartbeat (s : State) : Out := leafDo leafHeartbeat s
/-- `HB_TIMEOUT_WRITE` (R429): A write of HB_TIMEOUT_US restarts, disarms or is refused. -/
def execHbTimeoutWrite (v : Nat) (s : State) : Out := leafDo (leafHbTimeout v) s
/-- `HEARTBEAT_EXPIRE` (R429): The heartbeat timer expires and the host is fenced. -/
def execHeartbeatExpire (s : State) : Out := leafDo (fencedRow leafHbExpire) s
/-- `HOST_RESET` (R428): host_rst_n asserts and the host is fenced. -/
def execHostReset (s : State) : Out := leafInput (fencedRow (leafFencePin true)) (leafPinLevel true true) s
/-- `FENCE_PIN` (R428): host_fence asserts and the host is fenced. -/
def execFencePin (s : State) : Out := leafInput (fencedRow (leafFencePin false)) (leafPinLevel false true) s
/-- `FENCE_DRAINED` (R430): The drain completes and the leaf sends its fence notices. -/
def execFenceDrained (s : State) : Out := leafDo leafFenceDrained s
/-- `UNFENCE` (R434): A write of UNFENCE lifts the fence or is refused. -/
def execUnfence (s : State) : Out := leafDo leafUnfence s
/-- `INJECT` (R439): An INJECT command makes a real fault at the channel. -/
def execInject (place : Nat) (id : Nat) (kind : Nat) (arg : Nat) (arg2 : Nat) (dur : Nat) (count : Nat) (force : Bool) (safe : Bool) (s : State) : Out :=
  askRow place cmInject id force (mgmtInject id kind arg arg2 dur count force safe) s
/-- `INJECT_CANCEL` (R439): An INJECT with CANCEL ends a running injection. -/
def execInjectCancel (place : Nat) (id : Nat) (target : Nat) (s : State) : Out := askRow place cmInject id false (mgmtInjectCancel id target) s
/-- `INJECT_END` (R441): An injection's duration, count or 600 s runs out. -/
def execInjectEnd (id : Nat) (s : State) : Out := chanDo (chanInjectEnd id) s
/-- `MARGIN_REPORT_SEND` (R443): At each whole hour a leaf sends MARGIN_REPORT on each port. -/
def execMarginReportSend (u : On) (os : List Optics) (s : State) : Out := atUnit u (leafMarginReports os) (chanOwnMargins os) s
/-- `MARGIN_REPORT` (R443): A barn stores a leaf's hourly margin values. -/
def execMarginReport (p : Nat) (g : Gran) (s : State) : Out := need (decide (p < 272)) .noSuchPort (linkDo (chanMarginReport p g) s)
/-- `FORECAST_EVAL` (R444): Daily the channel fits each series and raises or clears forecasts. -/
def execForecastEval (s : State) : Out := chanDo chanForecastEval s
/-- `FORECAST` (R444): A FORECAST packet updates the leaf's FORECAST_d. -/
def execForecast (d : Nat) (g : Gran) (s : State) : Out := need (decide (d < 2)) .noSuchPort (leafDo (leafForecast d g) s)
/-- `FENCE_INPUT_DEASSERTED` (R434): host_rst_n or host_fence is deasserted, which UNFENCE requires before it can lift the fence. -/
def execFenceInputDeasserted (reset : Bool) (s : State) : Out := leafInput (leafFenceOff reset) (leafPinLevel reset false) s

end Sys2Proof.Machine
end

