-- ==== Sys2Proof/Machine/Gens.lean ====
section
/-! DEFINITION. Meanings: generations from arrival to launch (R231 to R247, R262 to R291, R400 to R410). -/
namespace Sys2Proof.Machine

/-- `ARRIVE` (R232): Host firmware's arrival is checked, stamped and its token and payload sent to each bound domain. -/
def execArrive (k : Nat) (pay : Nat) (freq : Bool) (s : State) : Out := need (decide (k < 32)) .noSuchSlot (leafDo (leafArrive k pay freq) s)
/-- `ARRIVAL_TOKEN` (R233): A level or apex receives an arrival token and holds it as announced. -/
def execArrivalToken (p : Nat) (g : Gran) (s : State) : Out := need (decide (p < 272)) .noSuchPort (linkDo (chanToken p g) s)
/-- `ARRIVAL_PAYLOAD` (R234): A payload lands, is matched to its token and queued for threshing. -/
def execArrivalPayload (p : Nat) (gs : List Granule) (s : State) : Out := need (decide (p < 272)) .noSuchPort (linkDo (chanPayload p gs) s)
/-- `LEVEL_CUTOFF` (R270): A level reaches its cutoff, classifies its uncovered members and sends its partial. -/
def execLevelCutoff (tag : Nat) (n : Nat) (s : State) : Out := linkDo (chanCutoff tag n) s
/-- `PARTIAL_RECEIVED` (R274): A partial segment lands and is merged once complete. -/
def execPartialReceived (p : Nat) (sender : Nat) (gs : List Granule) (s : State) : Out :=
  need (decide (p < 272)) .noSuchPort (linkDo (chanPartial p sender gs) s)
/-- `PARTIAL_TIMEOUT` (R274): A partial not landed whole within the generation timeout is discarded. -/
def execPartialTimeout (tag : Nat) (n : Nat) (sender : Nat) (s : State) : Out := linkDo (chanPartialTimeout tag n sender) s
/-- `DECISION_TIME` (R236): At A_g plus D_up the apex classifies uncovered members and proceeds, waits or fails. -/
def execDecisionTime (tag : Nat) (n : Nat) (s : State) : Out := linkDo (chanDecision tag n) s
/-- `UNHEARD_TIMEOUT` (R236): A member unheard for 10 ms goes LOST and the domain is suspended. -/
def execUnheardTimeout (tag : Nat) (rank : Nat) (s : State) : Out := linkDo (chanUnheard tag rank) s
/-- `GENERATION_THRESHED` (R231): All counted payloads are reduced; the apex glazes, forms status, branches and issues the launch word. -/
def execGenerationThreshed (tag : Nat) (n : Nat) (s : State) : Out := linkDo (chanThreshed tag n) s
/-- `LAUNCH_WORD` (R242): A launch word lands at the leaf and is held or discarded as late. -/
def execLaunchWord (a : At) (g : Gran) (s : State) : Out :=
  need (atOk a) .noSuchPort (atPort a (fun d => leafLaunchWord d g) (fun _ => levelWord g) s)
/-- `LAUNCH_FIRE` (R242): Fire time minus the guard is reached and the leaf fires the chosen word. -/
def execLaunchFire (k : Nat) (gen : Nat) (s : State) : Out := need (decide (k < 32)) .noSuchSlot (leafDo (leafLaunchFire k gen) s)
/-- `FAILURE_WORD` (R245): A failure word lands and the generation fails at the leaf when no word is held. -/
def execFailureWord (a : At) (g : Gran) (s : State) : Out :=
  need (atOk a) .noSuchPort (atPort a (fun d => leafFailureWord d g) (fun _ => levelWord g) s)
/-- `LAUNCH_MISSED` (R243): The leaf holds no word when it should and fences its host. -/
def execLaunchMissed (k : Nat) (gen : Nat) (s : State) : Out := need (decide (k < 32)) .noSuchSlot (leafDo (fencedRow (leafLaunchMissed k gen)) s)
/-- `RESULT_GRANULE` (R244): A result granule lands and is exposed when its digest matches the fired word. -/
def execResultGranule (v : ResultAt) (s : State) : Out := need (resultOk v) .noSuchSlot (resultRow v s)
/-- `RESULT_MISSING` (R244): A result not landed 1 ms after the fire time is reported missing. -/
def execResultMissing (k : Nat) (gen : Nat) (s : State) : Out := need (decide (k < 32)) .noSuchSlot (leafDo (leafResultMissing k gen) s)
/-- `OUTLIER_NOTE` (R410): An OUTLIER_NOTE is forwarded upward and sets CHAFF_OUTLIER at the apex. -/
def execOutlierNote (g : Gran) (s : State) : Out := linkDo (chanOutlier g) s
/-- `MISMATCH_CLASSIFY` (R400): Both status granules land or 1 ms passes and the leaf classifies the mismatch. -/
def execMismatchClassify (k : Nat) (gen : Nat) (s : State) : Out := need (decide (k < 32)) .noSuchSlot (leafDo (leafMmClassify k gen) s)
/-- `MISMATCH_NOTICE` (R401): The apex acts on the first mismatch notice and orders path sweeps. -/
def execMismatchNotice (g : Gran) (s : State) : Out := linkDo (chanMismatch g) s
/-- `PATH_SWEEP_DONE` (R402): A path sweep completes and reports failures or clean. -/
def execPathSweepDone (tag : Nat) (failed : List (Nat × Nat)) (s : State) : Out := linkDo (chanSweepDone tag failed) s

end Sys2Proof.Machine
end

