-- ==== Sys2Proof/Machine/Granaries.lean ====
section
/-! DEFINITION. Meanings: capture, granary, ledger, replay and gleaning (R331 to R360, R377). -/
namespace Sys2Proof.Machine

/-- `CAPTURE_DESCRIPTOR` (R343): A capture descriptor beat opens a record or is refused with a capture code. -/
def execCaptureDescriptor (h : Nat) (g : Gran) (s : State) : Out := need (decide (h < 16)) .noSuchHandle (leafDo (leafCapDescriptor h g) s)
/-- `CAPTURE_DATA_BEAT` (R578): A capture data beat is admitted through the bucket and sent; eop closes the record. -/
def execCaptureDataBeat (h : Nat) (g : Granule) (nbytes : Nat) (eop : Bool) (s : State) : Out :=
  need (decide (h < 16)) .noSuchHandle (leafDo (leafCapData h g nbytes eop) s)
/-- `CAPTURE_IDLE_TIMEOUT` (R346): An open record without accepted bytes for 1 s is closed TORN by the leaf. -/
def execCaptureIdleTimeout (h : Nat) (s : State) : Out := need (decide (h < 16)) .noSuchHandle (leafDo (leafCapIdle h) s)
/-- `CAPTURE_OPEN_PACKET` (R345): A barn receives a capture open packet. -/
def execCaptureOpenPacket (p : Nat) (o0 : Gran) (o1 : Gran) (s : State) : Out := need (decide (p < 272)) .noSuchPort (linkDo (chanCapOpen p o0 o1) s)
/-- `CAPTURE_DATA_PACKET` (R345): A barn receives capture data and stores it. -/
def execCaptureDataPacket (p : Nat) (d0 : Gran) (gs : List Granule) (s : State) : Out :=
  need (decide (p < 272)) .noSuchPort (linkDo (chanCapData p d0 gs) s)
/-- `CAPTURE_CLOSE_PACKET` (R345): A barn receives the close and writes the capture record. -/
def execCaptureClosePacket (p : Nat) (c0 : Gran) (c1 : Gran) (s : State) : Out :=
  need (decide (p < 272)) .noSuchPort (linkDo (chanCapClose p c0 c1) s)
/-- `CAPTURE_CLOSE_TIMEOUT` (R346): A close not landed within 1 s seals the record TORN at the barn. -/
def execCaptureCloseTimeout (p : Nat) (k : Nat) (seq : Nat) (s : State) : Out :=
  need (decide (p < 272)) .noSuchPort (chanDo (chanCapTimeout p k seq) s)
/-- `LEDGER_ROOT` (R352): At each whole second the channel writes and signs a ledger root. -/
def execLedgerRoot (s : State) : Out := chanDo chanLedgerRoot s
/-- `RETENTION_CHECK` (R350): Projected retention is evaluated and silos are switched, restored or degradation raised. -/
def execRetentionCheck (s : State) : Out := chanDo chanRetention s
/-- `SILO_MODE` (R350): A SILO_MODE packet switches a leaf's capture to descriptor-only or full for that domain. -/
def execSiloMode (d : Nat) (g : Gran) (s : State) : Out := need (decide (d < 2)) .noSuchPort (leafDo (leafSiloMode d g) s)
/-- `REGION_MIGRATION_DONE` (R335): A region copy to a spare completes and the old region is retired. -/
def execRegionMigrationDone (n : Nat) (s : State) : Out := need (decide (n < 3072)) .noSuchRegion (chanDo (chanRegionDone n) s)
/-- `STACK_LOST` (R336): A whole stack fails and its records are marked LOST_STACK. -/
def execStackLost (k : Nat) (s : State) : Out := need (decide (k < 16)) .noSuchRegion (chanDo (chanStackLost k) s)
/-- `REPLAY_RECORD` (R354): A replay record reaches the leaf and is delivered on the capture port in order. -/
def execReplayRecord (d : Nat) (r : RepRec) (s : State) : Out := need (decide (d < 2)) .noSuchPort (leafDo (leafReplayRecord d r) s)
/-- `REPLAY_FETCH` (R354): A REPLAY_FETCH packet asks the other domain for an incomplete record. -/
def execReplayFetch (p : Nat) (g : Gran) (s : State) : Out := need (decide (p < 272)) .noSuchPort (linkDo (chanReplayFetch p g) s)
/-- `REPLAY_FETCH_TIMEOUT` (R354): 100 ms without a fetch answer and the leaf delivers what it holds. -/
def execReplayFetchTimeout (s : State) : Out := leafDo leafFetchTimeout s
/-- `REPLAY_END` (R353): A REPLAY_END packet ends a stream. -/
def execReplayEnd (v : EndAt) (s : State) : Out := need (endOk v) .noSuchPort (endRow v s)
/-- `COMPARE_FIND` (R357): A compare-mode finding reaches the apex, which reports the lowest divergence. -/
def execCompareFind (g : Gran) (d : Gran) (s : State) : Out := linkDo (chanCompareFind g d) s
/-- `GLEANER_PASS_START` (R377): A scrub pass period falls due and the gleaner starts a pass. -/
def execGleanerPassStart (v : Option GleanAt) (s : State) : Out := need (gleanOk v) .noSuchRegion (gleanStartRow v s)
/-- `GLEANER_GRANULE` (R377): The gleaner's read of a granule completes and it writes back corrected or poisoned data. -/
def execGleanerGranule (v : GleanRead) (s : State) : Out := need (gleanReadOk v) .noSuchRegion (gleanReadRow v s)
/-- `BUCKET_LEAK` (R376): A bucket leaks by one every BUCKET_LEAK_MIN minutes. -/
def execBucketLeak (u : On) (s : State) : Out := atUnit u leafLeak chanLeak s

end Sys2Proof.Machine
end

