-- ==== Sys2Proof/Machine/Keys.lean ====
section
/-! DEFINITION. Meanings: link keys (R475 to R478). -/
namespace Sys2Proof.Machine

/-- `KEY_NONCE` (R475): A NONCE key message starts link key set-up. -/
def execKeyNonce (a : At) (g : Gran) (s : State) : Out :=
  need (atOk a) .noSuchPort (atPort a (fun d => leafKeyNonce d g) (fun p => chanKeyNonce p g) s)
/-- `KEY_WRAP_LO` (R475): The first half of the wrapped link key is received. -/
def execKeyWrapLo (a : At) (g : Gran) (s : State) : Out := need (atOk a) .noSuchPort (portRow a (fun _ p => (keyWrapLo g p, [])) s)
/-- `KEY_WRAP_HI` (R475): The second half and tag are received and the lower end verifies and sends CONFIRM. -/
def execKeyWrapHi (a : At) (g : Gran) (s : State) : Out := need (atOk a) .noSuchPort (keyRow a (fun k _ p => (keyWrapHi k g p, [])) s)
/-- `KEY_CONFIRM` (R475): The upper end receives CONFIRM and the new link key is established. -/
def execKeyConfirm (a : At) (g : Gran) (s : State) : Out := need (atOk a) .noSuchPort (keyRow a (fun k _ p => (keyConfirm k g p, [])) s)
/-- `KEY_CONFIRM_TIMEOUT` (R475): No CONFIRM within 1 ms of WRAP_HI faults the link with KEY_FAILED. Only an upper end waits for one; a leaf is never one. -/
def execKeyConfirmTimeout (a : At) (s : State) : Out := need (atOk a) .noSuchPort (atPort a (fun _ l => l) chanConfirmRow s)
/-- `KEY_SWITCH` (R477): A SWITCH message names the block from which the new key is used. -/
def execKeySwitch (a : At) (g : Gran) (s : State) : Out := need (atOk a) .noSuchPort (portRow a (fun _ p => (keySwitch g p, [])) s)
/-- `NO_KEYS` (R478): A NO_KEYS message leads to an unauthenticated link or a KEY_FAILED fault by policy. -/
def execNoKeys (a : At) (s : State) : Out := need (atOk a) .noSuchPort (keyRow a (fun k ix p => noKeys ix k p) s)
/-- `REKEY_DUE` (R477): After 2^31 blocks the upper end starts a rekey. -/
def execRekeyDue (p : Nat) (s : State) : Out := need (decide (p < 272)) .noSuchPort (linkDo (chanRekeyRow p) s)
/-- `REKEY_RETRY` (R477): A failed rekey is retried after 10 s; the third failure faults the link. -/
def execRekeyRetry (p : Nat) (s : State) : Out :=
  need (decide (p < 272)) .noSuchPort (linkDo (chanRekeyAgain p) s)

end Sys2Proof.Machine
end

