-- ==== Sys2Proof/Machine/Links.lean ====
section
/-! DEFINITION. Meanings: training, frames, beats and calibration of Skellet links (R24, R31, R123 to R153). -/
namespace Sys2Proof.Machine

/-- `LIGHT_DETECTED` (R149): Light detected on a receive lane-end of a DOWN port starts link training. -/
def execLightDetected (a : At) (lane : Nat) (power : Nat) (s : State) : Out :=
  need (atOk a) .noSuchPort (need (decide (lane < 2)) .noSuchLane (atPort a (fun d => leafLight d lane power) (fun p => chanLight p lane power) s))
/-- `TRAIN_FRAME` (R149): A received TRAIN frame drives frame lock, lane-end tests, swap detection and mode choice during training. -/
def execTrainFrame (a : At) (own : Nat) (g : Gran) (testsDone : Bool) (s : State) : Out :=
  need (atOk a) .noSuchPort (need (decide (own < 2)) .noSuchLane (atPort a (fun d => leafPortDo d (portTrainFrame false d own g testsDone)) (fun p => chanTrainFrame p own g testsDone) s))
/-- `LANE_STUCK` (R151): Driver contention or a missing training pattern on a lit lane-end excludes that lane-end. -/
def execLaneStuck (a : At) (k : Nat) (s : State) : Out :=
  need (atOk a) .noSuchPort (need (decide (k < 4)) .noSuchLane (portRow a (fun ix => portStuck ix k) s))
/-- `IDENT` (R31): An IDENT message is received and the upper end runs the identity checks, refusing the link on failure. -/
def execIdent (a : At) (g : Gran) (s : State) : Out := need (atOk a) .noSuchPort (atPort a (fun d => leafIdent d g) (fun p => chanIdentRow p g) s)
/-- `ANCESTRY` (R24): An ANCESTRY message lands and the leaf compares module serials on its Wheat and Barley paths. -/
def execAncestry (a : At) (g : Gran) (s : State) : Out :=
  need (atOk a) .noSuchPort (atPort a (fun d => leafAncestry d g) (fun p => chanAncestry p g) s)
/-- `LINK_PARAMS` (R131): A LINK_PARAMS message gives the far end's loopback latency, buffers and parity mode. -/
def execLinkParams (a : At) (g : Gran) (s : State) : Out := need (atOk a) .noSuchPort (portRow a (fun _ p => (linkParams g p, [])) s)
/-- `TRAINING_TIMEOUT` (R149): Training not complete in 50 ms restarts training. -/
def execTrainingTimeout (a : At) (s : State) : Out :=
  need (atOk a) .noSuchPort (atPort a (fun d => leafRetrainRow d .training) (fun p => chanRetrainRow p .training) s)
/-- `TRAINING_NO_LIGHT` (R149): 1 ms without light during training takes the port DOWN. -/
def execTrainingNoLight (a : At) (s : State) : Out := need (atOk a) .noSuchPort (atPort a leafNoLightRow chanNoLightRow s)
/-- `TRAINING_RETRY` (R31): A FAULTED port retries training every 10 s. -/
def execTrainingRetry (a : At) (s : State) : Out :=
  need (atOk a) .noSuchPort (atPort a (fun d => leafRetrainRow d .faulted) (fun p => chanRetrainRow p .faulted) s)
/-- `DUPLICATE_ORDER` (R32): A duplicate order packet reaches the barn of the refused copy, which holds that port FAULTED with SERIAL_DUPLICATE. -/
def execDuplicateOrder (g : Gran) (s : State) : Out := linkDo (chanDuplicate g) s
/-- `LOSS_OF_SIGNAL` (R151): Loss of signal on a traffic receive lane-end begins the counting of missing frame slots. -/
def execLossOfSignal (a : At) (fibreB : Bool) (s : State) : Out :=
  need (atOk a) .noSuchPort (portRow a (fun ix p => (portLos (upperEnd a ix) fibreB p, [])) s)
/-- `MISSING_SLOTS` (R152): 8 consecutive missing slots take the port DOWN and discard its transmit store, replay buffer and queued packets. -/
def execMissingSlots (a : At) (s : State) : Out := need (atOk a) .noSuchPort (portRow a portMissing s)
/-- `FRAME_LOCK_LOST` (R149): 64 consecutive CRC failures take the port DOWN. -/
def execFrameLockLost (a : At) (s : State) : Out := need (atOk a) .noSuchPort (portRow a portLockLost s)
/-- `DATA_FRAME_RECEIVED` (R133): A data frame is decoded, sequenced, delivered in order or held, and its credit fields applied. -/
def execDataFrameReceived (a : At) (line : BitVec 320) (s : State) : Out :=
  need (atOk a) .noSuchPort (atPort a (fun d => leafFrame d line) (fun p => chanFrameRow p line) s)
/-- `ACK_NAK` (R133): An ACK_NAK message frees acknowledged frames and resends a NAKed frame from the replay buffer. -/
def execAckNak (a : At) (g : Gran) (s : State) : Out := need (atOk a) .noSuchPort (portRow a (fun _ p => (ackNakIn g p, [])) s)
/-- `ACK_NAK_SEND` (R133): A receiver sends ACK_NAK at least every 32 slots while receiving data frames. -/
def execAckNakSend (a : At) (s : State) : Out := need (atOk a) .noSuchPort (portRow a (fun _ p => (portAck p, [])) s)
/-- `NAK_REPEAT` (R133): A NAKed frame not landed within the round trip plus 1 µs is NAKed again. -/
def execNakRepeat (a : At) (s : State) : Out := need (atOk a) .noSuchPort (atPort a leafNakRow chanNakRow s)
/-- `BEAT_SEND` (R136): A beat frame carrying pod time and the block's tag slices is sent in each beat slot. -/
def execBeatSend (a : At) (s : State) : Out := need (atOk a) .noSuchPort (atPort a leafBeatRow chanBeatRow s)
/-- `BEAT_RECEIVED` (R137): A received beat is stamped by the port TDC and kept for its block and tag check. -/
def execBeatReceived (a : At) (g : Gran) (ok : Bool) (e : EdgeIn) (s : State) : Out :=
  need (atOk a) .noSuchPort
    (atPort a (fun d l => leafBeatIn d g ok e (leafTicks e.after l)) (fun p c => chanBeatIn p g ok e (chanEdges e.after c)) s)
/-- `BLOCK_RELEASE` (R138): 51.2 µs after a block's tag window opens its stamps are released to the servo. -/
def execBlockRelease (a : At) (s : State) : Out := need (atOk a) .noSuchPort (atPort a leafReleaseRow chanRelease s)
/-- `TURN_SCHED` (R145): A TURN_SCHED message tells the lower end when to send its echo burst. -/
def execTurnSched (a : At) (g : Gran) (s : State) : Out := need (atOk a) .noSuchPort (portRow a (fun _ p => (turnSched g p, [])) s)
/-- `TURN_SLOT_DUE` (R144): A turnaround slot falls due and the upper end places or defers it. -/
def execTurnSlotDue (p : Nat) (s : State) : Out := need (decide (p < 272)) .noSuchPort (linkDo (chanSlotRow p) s)
/-- `TURN_SLOT_FORCED` (R146): A slot deferred for 10 s runs regardless. -/
def execTurnSlotForced (p : Nat) (s : State) : Out := need (decide (p < 272)) .noSuchPort (linkDo (chanForceRow p) s)
/-- `ECHO_RETURNED` (R147): An echo burst returns and the end computes the fibre delay and its filtered mean. -/
def execEchoReturned (a : At) (e : EdgeIn) (s : State) : Out :=
  need (atOk a) .noSuchPort (atPort a (fun d l => leafEcho d e (leafTicks e.after l)) (fun p c => chanEcho p e (chanEdges e.after c)) s)
/-- `ECHO_NOT_RETURNED` (R147): A burst does not return; the third in a row takes the link DOWN with ECHO_FAILED. -/
def execEchoNotReturned (a : At) (s : State) : Out :=
  need (atOk a) .noSuchPort (atPort a (fun d => leafPortDo d (fun p => echoMissed d (lowTimesA p.mode) p)) chanEchoMissed s)
/-- `CAL_RESULT` (R147): A CAL_RESULT message exchanges fibre delays; 16 agreeing slots take the port UP. -/
def execCalResult (a : At) (g : Gran) (s : State) : Out :=
  need (atOk a) .noSuchPort (atPort a (fun d => leafCalResult d g) (fun p => chanCalResult p g) s)

end Sys2Proof.Machine
end

