-- ==== Sys2Proof/Machine/Mgmts.lean ====
section
/-! DEFINITION. Meanings: management sessions and commands (R525 to R540, R560). -/
namespace Sys2Proof.Machine

/-- `SESSION_OPEN` (R525): A TLS handshake opens a management session or fails. -/
def execSessionOpen (ok : Bool) (addr : Nat) (s : State) : Out := boxDo (boxSessionOpen ok addr) s
/-- `SESSION_IDLE_TIMEOUT` (R526): A session idle for 300 s is closed. -/
def execSessionIdleTimeout (place : Nat) (s : State) : Out := boxDo (boxSessionIdle place) s
/-- `SUMMARY` (R532): SUMMARY page 0 takes a channel or leaf snapshot. -/
def execSummary (v : Via) (id : Nat) (serial : Nat) (s : State) : Out :=
  need (viaOk v) .noSuchPort (viaRow v id cmSummary false (leBytes 8 serial ++ leBytes 2 0) (mgmtSummary id serial) s)
/-- `SUMMARY_PAGE1` (R532): SUMMARY page 1 returns remaining sheaf entries of a held snapshot. -/
def execSummaryPage1 (place : Nat) (id : Nat) (seq : Nat) (s : State) : Out := askRow place cmSummary id false (mgmtPage1 id seq) s
/-- `REG_READ` (R534): REG_READ reads channel register words on one edge. -/
def execRegRead (place : Nat) (id : Nat) (off : Nat) (n : Nat) (s : State) : Out := askRow place 2 id false (mgmtRegRead id off n) s
/-- `REG_WRITE` (R534): REG_WRITE writes masked writable bits of a channel register. -/
def execRegWrite (place : Nat) (id : Nat) (off : Nat) (v : Nat) (mask : Nat) (s : State) : Out :=
  askRow place 3 id false (mgmtRegWrite id off v mask) s
/-- `PHASE_STEP` (R55): The mill checks a pod-time or UTC-offset change and issues its step notice. -/
def execPhaseStep (place : Nat) (id : Nat) (utc : Bool) (delta : Int) (at_ : Nat) (s : State) : Out :=
  askRow place 0x10 id false (mgmtPhaseStep id utc delta at_) s
/-- `TIME_PASS` (R181): The follower issues the lead's change down its tree and confirms. -/
def execTimePass (place : Nat) (id : Nat) (utc : Bool) (delta : Int) (at_ : Nat) (count : Nat) (s : State) : Out :=
  askRow place 0x11 id false (mgmtTimePass id utc delta at_ count) s
/-- `FENCE` (R428): A management FENCE fences a leaf with cause MGMT. -/
def execFence (v : Via) (id : Nat) (serial : Nat) (s : State) : Out :=
  need (viaOk v) .noSuchPort (viaRow v id cmFence false (leBytes 8 serial ++ leBytes 8 0) (mgmtFence id serial false) s)
/-- `FENCE_RELEASE` (R434): A FENCE with RELEASE clears the MGMT cause. -/
def execFenceRelease (v : Via) (id : Nat) (serial : Nat) (s : State) : Out :=
  need (viaOk v) .noSuchPort (viaRow v id cmFence false (leBytes 8 serial ++ leBytes 8 1) (mgmtFence id serial true) s)
/-- `CLOSE` (R259): A management CLOSE takes a sheaf CLOSING in that domain. -/
def execClose (place : Nat) (id : Nat) (tag : Nat) (known : Bool) (s : State) : Out := askRow place 0x21 id false (mgmtClose id tag known) s
/-- `FORCE_ARRIVE` (R258): A forced token is made for a named rank and generation. -/
def execForceArrive (place : Nat) (id : Nat) (tag : Nat) (rank : Nat) (n : Nat) (there : Nat) (s : State) : Out :=
  askRow place 0x22 id false (mgmtForceArrive id tag rank n there) s
/-- `FORCE_RELEASE` (R258): A named generation is taken to THRESHED with the members landed. -/
def execForceRelease (place : Nat) (id : Nat) (tag : Nat) (n : Nat) (there : Nat) (s : State) : Out :=
  askRow place 0x23 id false (mgmtForceRelease id tag n there) s
/-- `PACK_LOAD` (R358): PACK_LOAD stores a verified test pack or refuses it. -/
def execPackLoad (place : Nat) (id : Nat) (off : Nat) (total : Nat) (last : Bool) (data : Bytes) (s : State) : Out :=
  askRow place 0x41 id false (mgmtPackLoad id off total last data) s
/-- `REPLAY` (R353): REPLAY starts silo-scope or rank-scope replay streams. -/
def execReplay (place : Nat) (id : Nat) (body : Bytes) (s : State) : Out := askRow place 0x42 id false (mgmtReplay id body) s
/-- `HISTORY_READ` (R531): HISTORY_READ returns history entries. -/
def execHistoryRead (v : Via) (id : Nat) (serial : Nat) (first : Nat) (count : Nat) (s : State) : Out :=
  need (viaOk v) .noSuchPort (viaRow v id cmHistRead false (leBytes 8 serial ++ leBytes 4 first ++ leBytes 4 count) (mgmtHistRead id serial first count) s)
/-- `HISTORY_CLEAR` (R415): HISTORY_CLEAR removes a PERMANENT entry in debug-unlocked state. -/
def execHistoryClear (v : Via) (id : Nat) (serial : Nat) (path : Nat) (s : State) : Out :=
  need (viaOk v) .noSuchPort (viaRow v id cmHistClear false (leBytes 8 serial ++ leBytes 8 path) (mgmtHistClear id serial path) s)
/-- `LOG_READ` (R536): LOG_READ returns whole ledger records. -/
def execLogRead (place : Nat) (id : Nat) (area : Nat) (tag : Nat) (first : Nat) (limit : Nat) (s : State) : Out :=
  askRow place 0x62 id false (mgmtLogRead id area tag first limit) s
/-- `TELEMETRY` (R538): TELEMETRY subscribes a session to a stream from a TSEQ. -/
def execTelemetry (place : Nat) (target : Nat) (id : Nat) (stream : Nat) (first : Nat) (s : State) : Out :=
  boxDo (boxTelemetry place target id stream first) s
/-- `TELEMETRY_STOP` (R538): TELEMETRY with STOP ends a subscription. -/
def execTelemetryStop (place : Nat) (target : Nat) (id : Nat) (s : State) : Out := boxDo (boxTelemetryStop place target id) s
/-- `TELEMETRY_TICK` (R539): Once per second of pod time a tick record is raised. -/
def execTelemetryTick (s : State) : Out := boxDo boxTick s
/-- `MODULE_STATUS` (R560): MODULE_STATUS returns the card's module status body. -/
def execModuleStatus (place : Nat) (id : Nat) (s : State) : Out := boxDo (boxModuleStatus place id) s
/-- `CARD_CONFIG` (R537): CARD_CONFIG sets the follower card address and certificate digest. -/
def execCardConfig (place : Nat) (id : Nat) (addr : Bytes) (digest : Bytes) (s : State) : Out := boxDo (boxCardConfig place id addr digest) s
/-- `MGMT_RELAY` (R529): A leaf receives a relayed command and answers or repeats its held answer. -/
def execMgmtRelay (v : RelayAt) (s : State) : Out := need (relayOk v) .noSuchPort (relayRow v s)
/-- `MGMT_ANSWER` (R529): A channel receives a leaf's answer and returns it. -/
def execMgmtAnswer (gs : List Granule) (s : State) : Out := linkDo (chanMgmtAnswer gs) s
/-- `LEAF_NO_ANSWER` (R529): No leaf answer within 1 s and the channel answers LEAF_NO_ANSWER. -/
def execLeafNoAnswer (id : Nat) (s : State) : Out := chanDo (chanNoAnswer id) s
/-- `SESSION_CLOSED` (R526): A client closes its management session, freeing a session place without cancelling accepted commands. -/
def execSessionClosed (place : Nat) (s : State) : Out := boxDo (boxSessionClosed place) s
/-- `BAD_COMMAND` (R530): A request with an unknown command code is answered BAD_COMMAND and changes nothing. -/
def execBadCommand (place : Nat) (target : Nat) (cmd : Nat) (id : Nat) (s : State) : Out := boxDo (askUnknown place target cmd id) s

end Sys2Proof.Machine
end

