-- ==== Sys2Proof/Machine/Modules.lean ====
section
/-! DEFINITION. Meanings: power, cooling and service of an MX-2 module (R541 to R562). -/
namespace Sys2Proof.Machine

/-- `FEED_USABLE` (R544): A feed in range for 100 ms becomes USABLE. -/
def execFeedUsable (f : Nat) (s : State) : Out := need (decide (f < 2)) .noSuchPart (boxDo (boxFeedUsable f) s)
/-- `FEED_UNDERVOLT` (R544): A feed below 255 V for 1 ms is lost. -/
def execFeedUndervolt (f : Nat) (s : State) : Out := need (decide (f < 2)) .noSuchPart (boxDo (boxFeedUndervolt f) s)
/-- `FEED_OVERVOLT` (R544): A feed above 425 V for 1 ms is no longer drawn from. -/
def execFeedOvervolt (f : Nat) (s : State) : Out := need (decide (f < 2)) .noSuchPart (boxDo (boxFeedOvervolt f) s)
/-- `FEED_REVERSED` (R544): A feed below −20 V for 100 ms is blocked. -/
def execFeedReversed (f : Nat) (s : State) : Out := need (decide (f < 2)) .noSuchPart (boxDo (boxFeedReversed f) s)
/-- `FEED_ABSENT` (R544): A feed falls below 20 V in magnitude. -/
def execFeedAbsent (f : Nat) (s : State) : Out := need (decide (f < 2)) .noSuchPart (boxDo (boxFeedAbsent f) s)
/-- `POWER_WARN` (R547): The last usable feed is lost; pwr_warn asserts and saves are deferred. -/
def execPowerWarn (s : State) : Out := boxDo boxPowerWarn s
/-- `BUS_COLLAPSE` (R547): The bus falls below 51 V and the sleds lose supply. -/
def execBusCollapse (s : State) : Out := boxDo boxBusCollapse s
/-- `SLED_SOFT_START_DONE` (R550): A sled reaches full voltage within 50 ms. -/
def execSledSoftStartDone (k : Nat) (s : State) : Out := need (decide (k < 2)) .noSuchPart (boxDo (boxSoftStart k) s)
/-- `SLED_SOFT_START_TIMEOUT` (R550): Full voltage not reached in 50 ms trips the sled. -/
def execSledSoftStartTimeout (k : Nat) (s : State) : Out := need (decide (k < 2)) .noSuchPart (boxDo (boxSoftStartTimeout k) s)
/-- `SLED_OVERCURRENT` (R550): Current above 8 A for 1 ms or a short trips the sled. -/
def execSledOvercurrent (k : Nat) (s : State) : Out := need (decide (k < 2)) .noSuchPart (boxDo (boxOvercurrent k) s)
/-- `SLED_TRIP_RETRY` (R550): 1 s after a first trip the controller retries. -/
def execSledTripRetry (k : Nat) (s : State) : Out := need (decide (k < 2)) .noSuchPart (boxDo (boxTripRetry k) s)
/-- `SLED_INSERTED` (R557): A sled is inserted and soft-started. -/
def execSledInserted (k : Nat) (board : Option Board) (s : State) : Out := need (decide (k < 2)) .noSuchPart (boxDo (boxSledInserted k board) s)
/-- `SLED_REMOVED` (R557): A sled is removed and its ports go dark. -/
def execSledRemoved (k : Nat) (s : State) : Out := need (decide (k < 2)) .noSuchPart (boxDo (boxSledRemoved k) s)
/-- `BRICK_INSERTED` (R557): A brick is inserted and shares load. -/
def execBrickInserted (k : Nat) (s : State) : Out := need (decide (k < 2)) .noSuchPart (boxDo (boxBrickInserted k) s)
/-- `BRICK_REMOVED` (R557): A brick is removed. -/
def execBrickRemoved (k : Nat) (s : State) : Out := need (decide (k < 2)) .noSuchPart (boxDo (boxBrickRemoved k) s)
/-- `FAN_INSERTED` (R557): A fan tray is inserted. -/
def execFanInserted (k : Nat) (s : State) : Out := need (decide (k < 4)) .noSuchPart (boxDo (boxFanInserted k) s)
/-- `FAN_REMOVED` (R557): A fan tray is removed. -/
def execFanRemoved (k : Nat) (s : State) : Out := need (decide (k < 4)) .noSuchPart (boxDo (boxFanRemoved k) s)
/-- `CARD_INSERTED` (R557): A management card is inserted. -/
def execCardInserted (selftestOk : Bool) (s : State) : Out := boxDo (boxCardInserted selftestOk) s
/-- `CARD_REMOVED` (R540): The card is pulled and every session ends. -/
def execCardRemoved (s : State) : Out := boxDo boxCardRemoved s
/-- `PMBUS_POLL` (R561): A channel polls bricks and trays and raises faults into history. -/
def execPmbusPoll (r : Poll) (s : State) : Out := boxDo (boxPoll r) s
/-- `FAN_DEMAND` (R552): Every 100 ms a channel sends its fan demand. -/
def execFanDemand (k : Nat) (pct : Nat) (s : State) : Out := need (decide (k < 2)) .noSuchPart (boxDo (boxFanDemand k pct) s)
/-- `FAN_NO_DEMAND` (R552): A tray with no demand for 5 s runs at 100 %. -/
def execFanNoDemand (k : Nat) (s : State) : Out := need (decide (k < 4)) .noSuchPart (boxDo (boxFanNoDemand k) s)
/-- `THERMAL_WARN` (R553): Die or ambient over limit for 10 s. -/
def execThermalWarn (k : Nat) (s : State) : Out := need (decide (k < 2)) .noSuchPart (boxDo (boxThermalWarn k) s)
/-- `THERMAL_SHUTDOWN` (R553): Die at 110 °C for 1 s removes the sled's supply. -/
def execThermalShutdown (k : Nat) (s : State) : Out := need (decide (k < 2)) .noSuchPart (boxDo (boxThermalShutdown k) s)
/-- `THERMAL_RESTORED` (R553): After 60 s cool with three trays working the sled supply is restored. -/
def execThermalRestored (k : Nat) (s : State) : Out := need (decide (k < 2)) .noSuchPart (boxDo (boxThermalRestored k) s)
/-- `SLED_LID_UNPOWERED` (R559): A lid or mesh event on an unpowered sled is latched for the next start. -/
def execSledLidUnpowered (k : Nat) (mesh : Bool) (s : State) : Out := need (decide (k < 2)) .noSuchPart (boxDo (boxLidUnpowered k mesh) s)

end Sys2Proof.Machine
end

