-- ==== Sys2Proof/Machine/Prints.lean ====
section
/-! DEFINITION. Meanings: fingerprints and test packs (R385 to R389, R418 to R422). -/
namespace Sys2Proof.Machine

/-- `MEMBER_FINGERPRINT` (R385): A member fingerprint is recorded by the barn and held by the apex. -/
def execMemberFingerprint (p : Nat) (g : Gran) (s : State) : Out := need (decide (p < 272)) .noSuchPort (linkDo (chanMemberFp p g) s)
/-- `RUN_FINGERPRINT` (R386): A channel receives the run fingerprint and writes its silo head. -/
def execRunFingerprint (gs : List Granule) (s : State) : Out := linkDo (chanRunFp gs) s
/-- `HOST_FP_WRITE` (R389): A write of HOST_FW_DIGEST or HOST_DUM_DIGEST sends member fingerprints for open slots. -/
def execHostFpWrite (dum : Bool) (w : Word) (s : State) : Out := leafDo (leafHostFp dum w) s
/-- `TEST_REQUEST` (R419): A test order reaches the leaf, which starts or waits for the pack run. -/
def execTestRequest (v : Via) (id : Nat) (serial : Nat) (pack : Nat) (reps : Nat) (fence : Bool) (bytes : Bytes) (s : State) : Out :=
  need (viaOk v) .noSuchPort (viaRow v id cmTest false (testBody serial pack reps fence ++ bytes) (mgmtTest id serial pack reps fence) s)
/-- `TEST_BUSY_TIMEOUT` (R419): A test waiting 60 s for permission is refused TEST_BUSY. -/
def execTestBusyTimeout (s : State) : Out := leafDo leafTestBusy s
/-- `TEST_DIGEST` (R420): The host's test engine returns an item digest and the leaf moves to the next item. -/
def execTestDigest (g : Gran) (s : State) : Out := leafDo (leafTestDigest g) s
/-- `TEST_ITEM_TIMEOUT` (R420): No digest within TIMEOUT_MS fails the item. -/
def execTestItemTimeout (s : State) : Out := leafDo leafTestTimeout s
/-- `TEST_ABORT` (R422): A write of TEST_ABORT ends the running test. -/
def execTestAbort (s : State) : Out := leafDo leafTestAbort s
/-- `TEST_NO_RESULT` (R420): The barn reports TEST_ABORTED after 10 s without a result. -/
def execTestNoResult (id : Nat) (s : State) : Out := chanDo (chanTestNoResult id) s
/-- `TEST_ENGINE_NOT_READY` (R580): tst_engine_ready low for 60 s ends the test aborted. -/
def execTestEngineNotReady (s : State) : Out := leafDo leafEngineLost s
/-- `TEST_PERIOD` (R421): TEST_PERIOD_H elapses and the leaf runs its listed packs. -/
def execTestPeriod (packs : List (Nat × Bytes)) (s : State) : Out := leafDo (leafTestPeriod packs) s

end Sys2Proof.Machine
end

