-- ==== Sys2Proof/Machine/Refs.lean ====
section
/-! DEFINITION. Meanings: references, holdover and outputs (R186 to R221). -/
namespace Sys2Proof.Machine

/-- `REF_PULSE` (R192): A reference pulse, edge or message arrives and yields a phase measurement. -/
def execRefPulse (r : Nat) (x : RefIn) (s : State) : Out :=
  need (decide (r < 4)) .noSuchReference (refRow r x.after (chanRefIn r x) s)
/-- `REF_WINDOW_MISS` (R192): A 1PPS window closes empty; the reference becomes impaired or rejected. -/
def execRefWindowMiss (r : Nat) (s : State) : Out := need (decide (r < 4)) .noSuchReference (clkRow (fun c => windowDue c r) (refWindowMiss r) s)
/-- `REF_EDGE_MISS` (R192): A paired 10 MHz input shows no edge within 150 ns. -/
def execRefEdgeMiss (r : Nat) (s : State) : Out := need (decide (r < 4)) .noSuchReference (clkRow (fun c => edgeDue c r) (refEdgeMiss r) s)
/-- `PTP_SYNC_MISS` (R192): A sync interval passes without a Sync message. -/
def execPtpSyncMiss (s : State) : Out := clkRow syncMissDue ptpSyncMiss s
/-- `PTP_ANNOUNCE_TIMEOUT` (R192): The announce receipt timeout expires and PTP is rejected. -/
def execPtpAnnounceTimeout (s : State) : Out := clkRow announceLostDue ptpAnnounceTimeout s
/-- `GNSS_TIME_INVALID` (R192): The GNSS receiver has not declared time valid for 2 s. -/
def execGnssTimeInvalid (s : State) : Out := clkRow gnssDue gnssInvalid s
/-- `GNSS_SURVEY_DONE` (R190): The 1 h self-survey completes. -/
def execGnssSurveyDone (s : State) : Out := clkRow surveyDue (fun c => coIs (gnssSurveyDone c)) s
/-- `REF_FREQ_RESULT` (R193): The frequency monitor forms f_r and the reference is judged against the limits; 4 and 5 are the 10 MHz inputs of `EXT_A` and `EXT_B` (R186). -/
def execRefFreqResult (r : Nat) (m : Int) (s : State) : Out :=
  need (decide (r < 6)) .noSuchReference (refRow (r % 4) 0 (chanFreqIn r m) s)
/-- `DISAGREE_CLEARED` (R203): The references agree within 2 ppb for 60 s. -/
def execDisagreeCleared (s : State) : Out := clkRow (fun c => (agreeDue c).map Prod.snd) disagreeClear s
/-- `REF_QUALIFIED` (R195): 60 s of clean activity qualify a reference; a first selection sets the epoch base. -/
def execRefQualified (r : Nat) (s : State) : Out := need (decide (r < 4)) .noSuchReference (refRow r 0 (chanClkAt (fun c => qualDue c r) (refQualified r)) s)
/-- `WTR_END` (R198): Wait-to-restore ends and a revertive switch starts. -/
def execWtrEnd (r : Nat) (s : State) : Out := need (decide (r < 4)) .noSuchReference (clkRow (fun c => if wtrActive c r then some (wtrDue c r) else none) wtrEnd s)
/-- `SWITCH_COMMIT` (R201): 1 s after a switch starts, Δ is captured and a UTC-offset change is scheduled. -/
def execSwitchCommit (s : State) : Out := clkRow commitDue switchCommit s
/-- `ANT_OPEN` (R190): Antenna feed current below 2 mA for 1 s. -/
def execAntOpen (s : State) : Out := chanDo (chanClk antOpen) s
/-- `ANT_SHORT` (R190): Feed current above 150 mA for 10 ms switches the feed off and rejects GNSS. -/
def execAntShort (s : State) : Out := chanDo (chanClk antShort) s
/-- `ANT_FEED_RETRY` (R190): The shorted antenna feed is retried every 10 s. -/
def execAntFeedRetry (feed : Nat) (s : State) : Out := clkRow feedDue (fun c => coIs (antRetry feed c)) s
/-- `WARM_SET` (R205): Heater current and OCXO frequency settle and WARM sets. -/
def execWarmSet (s : State) : Out := chanDo (chanClk (setWarm true)) s
/-- `WARM_CLEARED` (R205): Supply interruption or heater change clears WARM. -/
def execWarmCleared (s : State) : Out := chanDo (chanClk (setWarm false)) s
/-- `HOLDOVER_SAMPLE` (R206): Every 16 s a disciplined channel records a learning sample. -/
def execHoldoverSample (s : State) : Out := chanDo chanSampleRow s
/-- `AGEING_REFIT` (R206): Hourly the ageing slope is refitted and learned values saved. -/
def execAgeingRefit (s : State) : Out := chanDo chanRefitRow s
/-- `OUTPUT_EDGE` (R211): An output reaches a programmed instant and drives its rising edge. -/
def execOutputEdge (n : Nat) (s : State) : Out := need (decide (n < 16)) .noSuchOutput (chanDo (chanOutRow n) s)
/-- `OUTPUT_MONITOR` (R216): The monitor TDC stamps an output edge and checks it against its instant. -/
def execOutputMonitor (n : Nat) (e : EdgeIn) (s : State) : Out :=
  need (decide (n < 16)) .noSuchOutput (chanDo (fun c => chanClk (outMonitor n e) (chanEdges e.after c)) s)
/-- `OUT_SHORT` (R216): Output current above limit for 1 µs turns the driver off. -/
def execOutShort (n : Nat) (s : State) : Out := need (decide (n < 16)) .noSuchOutput (chanDo (chanClk (outShort n)) s)
/-- `OUT_SHORT_RETRY` (R216): A shorted output is retried every 1 s. -/
def execOutShortRetry (n : Nat) (still : Bool) (s : State) : Out := need (decide (n < 16)) .noSuchOutput (clkRow (fun c => shortDue c n) (outShortRetry n still) s)
/-- `OUT_OPEN` (R216): An open load is seen for 16 pulses. -/
def execOutOpen (x : OutSwing) (s : State) : Out := need (decide (x.n < 16)) .noSuchOutput (chanDo (chanClk (outOpen x.n x.high)) s)
/-- `OUT_CFG_APPLY` (R217): A changed output configuration takes effect after the next whole second. -/
def execOutCfgApply (n : Nat) (s : State) : Out := need (decide (n < 16)) .noSuchOutput (chanDo (chanApplyRow n) s)
/-- `HOLDOVER_UPDATE` (R208): On each holdover update the channel recomputes y from I_e, ageing and temperature and writes its rate word. -/
def execHoldoverUpdate (s : State) : Out := chanDo (chanClkIs holdUpdate) s

end Sys2Proof.Machine
end

