-- ==== Sys2Proof/Machine/Regs.lean ====
section
/-! DEFINITION. Meanings: the leaf's register port, triggers, apertures and flash window (R487 to R524). -/
namespace Sys2Proof.Machine

/-- `REGISTER_WRITE` (R487): A write to a leaf register without behaviour of its own sets its fields under its access codes. -/
def execRegisterWrite (wr : Bool) (addr : Nat) (w : Word) (poison : Bool) (s : State) : Out := leafDo (leafPortAccess wr addr w poison) s
/-- `HIST_SEL_WRITE` (R495): A write of HIST_SEL copies a history entry into HIST_ENTRY. -/
def execHistSelWrite (n : Nat) (s : State) : Out := leafDo (leafHistSel n) s
/-- `TRIGGER_WRITE` (R497): A write to a trigger register is checked and takes effect from the next edge. -/
def execTriggerWrite (k : Nat) (off : Nat) (w : Word) (s : State) : Out := need (decide (k < 8)) .noSuchPin (leafDo (leafTrigWrite k off w) s)
/-- `TRIGGER_EDGE` (R498): A trigger instant is reached and the leading edge driven, dropped or flagged late. -/
def execTriggerEdge (k : Nat) (s : State) : Out := need (decide (k < 8)) .noSuchPin (leafDo (leafTrigEdge k) s)
/-- `TRIGGER_PULSE_END` (R497): A trigger pulse reaches its width and ends. -/
def execTriggerPulseEnd (k : Nat) (s : State) : Out := need (decide (k < 8)) .noSuchPin (leafDo (leafPulseEnd k) s)
/-- `CAP_POP_READ` (R500): A read of CAP_POP_0 removes the oldest capture entry. -/
def execCapPopRead (s : State) : Out := leafDo leafCapPop s
/-- `SUM_REQUEST` (R519): A write of SUM_REQUEST fixes the snapshot edge and starts assembly. -/
def execSumRequest (s : State) : Out := leafDo leafSumRequest s
/-- `SUMMARY_READY` (R519): The summary block is complete. -/
def execSummaryReady (s : State) : Out := leafDo leafSumReady s
/-- `RES_SEL_WRITE` (R513): A write of RES_SEL_a binds the aperture to a fired generation. -/
def execResSelWrite (k : Nat) (w : Word) (s : State) : Out := need (decide (k < 8)) .noSuchPin (leafDo (leafResSel k w) s)
/-- `INT_FIFO_READ` (R522): A read of INT_FIFO removes the oldest interrupt entry. -/
def execIntFifoRead (s : State) : Out := leafDo intFifoRead s
/-- `FLASH_READ` (R514): READ loads the flash window from a page. -/
def execFlashRead (s : State) : Out := leafDo leafFlashRead s
/-- `FLASH_PROGRAM` (R515): PROGRAM erases and programs a sector from the window, or is refused. -/
def execFlashProgram (s : State) : Out := leafDo leafFlashProgram s
/-- `FLASH_TRIM_ADD` (R516): TRIM_ADD merges PORT_TRIM entries into the user block. -/
def execFlashTrimAdd (s : State) : Out := leafDo leafFlashTrim s
/-- `FLASH_STAGE_DONE` (R517): STAGE_DONE declares the staged copy complete and starts its check. -/
def execFlashStageDone (s : State) : Out := leafDo leafFlashStage s
/-- `FLASH_DONE` (R515): A flash operation completes with its result. -/
def execFlashDone (s : State) : Out := leafDo leafFlashDone s

end Sys2Proof.Machine
end

