-- ==== Sys2Proof/Machine/Secures.lean ====
section
/-! DEFINITION. Meanings: violations, debug unlock, alarms and keys (R472 to R486). -/
namespace Sys2Proof.Machine

/-- `LID_OPEN` (R479): The sled lid reads open for 10 ms and a violation is applied. -/
def execLidOpen (s : State) : Out := chanDo (chanViolate 1) s
/-- `MESH_FAULT` (R479): The tamper mesh reads open or shorted for 1 µs. -/
def execMeshFault (s : State) : Out := chanDo (chanViolate 2) s
/-- `VOLT_GLITCH` (R479): The key store supply leaves ±15 % for 20 ns. -/
def execVoltGlitch (u : On) (s : State) : Out := atUnit u (leafViolate 3) (chanViolate 3) s
/-- `CLOCK_GLITCH` (R479): A time-clock period falls outside 600 to 1,000 ps. -/
def execClockGlitch (u : On) (s : State) : Out := atUnit u (leafViolate 4) (chanViolate 4) s
/-- `TEMP_VIOLATION` (R479): Die temperature stays out of range for 1 s. -/
def execTempViolation (u : On) (s : State) : Out := atUnit u (leafViolate 5) (chanViolate 5) s
/-- `HOST_ALARM` (R479): host_sec_alarm is sampled asserted on two hub edges. -/
def execHostAlarm (s : State) : Out := leafDo (leafViolate 9) s
/-- `FUSE_BLOW_DONE` (R573): A tamper fuse blow is answered and the counter reread, or the blow stays pending. -/
def execFuseBlowDone (u : On) (ok : Bool) (s : State) : Out := atUnit u (leafBlowDone ok) (chanBlowDone ok) s
/-- `DEBUG_UNLOCK_REQUEST` (R484): A debug unlock request returns a fresh challenge. -/
def execDebugUnlockRequest (v : Asker) (id : Nat) (serial : Nat) (s : State) : Out := need (askerOk v) .noSuchPort (debugRequestRow v id serial s)
/-- `DEBUG_UNLOCK_RESPONSE` (R484): A signed response unlocks debug or counts a failed unlock. -/
def execDebugUnlockResponse (v : Asker) (id : Nat) (serial : Nat) (dur : Nat) (sig : Bytes) (s : State) : Out :=
  need (askerOk v) .noSuchPort (debugResponseRow v id serial dur sig s)
/-- `DEBUG_LOCK` (R484): DEBUG_LOCK ends debug-unlocked state. -/
def execDebugLock (v : Asker) (id : Nat) (serial : Nat) (s : State) : Out := need (askerOk v) .noSuchPort (debugLockRow v id serial s)
/-- `DEBUG_EXPIRY` (R484): The unlocked duration runs out. -/
def execDebugExpiry (u : On) (s : State) : Out := atUnit u leafDbgExpire chanDbgExpire s
/-- `CHALLENGE_EXPIRY` (R484): A debug challenge older than 10 s becomes invalid. -/
def execChallengeExpiry (u : On) (s : State) : Out := atUnit u leafChallengeOld chanChallengeOld s
/-- `ALARM_CLEAR` (R481): A signed ALARM_CLEAR lowers a standing LOCK. -/
def execAlarmClear (v : Via) (id : Nat) (serial : Nat) (sig : Bytes) (s : State) : Out :=
  need (viaOk v) .noSuchPort (viaRow v id cmAlarmClear false (leBytes 8 serial ++ sig.take 64) (mgmtAlarmClear id serial sig) s)
/-- `KEY_ROTATE` (R477): A new fabric key is installed and downward links rekey within 10 s. -/
def execKeyRotate (place : Nat) (id : Nat) (body : Bytes) (s : State) : Out := askRow place 0x50 id false (mgmtKeyRotate id body) s

end Sys2Proof.Machine
end

