-- ==== Sys2Proof/Machine/Sheaves.lean ====
section
/-! DEFINITION. Meanings: joins, routes, parking, leaving and closing (R222 to R229, R248 to R261, R36 to R48). -/
namespace Sys2Proof.Machine

/-- `JOIN_GO` (R222): Host firmware's join is checked, the program copied and the join sent up each locked domain. -/
def execJoinGo (k : Nat) (s : State) : Out := need (decide (k < 32)) .noSuchSlot (leafDo (leafJoinGo k) s)
/-- `JOIN_FORWARD` (R224): A channel forwards a join upward, stripping or keeping program granules. -/
def execJoinForward (p : Nat) (gs : List Granule) (s : State) : Out := need (decide (p < 272)) .noSuchPort (linkDo (joinForward p gs) s)
/-- `JOIN_AT_MILL` (R225): The mill opens or extends a forming entry or forwards the join to the apex. -/
def execJoinAtMill (p : Nat) (gs : List Granule) (s : State) : Out := need (decide (p < 272)) .noSuchPort (linkDo (joinAtMill p gs) s)
/-- `JOIN_AT_APEX` (R36): The apex binds, repeats, rebinds or refuses a join for a rank. -/
def execJoinAtApex (p : Nat) (gs : List Granule) (s : State) : Out := need (decide (p < 272)) .noSuchPort (linkDo (joinAtApex p gs) s)
/-- `ROUTE_UPDATE` (R43): A channel applies a route add or remove for a sheaf and acknowledges upward. -/
def execRouteUpdate (p : Nat) (gs : List Granule) (s : State) : Out := need (decide (p < 272)) .noSuchPort (linkDo (chanRouteUpdate p gs) s)
/-- `ROUTE_UPDATE_ACK` (R44): The apex collects route acknowledgements; when all are in it acknowledges the join or forms the sheaf. -/
def execRouteUpdateAck (g : Gran) (s : State) : Out := linkDo (chanRouteAck g) s
/-- `ROUTE_UPDATE_RESEND` (R44): A lost route update or acknowledgement is resent after 100 µs. -/
def execRouteUpdateResend (tag : Nat) (s : State) : Out := linkDo (chanRouteResend tag) s
/-- `ROUTE_UNREACHABLE` (R45): A path not recovered after 10 s refuses the join. -/
def execRouteUnreachable (tag : Nat) (rank : Nat) (s : State) : Out := linkDo (chanUnreachable tag rank) s
/-- `JOIN_ACK` (R38): A join acknowledgement lands at the leaf, which combines domain answers into LAST_OUTCOME. -/
def execJoinAck (a : At) (g : Gran) (s : State) : Out := need (atOk a) .noSuchPort (atPort a (fun d => leafJoinAck d g) (fun _ => chanJoinAck g) s)
/-- `WITHDRAW_NOTICE` (R38): The apex treats a withdraw notice as a fence notice for that member. -/
def execWithdrawNotice (g : Gran) (s : State) : Out := linkDo (chanWithdraw g) s
/-- `FORM_TIMEOUT` (R228): A sheaf still FORMING after FORM_TIMEOUT_S goes CLOSED. -/
def execFormTimeout (tag : Nat) (s : State) : Out := linkDo (chanFormTimeout tag) s
/-- `SUSPEND_TIMEOUT` (R251): A sheaf suspended for SUSPEND_TIMEOUT_S goes CLOSING. -/
def execSuspendTimeout (v : SheafAt) (s : State) : Out := need (sheafAtOk v) .noSuchSlot (suspendRow v s)
/-- `AUTO_JOIN` (R252): A leaf whose path returns sends a catch-up join to a suspended domain. -/
def execAutoJoin (k : Nat) (d : Nat) (s : State) : Out :=
  need (decide (k < 32)) .noSuchSlot (need (decide (d < 2)) .noSuchPort (leafDo (leafAutoJoin k d) s))
/-- `REFORM_NOTICE` (R253): A re-form notice makes the leaf send an AUTO join to re-form at the new apex. -/
def execReformNotice (a : At) (g : Gran) (s : State) : Out := need (atOk a) .noSuchPort (atPort a (fun d => leafReform d g) (fun _ => chanReform g) s)
/-- `PARK` (R254): Host firmware parks a member; the leaf writes the context block and sends park notices. -/
def execPark (k : Nat) (s : State) : Out := need (decide (k < 32)) .noSuchSlot (leafDo (leafPark k) s)
/-- `PARK_NOTICE` (R254): The apex sets the member PARKED. -/
def execParkNotice (g : Gran) (s : State) : Out := linkDo (chanPark g) s
/-- `UNPARK` (R257): Host firmware restores a context block into a slot and the leaf sends unpark notices. -/
def execUnpark (k : Nat) (s : State) : Out := need (decide (k < 32)) .noSuchSlot (leafDo (leafUnpark k) s)
/-- `UNPARK_NOTICE` (R257): The apex returns the member to JOINED and acknowledges with UNPARKED. -/
def execUnparkNotice (g : Gran) (s : State) : Out := linkDo (chanUnpark g) s
/-- `LEAVE` (R259): A member's LEAVE takes the sheaf CLOSING. -/
def execLeave (v : LeaveAt) (s : State) : Out := need (leaveOk v) .noSuchSlot (leaveRow v s)
/-- `SHEAF_CLOSED` (R259): With no generation open and routes deleted the sheaf is CLOSED and leaves free their slots. -/
def execSheafClosed (v : ClosedAt) (s : State) : Out := need (closedOk v) .noSuchPort (closedRow v s)
/-- `FORGET_PAIR` (R224): 10 s after recording a tag and digest pair with no route entry for the tag, the channel forgets the pair. -/
def execForgetPair (tag : Nat) (digest : Gran) (s : State) : Out := linkDo (chanForgetPair tag digest) s

end Sys2Proof.Machine
end

