-- ==== Sys2Proof/Machine/Starts.lean ====
section
/-! DEFINITION. Meanings: reset, start-up, flash and restarts (R337, R435, R447 to R471, R540, R567 to R581). -/
namespace Sys2Proof.Machine

/-- `LEAF_RESET` (R435): leaf_rst_n asserts; transmitters go dark and all leaf state is lost. -/
def execLeafReset (s : State) : Out := leafAlways leafReset s
/-- `RESET_RELEASE` (R568): Reset is released after PLL lock; fuses are read and start-up begins. -/
def execResetRelease (ws : List (Option Word)) (s : State) : Out := leafAlways (leafResetEnd ws) s
/-- `IMAGE_ACCEPTED` (R452): The factory block is checked and an image copy chosen, or the unit enters QUARANTINE. -/
def execImageAccepted (u : On) (s : State) : Out := imageRow u s
/-- `SELFTEST_DONE` (R456): Start-up self-tests complete and the unit enters RESTORE. -/
def execSelftestDone (u : On) (r : SelfTest) (s : State) : Out := atUnit u (leafSelfTest r) (chanSelfTest r) s
/-- `RESTORE_DONE` (R456): History, disabled-unit map and user block are loaded and the unit enters RUN. -/
def execRestoreDone (u : On) (s : State) : Out := atUnit u leafRestore chanRestore s
/-- `CFG_LOCK` (R457): A write of CFG_LOCK completes leaf start-up for RWL fields. -/
def execCfgLock (s : State) : Out := leafDo leafCfgLock s
/-- `USER_BLOCK_SAVE` (R463): A due save writes the user block into the other half. -/
def execUserBlockSave (u : On) (hourly : Bool) (s : State) : Out := atUnit u (leafSaveRow hourly) (chanSaveRow hourly) s
/-- `RESTORE_FACTORY_ARM` (R465): ARM returns an ARM_CODE and opens a 1 s window. -/
def execRestoreFactoryArm (v : Asker) (id : Nat) (serial : Nat) (s : State) : Out := need (askerOk v) .noSuchPort (armRow v id serial s)
/-- `RESTORE_FACTORY_CONFIRM` (R466): CONFIRM tombstones and erases the user block. -/
def execRestoreFactoryConfirm (v : Asker) (id : Nat) (serial : Nat) (code : Nat) (force : Bool) (s : State) : Out :=
  need (askerOk v) .noSuchPort (confirmRow v id serial code force s)
/-- `ARM_EXPIRY` (R465): The 1 s ARM window lapses. -/
def execArmExpiry (u : On) (s : State) : Out := atUnit u leafArmExpire chanArmExpire s
/-- `IMAGE_WRITE` (R454): IMAGE_WRITE stages bytes into the unused copy and checks it on LAST. -/
def execImageWrite (place : Nat) (id : Nat) (off : Nat) (last : Bool) (data : Bytes) (s : State) : Out :=
  askRow place 0x31 id false (mgmtImageWrite id off last data) s
/-- `CAL_WRITE` (R463): CAL_WRITE queues user-block entries for the next start. -/
def execCalWrite (place : Nat) (id : Nat) (body : Bytes) (s : State) : Out := askRow place 0x32 id false (mgmtCalWrite id body) s
/-- `RESTART` (R467): RESTART is answered, waits for earlier commands and restarts the channel. -/
def execRestart (place : Nat) (id : Nat) (force : Bool) (safe : Bool) (s : State) : Out := askRow place 0x33 id force (mgmtRestart id force safe) s
/-- `RESTART_WAIT_END` (R540): The up to 1 s wait after an accepted RESTART ends and the channel restarts. -/
def execRestartWaitEnd (s : State) : Out := restartRow s
/-- `HUB_REF_CLOCK_FAIL` (R567): hub_ref_clk stops or the PLL unlocks; leaf_clk_fail asserts and transmitters go dark. -/
def execHubRefClockFail (s : State) : Out := leafAlways leafClockFail s
/-- `SENSOR_UPDATE` (R581): A sns_toggle delivers a sensor update. -/
def execSensorUpdate (u : On) (n : Nat) (temp : Int) (mv : Nat) (vmin : Nat) (s : State) : Out :=
  need (decide (n < 4)) .noSuchSensor (atUnit u (leafSensor n temp mv vmin) (chanSensor n temp mv vmin) s)
/-- `SENSOR_STALE` (R581): A sensor index not updated for 10 ms becomes stale. -/
def execSensorStale (u : On) (n : Nat) (s : State) : Out := need (decide (n < 4)) .noSuchSensor (atUnit u (leafSensorStale n) (chanSensorStale n) s)

end Sys2Proof.Machine
end

