-- ==== Sys2Proof/Machine/Taps.lean ====
section
/-! DEFINITION. Meanings: the hub and the region taps (R71 to R102). -/
namespace Sys2Proof.Machine

/-- `TAP_TIME_PAIR_SEND` (R74): The hub sends a TIME_A/TIME_B pair at least once every 1 µs. -/
def execTapTimePairSend (n : Nat) (s : State) : Out := need (decide (n < 64)) .noSuchTap (leafDo (hubPair n) s)
/-- `TAP_TIME_RELOAD` (R77): A tap reloads its pod-time copy from a TIME pair and counts differing reloads. -/
def execTapTimeReload (n : Nat) (wa : Word) (wb : Word) (s : State) : Out :=
  need (decide (n < 64)) .noSuchTap (leafDo (fun l => onTap n (tapReload l.time.edges wa wb) l) s)
/-- `TAP_FIRE_WORD` (R75): A tap receives a FIRE word and reconstructs the 64-bit fire time. -/
def execTapFireWord (n : Nat) (w : Word) (s : State) : Out :=
  need (decide (n < 64)) .noSuchTap (leafDo (fun l => onTap n (tapFireWord l.time.edges w) l) s)
/-- `TAP_FIRE` (R82): On the first region edge at or after F the tap asserts fire_strobe and reports FIRED with lateness and SLIP. -/
def execTapFire (n : Nat) (x : RegionIn) (s : State) : Out :=
  need (decide (n < 64)) .noSuchTap (leafDo (fun l => leafTapFire n x.sample (leafTicks x.after l)) s)
/-- `FIRED_REPORT` (R83): The hub receives a FIRED word and updates lateness records and FIRE_LATE. -/
def execFiredReport (n : Nat) (w : Word) (s : State) : Out := need (decide (n < 64)) .noSuchTap (leafDo (onTapEv n .fireLate (hubFired w)) s)
/-- `TAP_STEP_WORD` (R75): A tap receives a STEP_A/STEP_B pair. -/
def execTapStepWord (n : Nat) (wa : Word) (wb : Word) (s : State) : Out :=
  need (decide (n < 64)) .noSuchTap (leafDo (fun l => onTap n (tapStepWord l.time.edges wa wb) l) s)
/-- `TAP_STEP_APPLY` (R75): The tap's compensated time reaches T_s and it applies the step. -/
def execTapStepApply (n : Nat) (s : State) : Out := need (decide (n < 64)) .noSuchTap (leafDo (leafTapStepRow n) s)
/-- `TAP_CFG_ACCESS` (R490): The hub serves a tap register access with CFG_RD or CFG_WR within 200 ns. -/
def execTapCfgAccess (n : Nat) (off : Nat) (wr : Bool) (w : Word) (s : State) : Out :=
  need (decide (n < 64)) .noSuchTap (leafDo (tapAccess n off wr w) s)
/-- `TAP_DELAY_MEASURE` (R76): Once a second the hub measures a tap's round trip and sets d_t. -/
def execTapDelayMeasure (n : Nat) (roundTrip : Nat) (s : State) : Out :=
  need (decide (n < 64)) .noSuchTap (leafDo (onTapEv n .tapDelayJump (tapDelay roundTrip)) s)
/-- `TAP_FAULT` (R86): A tap stops returning tap_clk_ret or loses delay-line lock and is excluded from firing. -/
def execTapFault (n : Nat) (s : State) : Out := need (decide (n < 64)) .noSuchTap (leafDo (leafTapFault n) s)
/-- `REGION_CLOCK_STOPPED` (R86): A region clock shows no edge for 1 µs. -/
def execRegionClockStopped (n : Nat) (s : State) : Out := need (decide (n < 64)) .noSuchTap (leafDo (leafStopRow n) s)
/-- `LB_ARRIVE` (R93): A member toggles lb_up; when all have arrived the hub forms AND and OR and toggles lb_dn. -/
def execLbArrive (n : Nat) (k : Nat) (flag : Bool) (s : State) : Out :=
  need (decide (n < 64)) .noSuchTap (need (decide (k < 4)) .noSuchContext (leafDo (localArrive n k flag) s))
/-- `LB_RELEASE_TAP` (R92): A tap receives the lb_dn toggle and toggles lb_rel to its region. -/
def execLbReleaseTap (n : Nat) (k : Nat) (s : State) : Out :=
  need (decide (n < 64)) .noSuchTap (need (decide (k < 4)) .noSuchContext (leafDo (onTap n (tapRelease k)) s))
/-- `LOCAL_GEN_TIMEOUT` (R93): A local generation without release by the generation timeout goes FAILED. -/
def execLocalGenTimeout (k : Nat) (s : State) : Out := need (decide (k < 4)) .noSuchContext (leafDo (leafLocalTimeout k) s)
/-- `PHASE_START` (R96): A write of PHASE_START begins a neighbour phase measurement. -/
def execPhaseStart (n : Nat) (s : State) : Out :=
  need (decide (n < 64)) .noSuchTap (leafDo (onTap n (fun t => if t.present then phaseStart t else t)) s)
/-- `PHASE_DONE` (R95): A 256-edge phase measurement ends and PHASE_NBR_n and validity are set: the measurement of tap n, with the region edge at
tap m that completes it. -/
def execPhaseDone (n m after sample : Nat) (s : State) : Out :=
  need (decide (n < 64 ∧ m < 64)) .noSuchTap (leafDo (fun l => leafPhaseDone n (leafEdge m sample (leafTicks after l))) s)
/-- `REPLICA_SAMPLE` (R99): Every 1,024 region edges the tap measures replica slack. -/
def execReplicaSample (n after slack : Nat) (s : State) : Out :=
  need (decide (n < 64)) .noSuchTap (leafDo (fun l => leafReplica n slack (leafTicks after l)) s)
/-- `REGION_EDGE` (R87): A region clock edge is stamped at the tap, counted in REGION_COUNT, counted as stretched when late, and fires launches held
while the clock was stopped. -/
def execRegionEdge (n : Nat) (x : RegionIn) (s : State) : Out :=
  need (decide (n < 64)) .noSuchTap (leafDo (fun l => leafEdge n x.sample (leafTicks x.after l)) s)

end Sys2Proof.Machine
end

