-- ==== Sys2Proof/Machine/Tdcs.lean ====
section
/-! DEFINITION. Meanings: time-to-digital converters and capture inputs (R103 to R122, R501). -/
namespace Sys2Proof.Machine

/-- `TDC_START_EDGE` (R111): A start edge begins an interval measurement or is ignored as busy. -/
def execTdcStartEdge (u : On) (n : Nat) (e : EdgeIn) (s : State) : Out :=
  need (tdcOk u n) .noSuchTdc (tdcRow u n e.after (fun tm => tdcStart tm e) s)
/-- `TDC_STOP_EDGE` (R111): A stop edge ends a measurement or yields a stamp, or is ignored. -/
def execTdcStopEdge (u : On) (n : Nat) (e : EdgeIn) (s : State) : Out :=
  need (tdcOk u n) .noSuchTdc (tdcRow u n e.after (fun tm => tdcStop n tm e) s)
/-- `TDC_COARSE_OVERFLOW` (R111): The coarse counter reaches 2^32−1 with no stop and the measurement ends invalid. -/
def execTdcCoarseOverflow (u : On) (n : Nat) (s : State) : Out := need (tdcOk u n) .noSuchTdc (atUnit u (leafOverRow n) (chanOverRow n) s)
/-- `TDC_LOCK_ACQUIRED` (R114): An interpolator's control loop locks. -/
def execTdcLockAcquired (u : On) (n : Nat) (start : Bool) (s : State) : Out := need (tdcOk u n) .noSuchTdc (tdcRow u n 0 (fun _ => tdcLock start) s)
/-- `TDC_LOCK_LOST` (R115): An interpolator's phase error exceeds 4 bins on two edges. -/
def execTdcLockLost (u : On) (n : Nat) (start : Bool) (s : State) : Out :=
  need (tdcOk u n) .noSuchTdc (atUnit u (leafTdcLost n start) (chanTdcLost n start) s)
/-- `TDC_LOCK_TIMEOUT` (R115): A TDC that has not locked within 100 µs is faulted. -/
def execTdcLockTimeout (u : On) (n : Nat) (s : State) : Out := need (tdcOk u n) .noSuchTdc (atUnit u (leafLockRow n) (chanLockRow n) s)
/-- `TDC_LOOP_RANGE_CHECK` (R116): Once a second the background pass checks the loop control value against its factory range. -/
def execTdcLoopRangeCheck (u : On) (n : Nat) (v : LoopVal) (s : State) : Out :=
  need (tdcOk u n) .noSuchTdc (tdcRow u n 0 (fun _ => tdcRange v.start v.value) s)
/-- `TDC_HISTOGRAM_DONE` (R116): A code-density histogram completes and sets or clears LIN_SUSPECT. -/
def execTdcHistogramDone (u : On) (n : Nat) (start : Bool) (hist : List Nat) (s : State) : Out :=
  need (tdcOk u n) .noSuchTdc (atUnit u (leafHistogram n start hist) (chanHistogram n start hist) s)
/-- `CAPTURE_EDGE` (R501): Capture input edges of one time-clock edge claim pool TDCs and their stamps join the capture queue. -/
def execCaptureEdge (k : Nat) (e : EdgeIn) (more : List (Nat × EdgeIn)) (s : State) : Out :=
  need (((k, e) :: more).all (fun x => decide (x.1 < 8))) .noSuchPin
    (leafDo (fun l => leafCaptureEdge ((k, e) :: more) (leafTicks e.after l)) s)

end Sys2Proof.Machine
end

