-- ==== Sys2Proof/Machine/Times.lean ====
section
/-! DEFINITION. Meanings: pod time, steps and slews, the two domains of a leaf, and the one time line of a hall (R49 to R70, R136 to R182, R591). -/
namespace Sys2Proof.Machine

/-- `GEAR_ADVANCE` (R163): The hold time of an acquisition gear expires and the loop moves to the next gear. -/
def execGearAdvance (a : At) (s : State) : Out :=
  need (atOk a) .noSuchPort (atPort a leafGearRow (fun _ => chanGearRow) s)
/-- `SWITCH_RULE4` (R169): The selected source has sent 0b001 for 1 s while the other domain is LOCKED at 0b000, so the leaf switches. -/
def execSwitchRule4 (s : State) : Out := leafDo leafRule4Row s
/-- `TIME_INFO` (R139): A TIME_INFO message updates epoch base, UTC offset, leap seconds and step state. -/
def execTimeInfo (a : At) (g : Gran) (s : State) : Out :=
  need (atOk a) .noSuchPort (atPort a (fun d => leafTimeInfo d g) (fun _ => chanTimeInfo g) s)
/-- `STEP_NOTICE` (R140): A step notice is held, forwarded below within 1 µs, and applied late if its instant has passed. -/
def execStepNotice (a : At) (g : Gran) (s : State) : Out :=
  need (atOk a) .noSuchPort (atPort a (fun d l => leafNotice l (noticeOf d g)) (fun _ c => chanNotice c.clk.domain g c) s)
/-- `STEP_INSTANT` (R57): Pod time reaches T_s of a held pod-time notice: a forward step jumps the counter or a slew starts. -/
def execStepInstant (u : On) (s : State) : Out := atUnit u leafStepRow chanStepRow s
/-- `SLEW_END` (R61): A slew has absorbed |Δ| and the unit returns to its steady rate. -/
def execSlewEnd (u : On) (s : State) : Out := atUnit u leafSlewRow chanSlewRow s
/-- `UTC_STEP_APPLY` (R63): Pod time reaches T_s of a UTC-offset change and Δ is added to the UTC offset. -/
def execUtcStepApply (u : On) (s : State) : Out := atUnit u leafUtcRow chanUtcRow s
/-- `TIME_SATURATED` (R69): Pod time reaches all-ones and sticks. -/
def execTimeSaturated (u : On) (s : State) : Out := atUnit u leafSatRow chanSatRow s
/-- `TIME_SNAP_LO_READ` (R66): A read of TIME_SNAP_LO_c latches pod time, UTC offset and status into context c. -/
def execTimeSnapLoRead (k : Nat) (s : State) : Out := need (decide (k < 4)) .noSuchContext (leafDo (fun l => snapRead l k) s)
/-- `STRICT_REPORT` (R56): A STRICT_REPORT message updates the upper unit's view of running strict sheaves. -/
def execStrictReport (p : Nat) (g : Gran) (s : State) : Out := need (decide (p < 272)) .noSuchPort (linkDo (chanStrict p g) s)
/-- `TIME_LINE_SEND` (R177): At each whole second a leaf or settled channel sends its TIME_LINE report. -/
def execTimeLineSend (u : On) (s : State) : Out := atUnit u leafLineRow (portLive chanLineRow) s
/-- `TIME_LINE_RECEIVED` (R178): A TIME_LINE report is collected by a channel, or used by a mill to settle or steer. -/
def execTimeLineReceived (p : Nat) (g : Gran) (s : State) : Out := need (decide (p < 272)) .noSuchPort (linkDo (chanClk (lineIn p g)) s)
/-- `TIME_LINE_COMBINE` (R178): Each second a barn or yard combines its reports and sends the result upward. -/
def execTimeLineCombine (s : State) : Out := linkDo chanCombineRow s
/-- `MILL_SETTLE_WAIT` (R179): A mill unsettled for 10 s (lead) or 60 s (follower) settles by waiting. -/
def execMillSettleWait (s : State) : Out := clkRow settleDue settleWait s
/-- `LEAD_LOST` (R180): A follower without a usable report for 10 s steers to its own reference. -/
def execLeadLost (s : State) : Out := clkRow leadDue leadLost s
/-- `FOLLOWER_CONFIRM_TIMEOUT` (R181): No follower confirmation within 50 ms: the lead answers FOLLOWER_UNCONFIRMED and the change stands. -/
def execFollowerConfirmTimeout (id : Nat) (s : State) : Out := chanDo (chanUnconfirmed id) s
/-- `STEP_RELAY_CHECK` (R591): At each whole second a leaf sends held notices up a domain whose source count is lower. -/
def execStepRelayCheck (s : State) : Out := leafDo leafRelayRow s
/-- `STEP_RELAY` (R591): A STEP_RELAY packet is forwarded by a barn or yard, or applied late by a mill with a lower count. -/
def execStepRelay (p : Nat) (g : Gran) (s : State) : Out := need (decide (p < 272)) .noSuchPort (linkDo (chanRelay p g) s)
/-- `FOLLOWER_CONFIRM` (R181): The follower's confirmation of a passed change reaches the lead, which then answers the PHASE_STEP; without a card that
knows its follower it is lost. -/
def execFollowerConfirm (id : Nat) (s : State) : Out := chanDo (fun c => if followerKnown s.box.mod then chanConfirmed id c else c) s

end Sys2Proof.Machine
end

