-- ==== Sys2Proof/Machine/Dispatch.lean ====
section
/-! DEFINITION. One arm per command. -/
namespace Sys2Proof.Machine

def exec (i : Instr) (s : State) : Host.Outcome State Fault Refusal :=
  match i with
  | .lightDetected a lane power => Sys2Proof.Machine.execLightDetected a lane power s
  | .trainFrame a own g testsDone => Sys2Proof.Machine.execTrainFrame a own g testsDone s
  | .laneStuck a k => Sys2Proof.Machine.execLaneStuck a k s
  | .ident a g => Sys2Proof.Machine.execIdent a g s
  | .ancestry a g => Sys2Proof.Machine.execAncestry a g s
  | .linkParams a g => Sys2Proof.Machine.execLinkParams a g s
  | .trainingTimeout a => Sys2Proof.Machine.execTrainingTimeout a s
  | .trainingNoLight a => Sys2Proof.Machine.execTrainingNoLight a s
  | .trainingRetry a => Sys2Proof.Machine.execTrainingRetry a s
  | .duplicateOrder g => Sys2Proof.Machine.execDuplicateOrder g s
  | .lossOfSignal a fibreB => Sys2Proof.Machine.execLossOfSignal a fibreB s
  | .missingSlots a => Sys2Proof.Machine.execMissingSlots a s
  | .frameLockLost a => Sys2Proof.Machine.execFrameLockLost a s
  | .dataFrameReceived a line => Sys2Proof.Machine.execDataFrameReceived a line s
  | .ackNak a g => Sys2Proof.Machine.execAckNak a g s
  | .ackNakSend a => Sys2Proof.Machine.execAckNakSend a s
  | .nakRepeat a => Sys2Proof.Machine.execNakRepeat a s
  | .beatSend a => Sys2Proof.Machine.execBeatSend a s
  | .beatReceived a g ok e => Sys2Proof.Machine.execBeatReceived a g ok e s
  | .blockRelease a => Sys2Proof.Machine.execBlockRelease a s
  | .gearAdvance a => Sys2Proof.Machine.execGearAdvance a s
  | .switchRule4 => Sys2Proof.Machine.execSwitchRule4 s
  | .timeInfo a g => Sys2Proof.Machine.execTimeInfo a g s
  | .stepNotice a g => Sys2Proof.Machine.execStepNotice a g s
  | .stepInstant u => Sys2Proof.Machine.execStepInstant u s
  | .slewEnd u => Sys2Proof.Machine.execSlewEnd u s
  | .utcStepApply u => Sys2Proof.Machine.execUtcStepApply u s
  | .timeSaturated u => Sys2Proof.Machine.execTimeSaturated u s
  | .timeSnapLoRead k => Sys2Proof.Machine.execTimeSnapLoRead k s
  | .strictReport p g => Sys2Proof.Machine.execStrictReport p g s
  | .turnSched a g => Sys2Proof.Machine.execTurnSched a g s
  | .turnSlotDue p => Sys2Proof.Machine.execTurnSlotDue p s
  | .turnSlotForced p => Sys2Proof.Machine.execTurnSlotForced p s
  | .echoReturned a e => Sys2Proof.Machine.execEchoReturned a e s
  | .echoNotReturned a => Sys2Proof.Machine.execEchoNotReturned a s
  | .calResult a g => Sys2Proof.Machine.execCalResult a g s
  | .keyNonce a g => Sys2Proof.Machine.execKeyNonce a g s
  | .keyWrapLo a g => Sys2Proof.Machine.execKeyWrapLo a g s
  | .keyWrapHi a g => Sys2Proof.Machine.execKeyWrapHi a g s
  | .keyConfirm a g => Sys2Proof.Machine.execKeyConfirm a g s
  | .keyConfirmTimeout a => Sys2Proof.Machine.execKeyConfirmTimeout a s
  | .keySwitch a g => Sys2Proof.Machine.execKeySwitch a g s
  | .noKeys a => Sys2Proof.Machine.execNoKeys a s
  | .rekeyDue p => Sys2Proof.Machine.execRekeyDue p s
  | .rekeyRetry p => Sys2Proof.Machine.execRekeyRetry p s
  | .tapTimePairSend n => Sys2Proof.Machine.execTapTimePairSend n s
  | .tapTimeReload n wa wb => Sys2Proof.Machine.execTapTimeReload n wa wb s
  | .tapFireWord n w => Sys2Proof.Machine.execTapFireWord n w s
  | .tapFire n x => Sys2Proof.Machine.execTapFire n x s
  | .firedReport n w => Sys2Proof.Machine.execFiredReport n w s
  | .tapStepWord n wa wb => Sys2Proof.Machine.execTapStepWord n wa wb s
  | .tapStepApply n => Sys2Proof.Machine.execTapStepApply n s
  | .tapCfgAccess n off wr w => Sys2Proof.Machine.execTapCfgAccess n off wr w s
  | .tapDelayMeasure n roundTrip => Sys2Proof.Machine.execTapDelayMeasure n roundTrip s
  | .tapFault n => Sys2Proof.Machine.execTapFault n s
  | .regionClockStopped n => Sys2Proof.Machine.execRegionClockStopped n s
  | .lbArrive n k flag => Sys2Proof.Machine.execLbArrive n k flag s
  | .lbReleaseTap n k => Sys2Proof.Machine.execLbReleaseTap n k s
  | .localGenTimeout k => Sys2Proof.Machine.execLocalGenTimeout k s
  | .phaseStart n => Sys2Proof.Machine.execPhaseStart n s
  | .phaseDone n m after sample => Sys2Proof.Machine.execPhaseDone n m after sample s
  | .replicaSample n after slack => Sys2Proof.Machine.execReplicaSample n after slack s
  | .tdcStartEdge u n e => Sys2Proof.Machine.execTdcStartEdge u n e s
  | .tdcStopEdge u n e => Sys2Proof.Machine.execTdcStopEdge u n e s
  | .tdcCoarseOverflow u n => Sys2Proof.Machine.execTdcCoarseOverflow u n s
  | .tdcLockAcquired u n start => Sys2Proof.Machine.execTdcLockAcquired u n start s
  | .tdcLockLost u n start => Sys2Proof.Machine.execTdcLockLost u n start s
  | .tdcLockTimeout u n => Sys2Proof.Machine.execTdcLockTimeout u n s
  | .tdcLoopRangeCheck u n v => Sys2Proof.Machine.execTdcLoopRangeCheck u n v s
  | .tdcHistogramDone u n start hist => Sys2Proof.Machine.execTdcHistogramDone u n start hist s
  | .captureEdge k e more => Sys2Proof.Machine.execCaptureEdge k e more s
  | .timeLineSend u => Sys2Proof.Machine.execTimeLineSend u s
  | .timeLineReceived p g => Sys2Proof.Machine.execTimeLineReceived p g s
  | .timeLineCombine => Sys2Proof.Machine.execTimeLineCombine s
  | .millSettleWait => Sys2Proof.Machine.execMillSettleWait s
  | .leadLost => Sys2Proof.Machine.execLeadLost s
  | .followerConfirmTimeout id => Sys2Proof.Machine.execFollowerConfirmTimeout id s
  | .stepRelayCheck => Sys2Proof.Machine.execStepRelayCheck s
  | .stepRelay p g => Sys2Proof.Machine.execStepRelay p g s
  | .refPulse r x => Sys2Proof.Machine.execRefPulse r x s
  | .refWindowMiss r => Sys2Proof.Machine.execRefWindowMiss r s
  | .refEdgeMiss r => Sys2Proof.Machine.execRefEdgeMiss r s
  | .ptpSyncMiss => Sys2Proof.Machine.execPtpSyncMiss s
  | .ptpAnnounceTimeout => Sys2Proof.Machine.execPtpAnnounceTimeout s
  | .gnssTimeInvalid => Sys2Proof.Machine.execGnssTimeInvalid s
  | .gnssSurveyDone => Sys2Proof.Machine.execGnssSurveyDone s
  | .refFreqResult r m => Sys2Proof.Machine.execRefFreqResult r m s
  | .disagreeCleared => Sys2Proof.Machine.execDisagreeCleared s
  | .refQualified r => Sys2Proof.Machine.execRefQualified r s
  | .wtrEnd r => Sys2Proof.Machine.execWtrEnd r s
  | .switchCommit => Sys2Proof.Machine.execSwitchCommit s
  | .antOpen => Sys2Proof.Machine.execAntOpen s
  | .antShort => Sys2Proof.Machine.execAntShort s
  | .antFeedRetry feed => Sys2Proof.Machine.execAntFeedRetry feed s
  | .warmSet => Sys2Proof.Machine.execWarmSet s
  | .warmCleared => Sys2Proof.Machine.execWarmCleared s
  | .holdoverSample => Sys2Proof.Machine.execHoldoverSample s
  | .ageingRefit => Sys2Proof.Machine.execAgeingRefit s
  | .outputEdge n => Sys2Proof.Machine.execOutputEdge n s
  | .outputMonitor n e => Sys2Proof.Machine.execOutputMonitor n e s
  | .outShort n => Sys2Proof.Machine.execOutShort n s
  | .outShortRetry n still => Sys2Proof.Machine.execOutShortRetry n still s
  | .outOpen x => Sys2Proof.Machine.execOutOpen x s
  | .outCfgApply n => Sys2Proof.Machine.execOutCfgApply n s
  | .joinGo k => Sys2Proof.Machine.execJoinGo k s
  | .joinForward p gs => Sys2Proof.Machine.execJoinForward p gs s
  | .joinAtMill p gs => Sys2Proof.Machine.execJoinAtMill p gs s
  | .joinAtApex p gs => Sys2Proof.Machine.execJoinAtApex p gs s
  | .routeUpdate p gs => Sys2Proof.Machine.execRouteUpdate p gs s
  | .routeUpdateAck g => Sys2Proof.Machine.execRouteUpdateAck g s
  | .routeUpdateResend tag => Sys2Proof.Machine.execRouteUpdateResend tag s
  | .routeUnreachable tag rank => Sys2Proof.Machine.execRouteUnreachable tag rank s
  | .joinAck a g => Sys2Proof.Machine.execJoinAck a g s
  | .withdrawNotice g => Sys2Proof.Machine.execWithdrawNotice g s
  | .formTimeout tag => Sys2Proof.Machine.execFormTimeout tag s
  | .arrive k pay freq => Sys2Proof.Machine.execArrive k pay freq s
  | .arrivalToken p g => Sys2Proof.Machine.execArrivalToken p g s
  | .arrivalPayload p gs => Sys2Proof.Machine.execArrivalPayload p gs s
  | .levelCutoff tag n => Sys2Proof.Machine.execLevelCutoff tag n s
  | .partialReceived p sender gs => Sys2Proof.Machine.execPartialReceived p sender gs s
  | .partialTimeout tag n sender => Sys2Proof.Machine.execPartialTimeout tag n sender s
  | .decisionTime tag n => Sys2Proof.Machine.execDecisionTime tag n s
  | .unheardTimeout tag rank => Sys2Proof.Machine.execUnheardTimeout tag rank s
  | .generationThreshed tag n => Sys2Proof.Machine.execGenerationThreshed tag n s
  | .launchWord a g => Sys2Proof.Machine.execLaunchWord a g s
  | .launchFire k gen => Sys2Proof.Machine.execLaunchFire k gen s
  | .failureWord a g => Sys2Proof.Machine.execFailureWord a g s
  | .launchMissed k gen => Sys2Proof.Machine.execLaunchMissed k gen s
  | .resultGranule v => Sys2Proof.Machine.execResultGranule v s
  | .resultMissing k gen => Sys2Proof.Machine.execResultMissing k gen s
  | .fenceNotice g => Sys2Proof.Machine.execFenceNotice g s
  | .suspendTimeout v => Sys2Proof.Machine.execSuspendTimeout v s
  | .autoJoin k d => Sys2Proof.Machine.execAutoJoin k d s
  | .reformNotice a g => Sys2Proof.Machine.execReformNotice a g s
  | .park k => Sys2Proof.Machine.execPark k s
  | .parkNotice g => Sys2Proof.Machine.execParkNotice g s
  | .unpark k => Sys2Proof.Machine.execUnpark k s
  | .unparkNotice g => Sys2Proof.Machine.execUnparkNotice g s
  | .leave v => Sys2Proof.Machine.execLeave v s
  | .sheafClosed v => Sys2Proof.Machine.execSheafClosed v s
  | .outlierNote g => Sys2Proof.Machine.execOutlierNote g s
  | .taskComplete t ok => Sys2Proof.Machine.execTaskComplete t ok s
  | .thresherSteal t => Sys2Proof.Machine.execThresherSteal t s
  | .starvePromote => Sys2Proof.Machine.execStarvePromote s
  | .loadWindow => Sys2Proof.Machine.execLoadWindow s
  | .idleSelftest kind ix pass => Sys2Proof.Machine.execIdleSelftest kind ix pass s
  | .saturationEnter => Sys2Proof.Machine.execSaturationEnter s
  | .saturationExit => Sys2Proof.Machine.execSaturationExit s
  | .clusterLost k => Sys2Proof.Machine.execClusterLost k s
  | .captureDescriptor h g => Sys2Proof.Machine.execCaptureDescriptor h g s
  | .captureDataBeat h g nbytes eop => Sys2Proof.Machine.execCaptureDataBeat h g nbytes eop s
  | .captureIdleTimeout h => Sys2Proof.Machine.execCaptureIdleTimeout h s
  | .captureOpenPacket p o0 o1 => Sys2Proof.Machine.execCaptureOpenPacket p o0 o1 s
  | .captureDataPacket p d0 gs => Sys2Proof.Machine.execCaptureDataPacket p d0 gs s
  | .captureClosePacket p c0 c1 => Sys2Proof.Machine.execCaptureClosePacket p c0 c1 s
  | .captureCloseTimeout p k seq => Sys2Proof.Machine.execCaptureCloseTimeout p k seq s
  | .ledgerRoot => Sys2Proof.Machine.execLedgerRoot s
  | .retentionCheck => Sys2Proof.Machine.execRetentionCheck s
  | .siloMode d g => Sys2Proof.Machine.execSiloMode d g s
  | .regionMigrationDone n => Sys2Proof.Machine.execRegionMigrationDone n s
  | .stackLost k => Sys2Proof.Machine.execStackLost k s
  | .replayRecord d r => Sys2Proof.Machine.execReplayRecord d r s
  | .replayFetch p g => Sys2Proof.Machine.execReplayFetch p g s
  | .replayFetchTimeout => Sys2Proof.Machine.execReplayFetchTimeout s
  | .replayEnd v => Sys2Proof.Machine.execReplayEnd v s
  | .compareFind g d => Sys2Proof.Machine.execCompareFind g d s
  | .gleanerPassStart v => Sys2Proof.Machine.execGleanerPassStart v s
  | .gleanerGranule v => Sys2Proof.Machine.execGleanerGranule v s
  | .bucketLeak u => Sys2Proof.Machine.execBucketLeak u s
  | .memberFingerprint p g => Sys2Proof.Machine.execMemberFingerprint p g s
  | .runFingerprint gs => Sys2Proof.Machine.execRunFingerprint gs s
  | .hostFpWrite dum w => Sys2Proof.Machine.execHostFpWrite dum w s
  | .mismatchClassify k gen => Sys2Proof.Machine.execMismatchClassify k gen s
  | .mismatchNotice g => Sys2Proof.Machine.execMismatchNotice g s
  | .pathSweepDone tag failed => Sys2Proof.Machine.execPathSweepDone tag failed s
  | .historyDecay u n => Sys2Proof.Machine.execHistoryDecay u n s
  | .testRequest v id serial pack reps fence bytes => Sys2Proof.Machine.execTestRequest v id serial pack reps fence bytes s
  | .testBusyTimeout => Sys2Proof.Machine.execTestBusyTimeout s
  | .testDigest g => Sys2Proof.Machine.execTestDigest g s
  | .testItemTimeout => Sys2Proof.Machine.execTestItemTimeout s
  | .testAbort => Sys2Proof.Machine.execTestAbort s
  | .testNoResult id => Sys2Proof.Machine.execTestNoResult id s
  | .testEngineNotReady => Sys2Proof.Machine.execTestEngineNotReady s
  | .testPeriod packs => Sys2Proof.Machine.execTestPeriod packs s
  | .heartbeat => Sys2Proof.Machine.execHeartbeat s
  | .hbTimeoutWrite v => Sys2Proof.Machine.execHbTimeoutWrite v s
  | .heartbeatExpire => Sys2Proof.Machine.execHeartbeatExpire s
  | .hostReset => Sys2Proof.Machine.execHostReset s
  | .fencePin => Sys2Proof.Machine.execFencePin s
  | .fenceDrained => Sys2Proof.Machine.execFenceDrained s
  | .unfence => Sys2Proof.Machine.execUnfence s
  | .leafReset => Sys2Proof.Machine.execLeafReset s
  | .resetRelease ws => Sys2Proof.Machine.execResetRelease ws s
  | .imageAccepted u => Sys2Proof.Machine.execImageAccepted u s
  | .selftestDone u r => Sys2Proof.Machine.execSelftestDone u r s
  | .restoreDone u => Sys2Proof.Machine.execRestoreDone u s
  | .cfgLock => Sys2Proof.Machine.execCfgLock s
  | .userBlockSave u hourly => Sys2Proof.Machine.execUserBlockSave u hourly s
  | .inject place id kind arg arg2 dur count force safe => Sys2Proof.Machine.execInject place id kind arg arg2 dur count force safe s
  | .injectCancel place id target => Sys2Proof.Machine.execInjectCancel place id target s
  | .injectEnd id => Sys2Proof.Machine.execInjectEnd id s
  | .marginReportSend u os => Sys2Proof.Machine.execMarginReportSend u os s
  | .marginReport p g => Sys2Proof.Machine.execMarginReport p g s
  | .forecastEval => Sys2Proof.Machine.execForecastEval s
  | .forecast d g => Sys2Proof.Machine.execForecast d g s
  | .lidOpen => Sys2Proof.Machine.execLidOpen s
  | .meshFault => Sys2Proof.Machine.execMeshFault s
  | .voltGlitch u => Sys2Proof.Machine.execVoltGlitch u s
  | .clockGlitch u => Sys2Proof.Machine.execClockGlitch u s
  | .tempViolation u => Sys2Proof.Machine.execTempViolation u s
  | .hostAlarm => Sys2Proof.Machine.execHostAlarm s
  | .fuseBlowDone u ok => Sys2Proof.Machine.execFuseBlowDone u ok s
  | .debugUnlockRequest v id serial => Sys2Proof.Machine.execDebugUnlockRequest v id serial s
  | .debugUnlockResponse v id serial dur sig => Sys2Proof.Machine.execDebugUnlockResponse v id serial dur sig s
  | .debugLock v id serial => Sys2Proof.Machine.execDebugLock v id serial s
  | .debugExpiry u => Sys2Proof.Machine.execDebugExpiry u s
  | .challengeExpiry u => Sys2Proof.Machine.execChallengeExpiry u s
  | .alarmClear v id serial sig => Sys2Proof.Machine.execAlarmClear v id serial sig s
  | .keyRotate place id body => Sys2Proof.Machine.execKeyRotate place id body s
  | .registerWrite wr addr w poison => Sys2Proof.Machine.execRegisterWrite wr addr w poison s
  | .histSelWrite n => Sys2Proof.Machine.execHistSelWrite n s
  | .triggerWrite k off w => Sys2Proof.Machine.execTriggerWrite k off w s
  | .triggerEdge k => Sys2Proof.Machine.execTriggerEdge k s
  | .triggerPulseEnd k => Sys2Proof.Machine.execTriggerPulseEnd k s
  | .capPopRead => Sys2Proof.Machine.execCapPopRead s
  | .sumRequest => Sys2Proof.Machine.execSumRequest s
  | .summaryReady => Sys2Proof.Machine.execSummaryReady s
  | .resSelWrite k w => Sys2Proof.Machine.execResSelWrite k w s
  | .intFifoRead => Sys2Proof.Machine.execIntFifoRead s
  | .flashRead => Sys2Proof.Machine.execFlashRead s
  | .flashProgram => Sys2Proof.Machine.execFlashProgram s
  | .flashTrimAdd => Sys2Proof.Machine.execFlashTrimAdd s
  | .flashStageDone => Sys2Proof.Machine.execFlashStageDone s
  | .flashDone => Sys2Proof.Machine.execFlashDone s
  | .sessionOpen ok addr => Sys2Proof.Machine.execSessionOpen ok addr s
  | .sessionIdleTimeout place => Sys2Proof.Machine.execSessionIdleTimeout place s
  | .summary v id serial => Sys2Proof.Machine.execSummary v id serial s
  | .summaryPage1 place id seq => Sys2Proof.Machine.execSummaryPage1 place id seq s
  | .regRead place id off n => Sys2Proof.Machine.execRegRead place id off n s
  | .regWrite place id off v mask => Sys2Proof.Machine.execRegWrite place id off v mask s
  | .phaseStep place id utc delta at_ => Sys2Proof.Machine.execPhaseStep place id utc delta at_ s
  | .timePass place id utc delta at_ count => Sys2Proof.Machine.execTimePass place id utc delta at_ count s
  | .fence v id serial => Sys2Proof.Machine.execFence v id serial s
  | .fenceRelease v id serial => Sys2Proof.Machine.execFenceRelease v id serial s
  | .close place id tag known => Sys2Proof.Machine.execClose place id tag known s
  | .forceArrive place id tag rank n there => Sys2Proof.Machine.execForceArrive place id tag rank n there s
  | .forceRelease place id tag n there => Sys2Proof.Machine.execForceRelease place id tag n there s
  | .restoreFactoryArm v id serial => Sys2Proof.Machine.execRestoreFactoryArm v id serial s
  | .restoreFactoryConfirm v id serial code force => Sys2Proof.Machine.execRestoreFactoryConfirm v id serial code force s
  | .armExpiry u => Sys2Proof.Machine.execArmExpiry u s
  | .imageWrite place id off last data => Sys2Proof.Machine.execImageWrite place id off last data s
  | .calWrite place id body => Sys2Proof.Machine.execCalWrite place id body s
  | .restart place id force safe => Sys2Proof.Machine.execRestart place id force safe s
  | .restartWaitEnd => Sys2Proof.Machine.execRestartWaitEnd s
  | .packLoad place id off total last data => Sys2Proof.Machine.execPackLoad place id off total last data s
  | .replay place id body => Sys2Proof.Machine.execReplay place id body s
  | .historyRead v id serial first count => Sys2Proof.Machine.execHistoryRead v id serial first count s
  | .historyClear v id serial path => Sys2Proof.Machine.execHistoryClear v id serial path s
  | .logRead place id area tag first limit => Sys2Proof.Machine.execLogRead place id area tag first limit s
  | .telemetry place target id stream first => Sys2Proof.Machine.execTelemetry place target id stream first s
  | .telemetryStop place target id => Sys2Proof.Machine.execTelemetryStop place target id s
  | .telemetryTick => Sys2Proof.Machine.execTelemetryTick s
  | .moduleStatus place id => Sys2Proof.Machine.execModuleStatus place id s
  | .cardConfig place id addr digest => Sys2Proof.Machine.execCardConfig place id addr digest s
  | .mgmtRelay v => Sys2Proof.Machine.execMgmtRelay v s
  | .mgmtAnswer gs => Sys2Proof.Machine.execMgmtAnswer gs s
  | .leafNoAnswer id => Sys2Proof.Machine.execLeafNoAnswer id s
  | .feedUsable f => Sys2Proof.Machine.execFeedUsable f s
  | .feedUndervolt f => Sys2Proof.Machine.execFeedUndervolt f s
  | .feedOvervolt f => Sys2Proof.Machine.execFeedOvervolt f s
  | .feedReversed f => Sys2Proof.Machine.execFeedReversed f s
  | .feedAbsent f => Sys2Proof.Machine.execFeedAbsent f s
  | .powerWarn => Sys2Proof.Machine.execPowerWarn s
  | .busCollapse => Sys2Proof.Machine.execBusCollapse s
  | .sledSoftStartDone k => Sys2Proof.Machine.execSledSoftStartDone k s
  | .sledSoftStartTimeout k => Sys2Proof.Machine.execSledSoftStartTimeout k s
  | .sledOvercurrent k => Sys2Proof.Machine.execSledOvercurrent k s
  | .sledTripRetry k => Sys2Proof.Machine.execSledTripRetry k s
  | .sledInserted k board => Sys2Proof.Machine.execSledInserted k board s
  | .sledRemoved k => Sys2Proof.Machine.execSledRemoved k s
  | .brickInserted k => Sys2Proof.Machine.execBrickInserted k s
  | .brickRemoved k => Sys2Proof.Machine.execBrickRemoved k s
  | .fanInserted k => Sys2Proof.Machine.execFanInserted k s
  | .fanRemoved k => Sys2Proof.Machine.execFanRemoved k s
  | .cardInserted selftestOk => Sys2Proof.Machine.execCardInserted selftestOk s
  | .cardRemoved => Sys2Proof.Machine.execCardRemoved s
  | .pmbusPoll r => Sys2Proof.Machine.execPmbusPoll r s
  | .fanDemand k pct => Sys2Proof.Machine.execFanDemand k pct s
  | .fanNoDemand k => Sys2Proof.Machine.execFanNoDemand k s
  | .thermalWarn k => Sys2Proof.Machine.execThermalWarn k s
  | .thermalShutdown k => Sys2Proof.Machine.execThermalShutdown k s
  | .thermalRestored k => Sys2Proof.Machine.execThermalRestored k s
  | .sledLidUnpowered k mesh => Sys2Proof.Machine.execSledLidUnpowered k mesh s
  | .hubRefClockFail => Sys2Proof.Machine.execHubRefClockFail s
  | .sensorUpdate u n temp mv vmin => Sys2Proof.Machine.execSensorUpdate u n temp mv vmin s
  | .sensorStale u n => Sys2Proof.Machine.execSensorStale u n s
  | .followerConfirm id => Sys2Proof.Machine.execFollowerConfirm id s
  | .holdoverUpdate => Sys2Proof.Machine.execHoldoverUpdate s
  | .regionEdge n x => Sys2Proof.Machine.execRegionEdge n x s
  | .forgetPair tag digest => Sys2Proof.Machine.execForgetPair tag digest s
  | .fenceInputDeasserted reset => Sys2Proof.Machine.execFenceInputDeasserted reset s
  | .engineVectorTest a pass => Sys2Proof.Machine.execEngineVectorTest a pass s
  | .sessionClosed place => Sys2Proof.Machine.execSessionClosed place s
  | .badCommand place target cmd id => Sys2Proof.Machine.execBadCommand place target cmd id s

end Sys2Proof.Machine
end

