-- ==== Sys2Proof/WellFormed.lean ====
section
/-! DEFINITION. Well-formed commands: every operand that numbers a thing numbers one that exists (assumption 2). -/
namespace Sys2Proof
open Sys2Proof.Machine

/-- Is a command well-formed? -/
def Instr.wf (i : Instr) : Bool :=
  match i with
  | .lightDetected a lane _ => atOk a && decide (lane < 2)
  | .trainFrame a own _ _ => atOk a && decide (own < 2)
  | .laneStuck a k => atOk a && decide (k < 4)
  | .ident a _ => atOk a
  | .ancestry a _ => atOk a
  | .linkParams a _ => atOk a
  | .trainingTimeout a => atOk a
  | .trainingNoLight a => atOk a
  | .trainingRetry a => atOk a
  | .duplicateOrder _ => true
  | .lossOfSignal a _ => atOk a
  | .missingSlots a => atOk a
  | .frameLockLost a => atOk a
  | .dataFrameReceived a _ => atOk a
  | .ackNak a _ => atOk a
  | .ackNakSend a => atOk a
  | .nakRepeat a => atOk a
  | .beatSend a => atOk a
  | .beatReceived a _ _ _ => atOk a
  | .blockRelease a => atOk a
  | .gearAdvance a => atOk a
  | .switchRule4 => true
  | .timeInfo a _ => atOk a
  | .stepNotice a _ => atOk a
  | .stepInstant _ => true
  | .slewEnd _ => true
  | .utcStepApply _ => true
  | .timeSaturated _ => true
  | .timeSnapLoRead k => decide (k < 4)
  | .strictReport p _ => decide (p < 272)
  | .turnSched a _ => atOk a
  | .turnSlotDue p => decide (p < 272)
  | .turnSlotForced p => decide (p < 272)
  | .echoReturned a _ => atOk a
  | .echoNotReturned a => atOk a
  | .calResult a _ => atOk a
  | .keyNonce a _ => atOk a
  | .keyWrapLo a _ => atOk a
  | .keyWrapHi a _ => atOk a
  | .keyConfirm a _ => atOk a
  | .keyConfirmTimeout a => atOk a
  | .keySwitch a _ => atOk a
  | .noKeys a => atOk a
  | .rekeyDue p => decide (p < 272)
  | .rekeyRetry p => decide (p < 272)
  | .tapTimePairSend n => decide (n < 64)
  | .tapTimeReload n _ _ => decide (n < 64)
  | .tapFireWord n _ => decide (n < 64)
  | .tapFire n _ => decide (n < 64)
  | .firedReport n _ => decide (n < 64)
  | .tapStepWord n _ _ => decide (n < 64)
  | .tapStepApply n => decide (n < 64)
  | .tapCfgAccess n _ _ _ => decide (n < 64)
  | .tapDelayMeasure n _ => decide (n < 64)
  | .tapFault n => decide (n < 64)
  | .regionClockStopped n => decide (n < 64)
  | .lbArrive n k _ => decide (n < 64) && decide (k < 4)
  | .lbReleaseTap n k => decide (n < 64) && decide (k < 4)
  | .localGenTimeout k => decide (k < 4)
  | .phaseStart n => decide (n < 64)
  | .phaseDone n m _ _ => decide (n < 64 ∧ m < 64)
  | .replicaSample n _ _ => decide (n < 64)
  | .tdcStartEdge u n _ => tdcOk u n
  | .tdcStopEdge u n _ => tdcOk u n
  | .tdcCoarseOverflow u n => tdcOk u n
  | .tdcLockAcquired u n _ => tdcOk u n
  | .tdcLockLost u n _ => tdcOk u n
  | .tdcLockTimeout u n => tdcOk u n
  | .tdcLoopRangeCheck u n _ => tdcOk u n
  | .tdcHistogramDone u n _ _ => tdcOk u n
  | .captureEdge k e more => ((k, e) :: more).all (fun x => decide (x.1 < 8))
  | .timeLineSend _ => true
  | .timeLineReceived p _ => decide (p < 272)
  | .timeLineCombine => true
  | .millSettleWait => true
  | .leadLost => true
  | .followerConfirmTimeout _ => true
  | .stepRelayCheck => true
  | .stepRelay p _ => decide (p < 272)
  | .refPulse r _ => decide (r < 4)
  | .refWindowMiss r => decide (r < 4)
  | .refEdgeMiss r => decide (r < 4)
  | .ptpSyncMiss => true
  | .ptpAnnounceTimeout => true
  | .gnssTimeInvalid => true
  | .gnssSurveyDone => true
  | .refFreqResult r _ => decide (r < 6)
  | .disagreeCleared => true
  | .refQualified r => decide (r < 4)
  | .wtrEnd r => decide (r < 4)
  | .switchCommit => true
  | .antOpen => true
  | .antShort => true
  | .antFeedRetry _ => true
  | .warmSet => true
  | .warmCleared => true
  | .holdoverSample => true
  | .ageingRefit => true
  | .outputEdge n => decide (n < 16)
  | .outputMonitor n _ => decide (n < 16)
  | .outShort n => decide (n < 16)
  | .outShortRetry n _ => decide (n < 16)
  | .outOpen x => decide (x.n < 16)
  | .outCfgApply n => decide (n < 16)
  | .joinGo k => decide (k < 32)
  | .joinForward p _ => decide (p < 272)
  | .joinAtMill p _ => decide (p < 272)
  | .joinAtApex p _ => decide (p < 272)
  | .routeUpdate p _ => decide (p < 272)
  | .routeUpdateAck _ => true
  | .routeUpdateResend _ => true
  | .routeUnreachable _ _ => true
  | .joinAck a _ => atOk a
  | .withdrawNotice _ => true
  | .formTimeout _ => true
  | .arrive k _ _ => decide (k < 32)
  | .arrivalToken p _ => decide (p < 272)
  | .arrivalPayload p _ => decide (p < 272)
  | .levelCutoff _ _ => true
  | .partialReceived p _ _ => decide (p < 272)
  | .partialTimeout _ _ _ => true
  | .decisionTime _ _ => true
  | .unheardTimeout _ _ => true
  | .generationThreshed _ _ => true
  | .launchWord a _ => atOk a
  | .launchFire k _ => decide (k < 32)
  | .failureWord a _ => atOk a
  | .launchMissed k _ => decide (k < 32)
  | .resultGranule v => resultOk v
  | .resultMissing k _ => decide (k < 32)
  | .fenceNotice _ => true
  | .suspendTimeout v => sheafAtOk v
  | .autoJoin k d => decide (k < 32) && decide (d < 2)
  | .reformNotice a _ => atOk a
  | .park k => decide (k < 32)
  | .parkNotice _ => true
  | .unpark k => decide (k < 32)
  | .unparkNotice _ => true
  | .leave v => leaveOk v
  | .sheafClosed v => closedOk v
  | .outlierNote _ => true
  | .taskComplete t _ => decide (t < 64)
  | .thresherSteal t => decide (t < 64)
  | .starvePromote => true
  | .loadWindow => true
  | .idleSelftest kind ix _ => selfTestOk kind ix
  | .saturationEnter => true
  | .saturationExit => true
  | .clusterLost k => decide (k < 4)
  | .captureDescriptor h _ => decide (h < 16)
  | .captureDataBeat h _ _ _ => decide (h < 16)
  | .captureIdleTimeout h => decide (h < 16)
  | .captureOpenPacket p _ _ => decide (p < 272)
  | .captureDataPacket p _ _ => decide (p < 272)
  | .captureClosePacket p _ _ => decide (p < 272)
  | .captureCloseTimeout p _ _ => decide (p < 272)
  | .ledgerRoot => true
  | .retentionCheck => true
  | .siloMode d _ => decide (d < 2)
  | .regionMigrationDone n => decide (n < 3072)
  | .stackLost k => decide (k < 16)
  | .replayRecord d _ => decide (d < 2)
  | .replayFetch p _ => decide (p < 272)
  | .replayFetchTimeout => true
  | .replayEnd v => endOk v
  | .compareFind _ _ => true
  | .gleanerPassStart v => gleanOk v
  | .gleanerGranule v => gleanReadOk v
  | .bucketLeak _ => true
  | .memberFingerprint p _ => decide (p < 272)
  | .runFingerprint _ => true
  | .hostFpWrite _ _ => true
  | .mismatchClassify k _ => decide (k < 32)
  | .mismatchNotice _ => true
  | .pathSweepDone _ _ => true
  | .historyDecay _ _ => true
  | .testRequest v _ _ _ _ _ _ => viaOk v
  | .testBusyTimeout => true
  | .testDigest _ => true
  | .testItemTimeout => true
  | .testAbort => true
  | .testNoResult _ => true
  | .testEngineNotReady => true
  | .testPeriod _ => true
  | .heartbeat => true
  | .hbTimeoutWrite _ => true
  | .heartbeatExpire => true
  | .hostReset => true
  | .fencePin => true
  | .fenceDrained => true
  | .unfence => true
  | .leafReset => true
  | .resetRelease _ => true
  | .imageAccepted _ => true
  | .selftestDone _ _ => true
  | .restoreDone _ => true
  | .cfgLock => true
  | .userBlockSave _ _ => true
  | .inject _ _ _ _ _ _ _ _ _ => true
  | .injectCancel _ _ _ => true
  | .injectEnd _ => true
  | .marginReportSend _ _ => true
  | .marginReport p _ => decide (p < 272)
  | .forecastEval => true
  | .forecast d _ => decide (d < 2)
  | .lidOpen => true
  | .meshFault => true
  | .voltGlitch _ => true
  | .clockGlitch _ => true
  | .tempViolation _ => true
  | .hostAlarm => true
  | .fuseBlowDone _ _ => true
  | .debugUnlockRequest v _ _ => askerOk v
  | .debugUnlockResponse v _ _ _ _ => askerOk v
  | .debugLock v _ _ => askerOk v
  | .debugExpiry _ => true
  | .challengeExpiry _ => true
  | .alarmClear v _ _ _ => viaOk v
  | .keyRotate _ _ _ => true
  | .registerWrite _ _ _ _ => true
  | .histSelWrite _ => true
  | .triggerWrite k _ _ => decide (k < 8)
  | .triggerEdge k => decide (k < 8)
  | .triggerPulseEnd k => decide (k < 8)
  | .capPopRead => true
  | .sumRequest => true
  | .summaryReady => true
  | .resSelWrite k _ => decide (k < 8)
  | .intFifoRead => true
  | .flashRead => true
  | .flashProgram => true
  | .flashTrimAdd => true
  | .flashStageDone => true
  | .flashDone => true
  | .sessionOpen _ _ => true
  | .sessionIdleTimeout _ => true
  | .summary v _ _ => viaOk v
  | .summaryPage1 _ _ _ => true
  | .regRead _ _ _ _ => true
  | .regWrite _ _ _ _ _ => true
  | .phaseStep _ _ _ _ _ => true
  | .timePass _ _ _ _ _ _ => true
  | .fence v _ _ => viaOk v
  | .fenceRelease v _ _ => viaOk v
  | .close _ _ _ _ => true
  | .forceArrive _ _ _ _ _ _ => true
  | .forceRelease _ _ _ _ _ => true
  | .restoreFactoryArm v _ _ => askerOk v
  | .restoreFactoryConfirm v _ _ _ _ => askerOk v
  | .armExpiry _ => true
  | .imageWrite _ _ _ _ _ => true
  | .calWrite _ _ _ => true
  | .restart _ _ _ _ => true
  | .restartWaitEnd => true
  | .packLoad _ _ _ _ _ _ => true
  | .replay _ _ _ => true
  | .historyRead v _ _ _ _ => viaOk v
  | .historyClear v _ _ _ => viaOk v
  | .logRead _ _ _ _ _ _ => true
  | .telemetry _ _ _ _ _ => true
  | .telemetryStop _ _ _ => true
  | .telemetryTick => true
  | .moduleStatus _ _ => true
  | .cardConfig _ _ _ _ => true
  | .mgmtRelay v => relayOk v
  | .mgmtAnswer _ => true
  | .leafNoAnswer _ => true
  | .feedUsable f => decide (f < 2)
  | .feedUndervolt f => decide (f < 2)
  | .feedOvervolt f => decide (f < 2)
  | .feedReversed f => decide (f < 2)
  | .feedAbsent f => decide (f < 2)
  | .powerWarn => true
  | .busCollapse => true
  | .sledSoftStartDone k => decide (k < 2)
  | .sledSoftStartTimeout k => decide (k < 2)
  | .sledOvercurrent k => decide (k < 2)
  | .sledTripRetry k => decide (k < 2)
  | .sledInserted k _ => decide (k < 2)
  | .sledRemoved k => decide (k < 2)
  | .brickInserted k => decide (k < 2)
  | .brickRemoved k => decide (k < 2)
  | .fanInserted k => decide (k < 4)
  | .fanRemoved k => decide (k < 4)
  | .cardInserted _ => true
  | .cardRemoved => true
  | .pmbusPoll _ => true
  | .fanDemand k _ => decide (k < 2)
  | .fanNoDemand k => decide (k < 4)
  | .thermalWarn k => decide (k < 2)
  | .thermalShutdown k => decide (k < 2)
  | .thermalRestored k => decide (k < 2)
  | .sledLidUnpowered k _ => decide (k < 2)
  | .hubRefClockFail => true
  | .sensorUpdate _ n _ _ _ => decide (n < 4)
  | .sensorStale _ n => decide (n < 4)
  | .followerConfirm _ => true
  | .holdoverUpdate => true
  | .regionEdge n _ => decide (n < 64)
  | .forgetPair _ _ => true
  | .fenceInputDeasserted _ => true
  | .engineVectorTest a _ => atOk a
  | .sessionClosed _ => true
  | .badCommand _ _ _ _ => true

end Sys2Proof
end

