-- ==== Sys2Proof/Safety.lean ====
section
/-! DEFINITION. What a run keeps: the supply of a module's sleds is as its protections allow (R547, R550, R553, R557), the card's sessions are
within their number (R526), and the queue holds commands that are well-formed. -/
namespace Sys2Proof.Machine

/-- The supply of one sled: what is supplied, or soft-starting, sits in its bay with the bus standing and no protection holding it off; a
second trip, and nothing else, is what holds it off as tripped; what heat holds off is present and not tripped. -/
def Sled.ok (busOn : Bool) (x : Sled) : Bool :=
  (!(x.powered || x.starting) || (x.present && busOn && !x.efuseOff && !x.thermalOff)) && !(x.powered && x.starting) &&
  (x.efuseOff == decide (2 ≤ x.trips)) && (!x.thermalOff || (x.present && !x.efuseOff))
/-- Both sleds' supply. -/
def Module.supplyOk (m : Module) : Bool := Sled.ok m.busOn (sledAt m 0) && Sled.ok m.busOn (sledAt m 1)
/-- The module's tables are in their canonical form. -/
def Module.tablesWf (m : Module) : Bool :=
  tabWf {} m.feeds && tabWf {} m.bricks && tabWf {} m.fans && tabWf {} m.sleds && tabWf 0#64 m.words && tabWf none m.cool
/-- The card's sessions (R526): at most eight, in places of their own below eight. -/
def Card.sessionsOk (c : Card) : Bool :=
  decide (c.sessions.length ≤ 8) && decide ((c.sessions.map Session.place).Nodup) && (c.sessions.map Session.place).all (fun p => decide (p < 8))
/-- What every step keeps. -/
def State.Inv (s : State) : Prop :=
  s.box.mod.tablesWf = true ∧ s.box.mod.supplyOk = true ∧ s.box.mod.card.sessionsOk = true
/-! ### What a command leaves alone -/
end Sys2Proof.Machine
namespace Sys2Proof
/-- The rows that act on the module or its card themselves: sessions, what the card answers, and the module's power, cooling and service. -/
def Instr.atModule (i : Instr) : Bool :=
  match i with
  | .sessionOpen _ _ => true
  | .sessionIdleTimeout _ => true
  | .telemetry _ _ _ _ _ => true
  | .telemetryStop _ _ _ => true
  | .telemetryTick => true
  | .moduleStatus _ _ => true
  | .cardConfig _ _ _ _ => true
  | .feedUsable _ => true
  | .feedUndervolt _ => true
  | .feedOvervolt _ => true
  | .feedReversed _ => true
  | .feedAbsent _ => true
  | .powerWarn => true
  | .busCollapse => true
  | .sledSoftStartDone _ => true
  | .sledSoftStartTimeout _ => true
  | .sledOvercurrent _ => true
  | .sledTripRetry _ => true
  | .sledInserted _ _ => true
  | .sledRemoved _ => true
  | .brickInserted _ => true
  | .brickRemoved _ => true
  | .fanInserted _ => true
  | .fanRemoved _ => true
  | .cardInserted _ => true
  | .cardRemoved => true
  | .pmbusPoll _ => true
  | .fanDemand _ _ => true
  | .fanNoDemand _ => true
  | .thermalWarn _ => true
  | .thermalShutdown _ => true
  | .thermalRestored _ => true
  | .sledLidUnpowered _ _ => true
  | .sessionClosed _ => true
  | .badCommand _ _ _ _ => true
  | _ => false
/-- The rows that a leaf held in reset sees: reset and clock events (R435, R567, R568), and the levels of the two fence inputs (R428). -/
def Instr.heldLeafSees (i : Instr) : Bool :=
  match i with
  | .leafReset => true
  | .resetRelease _ => true
  | .hubRefClockFail => true
  | .hostReset => true
  | .fencePin => true
  | .fenceInputDeasserted _ => true
  | _ => false

end Sys2Proof
namespace Sys2Proof.Machine

/-- The leaf is the same but for its interrupt registers: all that raising an event there changes (R523). -/
def Leaf.raised (l m : Leaf) : Prop := { m with ints := l.ints } = l
/-- The channel is the same but for its telemetry, its granary, the reports it holds for the first valid time, and the model's own counter of free
values: all that raising an event or writing a record changes there (R342, R413, R538). -/
def Chan.raised (c d : Chan) : Prop := { d with tele := c.tele, gran := c.gran, unstamped := c.unstamped, free := c.free } = c
/-- The state with another leaf, and with another module. -/
def State.withLeaf (s : State) (l : Leaf) : State := { s with leaf := l }
def State.withBox (s : State) (b : Box) : State := { s with box := b }
/-- Only the leaf may differ. -/
def State.leafOnly (s t : State) : Prop := t.box = s.box ∧ t.pending = s.pending
/-- Only the module, its channel and its card may differ. -/
def State.boxOnly (s t : State) : Prop := t.leaf = s.leaf ∧ t.pending = s.pending
/-- The module is the same but for its card and since when a sled held off by heat has been cool (R553). -/
def Module.carded (m n : Module) : Prop := { n with card := m.card, cool := m.cool } = m
/-- Only the channel, the card that takes its answers and telemetry, and since when a hot sled is cool, may differ. -/
def State.chanOnly (s t : State) : Prop := s.boxOnly t ∧ s.box.mod.carded t.box.mod
/-- A command f at the channel led from s to t: the channel as f makes it, then used-up injections ended, condemned units out of service and the
threshers' queues judged (R286, R417, R439), and what the follower is sent taken up by the card (R537); nothing else differs but the card. -/
def State.chanTook (f : Chan → Chan) (s t : State) : Prop :=
  s.chanOnly t ∧ t.box.chan = { chanSettled (f s.box.chan) with passQ := [] }
/-- The channel answers, and nothing waits to be settled there: its sled is supplied, no injection's count is used up, and its history condemns
no unit. -/
def State.chanReady (s : State) : Prop :=
  chanPowered s.box.mod = true ∧ (s.box.chan.inj.all (fun i => decide (i.left ≠ some 0))) = true ∧ disabledUnits s.box.chan.history = []

/-- Session p may ask the channel: its sled is supplied, the card is in its slot with the session open, and fewer than 16 requests of it wait
(R526). -/
def State.canAsk (p : Nat) (s : State) : Prop :=
  chanPowered s.box.mod = true ∧ s.box.mod.card.present = true ∧ (sessionAt s.box.mod.card p).isSome ∧ sessionFull p s.box.mod.card = false
/-- A message that P holds of has gone out on session p. -/
def State.sent (p : Nat) (P : MgmtMsg → Prop) (t : State) : Prop := ∃ x ∈ t.box.mod.card.sessions, x.place = p ∧ ∃ m ∈ x.out, P m
/-- A request of session p with ID id was answered by r: at once with a status, or from the answer held, if that one's command has ended
(R528). -/
def State.answered (p cmd id : Nat) (r : Reply) (t : State) : Prop :=
  match r with
  | .now st => t.sent p (fun m => m.kind = 1 ∧ m.target = 0 ∧ m.cmd = cmd ∧ m.id = id ∧ m.status = st)
  | .held again => ∀ a, t.box.chan.answers.find? (fun a => decide (a.id = id) && !a.running) = some a → t.sent p (fun m => m = answerMsg 0 again a)
/-- A request led from s to t: the channel as `run` makes it, and the session answered. -/
def State.asked (p cmd id : Nat) (run : Chan → Chan × Reply) (s t : State) : Prop :=
  s.chanTook (fun c => (run c).1) t ∧ t.answered p cmd id (run s.box.chan).2

/-- A safe queue: every command that waits is well-formed. -/
def State.queueWf (s : State) : Bool := s.pending.all Instr.wf

end Sys2Proof.Machine
end

