-- ==== Sys2Proof/Certificates/Slice0/Obligations.lean ====
section
/-! DEFINITION. The statements for the provers. -/

open Sys2Proof Sys2Proof.Machine

/-! ### Running a command -/

/-- A step runs the command in front, with the rest waiting. -/
def Obligations.StepRunsFront : Prop :=
  ∀ (c : Instr) (s : State), step { s with pending := c :: s.pending } = exec c s

/-- The queue is first in, first out: a step takes the command in front and leaves the others waiting, in their order; on an empty queue it
stays empty (the model's own queue, assumption 1). -/
def Obligations.QueueFirstInFirstOut : Prop := ∀ s t : State, step s = .next t → t.pending = s.pending.tail

/-- On an empty queue a step is one edge of the time clock at each unit that runs (the model's choice, assumption 10). -/
def Obligations.IdleStepIsOneEdge : Prop := ∀ s : State, s.pending = [] → step s = .next (tick s)

/-- A command faults exactly when an operand numbers a thing that does not exist (the model's own range checks, assumption 2), and none is
refused. -/
def Obligations.FaultsOnlyWhenIllFormed : Prop :=
  ∀ (i : Instr) (s : State), ((∃ f, exec i s = .fault f) ↔ i.wf = false) ∧ ∀ r, exec i s ≠ .refused r

/-- A leaf held in reset, or without its clock, answers nothing and changes nothing, until a reset or clock event (R435, R567, R568), but that it takes
the levels of the two fence inputs (R428). -/
def Obligations.HeldLeafUnchanged : Prop :=
  ∀ s t : State, leafRuns s.leaf = false → (∀ i ∈ s.pending.head?, i.heldLeafSees = false) → step s = .next t → t.leaf = s.leaf

/-- A channel whose sled is not supplied holds its state through every command but those of the module itself; only what was on its way to the
follower's card may be dropped. -/
def Obligations.UnpoweredChannelHolds : Prop :=
  ∀ s t : State, chanPowered s.box.mod = false → (∀ i ∈ s.pending.head?, i.atModule = false) → step s = .next t →
    { t.box.chan with passQ := s.box.chan.passQ } = s.box.chan

/-- No command reaches both units: it leaves the leaf as it is, or the module with its channel and card. -/
def Obligations.OneUnitPerCommand : Prop := ∀ (i : Instr) (s t : State), exec i s = .next t → s.leafOnly t ∨ s.boxOnly t

/-- Feeds, bricks, fan trays, sleds, the bus and the module's counters change only by the module's own rows, and when the channel's image ends
(R452, R559); every other command leaves all of the module but the card, since when a sled held off by heat is cool (R553), and, where the channel
restarts, the point at which its clock began again (the model's own clock, assumption 50). -/
def Obligations.ModuleChangedOnlyByItsRows : Prop :=
  ∀ (i : Instr) (s t : State), i.atModule = false → i ≠ .imageAccepted .chan → exec i s = .next t →
    { t.box.mod with card := s.box.mod.card, cool := s.box.mod.cool, past := s.box.mod.past } = s.box.mod ∧
    (i ≠ .restartWaitEnd → t.box.mod.past = s.box.mod.past)

/-! ### What every step keeps -/

/-- Every step keeps: at each sled, what is supplied or starting sits in its bay with the bus standing and no protection holding it off, a second
trip and nothing else holds it off as tripped, and heat only a sled that is present and not tripped (R547, R550, R553, R557); the module's tables
stay in their canonical form; and the card's sessions are at most eight, in places of their own (R526). -/
def Obligations.InvKept : Prop :=
  ∀ s t : State, s.Inv → step s = .next t → t.Inv

/-- The state after reset meets what every step keeps. -/
def Obligations.InvAtReset : Prop :=
  State.reset.Inv

/-! ### Completion, family by family -/

/-- Completion of the rows of the link layer: light and training, loss of a link, frames, acknowledgements, beats, turns and calibration. Each runs
at the leaf wherever it is out of reset with its clock running, at the channel wherever its sled is supplied (and, for its links, it is out of
QUARANTINE), for every operand that numbers an existing thing, and its next state is that of its own effect: a row at the leaf changes the leaf
alone; one at the channel, the channel as its meaning says, with used-up injections, condemned units and full queues settled after it, and the card that takes
its answers. -/
def Obligations.LinkRows : Prop :=
  ∀ s : State,
  (leafRuns s.leaf = true →
    (∀ (d lane power : Nat), d < 2 → lane < 2 → exec (.lightDetected (.leaf d) lane power) s = .next (s.withLeaf (leafLight d lane power
      s.leaf))) ∧
    (∀ (d own : Nat) (g : Gran) (testsDone : Bool), d < 2 → own < 2 → exec (.trainFrame (.leaf d) own g testsDone) s = .next (s.withLeaf
      (leafPortDo d (portTrainFrame false d own g testsDone) s.leaf))) ∧
    (∀ (d k : Nat), d < 2 → k < 4 → exec (.laneStuck (.leaf d) k) s = .next (s.withLeaf (leafPortDo d (portStuck d k) s.leaf))) ∧
    (∀ (d : Nat) (g : Gran), d < 2 → exec (.ident (.leaf d) g) s = .next (s.withLeaf (leafIdent d g s.leaf))) ∧
    (∀ (d : Nat) (g : Gran), d < 2 → exec (.ancestry (.leaf d) g) s = .next (s.withLeaf (leafAncestry d g s.leaf))) ∧
    (∀ (d : Nat) (g : Gran), d < 2 → exec (.linkParams (.leaf d) g) s = .next (s.withLeaf (leafPortDo d (fun p => (linkParams g p, []))
      s.leaf))) ∧
    (∀ (d : Nat), d < 2 → exec (.trainingTimeout (.leaf d)) s = .next (s.withLeaf (leafRetrainRow d .training s.leaf))) ∧
    (∀ (d : Nat), d < 2 → exec (.trainingNoLight (.leaf d)) s = .next (s.withLeaf (leafNoLightRow d s.leaf))) ∧
    (∀ (d : Nat), d < 2 → exec (.trainingRetry (.leaf d)) s = .next (s.withLeaf (leafRetrainRow d .faulted s.leaf))) ∧
    (∀ (d : Nat) (fibreB : Bool), d < 2 → exec (.lossOfSignal (.leaf d) fibreB) s = .next (s.withLeaf (leafPortDo d (fun p => (portLos
      (upperEnd (.leaf d) d) fibreB p, [])) s.leaf))) ∧
    (∀ (d : Nat), d < 2 → exec (.missingSlots (.leaf d)) s = .next (s.withLeaf (leafPortDo d (portMissing d) s.leaf))) ∧
    (∀ (d : Nat), d < 2 → exec (.frameLockLost (.leaf d)) s = .next (s.withLeaf (leafPortDo d (portLockLost d) s.leaf))) ∧
    (∀ (d : Nat) (line : BitVec 320), d < 2 → exec (.dataFrameReceived (.leaf d) line) s = .next (s.withLeaf (leafFrame d line s.leaf))) ∧
    (∀ (d : Nat) (g : Gran), d < 2 → exec (.ackNak (.leaf d) g) s = .next (s.withLeaf (leafPortDo d (fun p => (ackNakIn g p, [])) s.leaf))) ∧
    (∀ (d : Nat), d < 2 → exec (.ackNakSend (.leaf d)) s = .next (s.withLeaf (leafPortDo d (fun p => (portAck p, [])) s.leaf))) ∧
    (∀ (d : Nat), d < 2 → exec (.nakRepeat (.leaf d)) s = .next (s.withLeaf (leafNakRow d s.leaf))) ∧
    (∀ (d : Nat), d < 2 → exec (.beatSend (.leaf d)) s = .next (s.withLeaf (leafBeatRow d s.leaf))) ∧
    (∀ (d : Nat) (g : Gran) (ok : Bool) (e : EdgeIn), d < 2 → exec (.beatReceived (.leaf d) g ok e) s = .next (s.withLeaf (leafBeatIn d g ok e
      (leafTicks e.after s.leaf)))) ∧
    (∀ (d : Nat), d < 2 → exec (.blockRelease (.leaf d)) s = .next (s.withLeaf (leafReleaseRow d s.leaf))) ∧
    (∀ (d : Nat) (g : Gran), d < 2 → exec (.turnSched (.leaf d) g) s = .next (s.withLeaf (leafPortDo d (fun p => (turnSched g p, []))
      s.leaf))) ∧
    (∀ (d : Nat) (e : EdgeIn), d < 2 → exec (.echoReturned (.leaf d) e) s = .next (s.withLeaf (leafEcho d e (leafTicks e.after s.leaf)))) ∧
    (∀ (d : Nat), d < 2 → exec (.echoNotReturned (.leaf d)) s = .next (s.withLeaf (leafPortDo d (fun p => echoMissed d (lowTimesA p.mode) p)
      s.leaf))) ∧
    (∀ (d : Nat) (g : Gran), d < 2 → exec (.calResult (.leaf d) g) s = .next (s.withLeaf (leafCalResult d g s.leaf)))) ∧
  (chanPowered s.box.mod = true → s.box.chan.start.phase ≠ 4 →
    (∀ (p lane power : Nat), p < 272 → lane < 2 → ∃ s', exec (.lightDetected (.chan p) lane power) s = .next s' ∧ s.chanTook (chanLight p lane
      power) s') ∧
    (∀ (p own : Nat) (g : Gran) (testsDone : Bool), p < 272 → own < 2 → ∃ s', exec (.trainFrame (.chan p) own g testsDone) s = .next s' ∧
      s.chanTook (chanTrainFrame p own g testsDone) s') ∧
    (∀ (p k : Nat), p < 272 → k < 4 → ∃ s', exec (.laneStuck (.chan p) k) s = .next s' ∧ s.chanTook (chanPortDo p (portStuck p k)) s') ∧
    (∀ (p : Nat) (g : Gran), p < 272 → ∃ s', exec (.ident (.chan p) g) s = .next s' ∧ s.chanTook (chanIdentRow p g) s') ∧
    (∀ (p : Nat) (g : Gran), p < 272 → ∃ s', exec (.ancestry (.chan p) g) s = .next s' ∧ s.chanTook (chanAncestry p g) s') ∧
    (∀ (p : Nat) (g : Gran), p < 272 → ∃ s', exec (.linkParams (.chan p) g) s = .next s' ∧ s.chanTook (chanPortDo p (fun q => (linkParams g q,
      []))) s') ∧
    (∀ (p : Nat), p < 272 → ∃ s', exec (.trainingTimeout (.chan p)) s = .next s' ∧ s.chanTook (chanRetrainRow p .training) s') ∧
    (∀ (p : Nat), p < 272 → ∃ s', exec (.trainingNoLight (.chan p)) s = .next s' ∧ s.chanTook (chanNoLightRow p) s') ∧
    (∀ (p : Nat), p < 272 → ∃ s', exec (.trainingRetry (.chan p)) s = .next s' ∧ s.chanTook (chanRetrainRow p .faulted) s') ∧
    (∀ (g : Gran), ∃ s', exec (.duplicateOrder g) s = .next s' ∧ s.chanTook (chanDuplicate g) s') ∧
    (∀ (p : Nat) (fibreB : Bool), p < 272 → ∃ s', exec (.lossOfSignal (.chan p) fibreB) s = .next s' ∧ s.chanTook (chanPortDo p (fun q =>
      (portLos (upperEnd (.chan p) p) fibreB q, []))) s') ∧
    (∀ (p : Nat), p < 272 → ∃ s', exec (.missingSlots (.chan p)) s = .next s' ∧ s.chanTook (chanPortDo p (portMissing p)) s') ∧
    (∀ (p : Nat), p < 272 → ∃ s', exec (.frameLockLost (.chan p)) s = .next s' ∧ s.chanTook (chanPortDo p (portLockLost p)) s') ∧
    (∀ (p : Nat) (line : BitVec 320), p < 272 → ∃ s', exec (.dataFrameReceived (.chan p) line) s = .next s' ∧ s.chanTook (chanFrameRow p line)
      s') ∧
    (∀ (p : Nat) (g : Gran), p < 272 → ∃ s', exec (.ackNak (.chan p) g) s = .next s' ∧ s.chanTook (chanPortDo p (fun q => (ackNakIn g q, [])))
      s') ∧
    (∀ (p : Nat), p < 272 → ∃ s', exec (.ackNakSend (.chan p)) s = .next s' ∧ s.chanTook (chanPortDo p (fun q => (portAck q, []))) s') ∧
    (∀ (p : Nat), p < 272 → ∃ s', exec (.nakRepeat (.chan p)) s = .next s' ∧ s.chanTook (chanNakRow p) s') ∧
    (∀ (p : Nat), p < 272 → ∃ s', exec (.beatSend (.chan p)) s = .next s' ∧ s.chanTook (chanBeatRow p) s') ∧
    (∀ (p : Nat) (g : Gran) (ok : Bool) (e : EdgeIn), p < 272 → ∃ s', exec (.beatReceived (.chan p) g ok e) s = .next s' ∧ s.chanTook (fun c
      => chanBeatIn p g ok e (chanEdges e.after c)) s') ∧
    (∀ (p : Nat), p < 272 → ∃ s', exec (.blockRelease (.chan p)) s = .next s' ∧ s.chanTook (chanRelease p) s') ∧
    (∀ (p : Nat) (g : Gran), p < 272 → ∃ s', exec (.turnSched (.chan p) g) s = .next s' ∧ s.chanTook (chanPortDo p (fun q => (turnSched g q,
      []))) s') ∧
    (∀ (p : Nat), p < 272 → ∃ s', exec (.turnSlotDue p) s = .next s' ∧ s.chanTook (chanSlotRow p) s') ∧
    (∀ (p : Nat), p < 272 → ∃ s', exec (.turnSlotForced p) s = .next s' ∧ s.chanTook (chanForceRow p) s') ∧
    (∀ (p : Nat) (e : EdgeIn), p < 272 → ∃ s', exec (.echoReturned (.chan p) e) s = .next s' ∧ s.chanTook (fun c => chanEcho p e (chanEdges
      e.after c)) s') ∧
    (∀ (p : Nat), p < 272 → ∃ s', exec (.echoNotReturned (.chan p)) s = .next s' ∧ s.chanTook (chanEchoMissed p) s') ∧
    (∀ (p : Nat) (g : Gran), p < 272 → ∃ s', exec (.calResult (.chan p) g) s = .next s' ∧ s.chanTook (chanCalResult p g) s'))

/-- Completion of the rows of the key exchange. Each runs at the leaf wherever it is out of reset with its clock running, at the channel wherever
its sled is supplied (and, for its links, it is out of QUARANTINE), for every operand that numbers an existing thing, and its next state is that of
its own effect: a row at the leaf changes the leaf alone; one at the channel, the channel as its meaning says, with used-up injections, condemned
units and full queues settled after it, and the card that takes its answers. -/
def Obligations.KeyRows : Prop :=
  ∀ s : State,
  (leafRuns s.leaf = true →
    (∀ (d : Nat) (g : Gran), d < 2 → exec (.keyNonce (.leaf d) g) s = .next (s.withLeaf (leafKeyNonce d g s.leaf))) ∧
    (∀ (d : Nat) (g : Gran), d < 2 → exec (.keyWrapLo (.leaf d) g) s = .next (s.withLeaf (leafPortDo d (fun p => (keyWrapLo g p, []))
      s.leaf))) ∧
    (∀ (d : Nat) (g : Gran), d < 2 → exec (.keyWrapHi (.leaf d) g) s = .next (s.withLeaf (leafPortDo d (fun q => (keyWrapHi (leafKeyCtx s.leaf
      d) g q, [])) s.leaf))) ∧
    (∀ (d : Nat) (g : Gran), d < 2 → exec (.keyConfirm (.leaf d) g) s = .next (s.withLeaf (leafPortDo d (fun q => (keyConfirm (leafKeyCtx
      s.leaf d) g q, [])) s.leaf))) ∧
    (∀ (d : Nat), d < 2 → exec (.keyConfirmTimeout (.leaf d)) s = .next (s.withLeaf (s.leaf))) ∧
    (∀ (d : Nat) (g : Gran), d < 2 → exec (.keySwitch (.leaf d) g) s = .next (s.withLeaf (leafPortDo d (fun p => (keySwitch g p, []))
      s.leaf))) ∧
    (∀ (d : Nat), d < 2 → exec (.noKeys (.leaf d)) s = .next (s.withLeaf (leafPortDo d (fun q => noKeys d (leafKeyCtx s.leaf d) q) s.leaf)))) ∧
  (chanPowered s.box.mod = true → s.box.chan.start.phase ≠ 4 →
    (∀ (p : Nat) (g : Gran), p < 272 → ∃ s', exec (.keyNonce (.chan p) g) s = .next s' ∧ s.chanTook (chanKeyNonce p g) s') ∧
    (∀ (p : Nat) (g : Gran), p < 272 → ∃ s', exec (.keyWrapLo (.chan p) g) s = .next s' ∧ s.chanTook (chanPortDo p (fun q => (keyWrapLo g q,
      []))) s') ∧
    (∀ (p : Nat) (g : Gran), p < 272 → ∃ s', exec (.keyWrapHi (.chan p) g) s = .next s' ∧ s.chanTook (fun c => chanPortDo p (fun q =>
      (keyWrapHi (chanKeyCtx c p) g q, [])) c) s') ∧
    (∀ (p : Nat) (g : Gran), p < 272 → ∃ s', exec (.keyConfirm (.chan p) g) s = .next s' ∧ s.chanTook (fun c => chanPortDo p (fun q =>
      (keyConfirm (chanKeyCtx c p) g q, [])) c) s') ∧
    (∀ (p : Nat), p < 272 → ∃ s', exec (.keyConfirmTimeout (.chan p)) s = .next s' ∧ s.chanTook (chanConfirmRow p) s') ∧
    (∀ (p : Nat) (g : Gran), p < 272 → ∃ s', exec (.keySwitch (.chan p) g) s = .next s' ∧ s.chanTook (chanPortDo p (fun q => (keySwitch g q,
      []))) s') ∧
    (∀ (p : Nat), p < 272 → ∃ s', exec (.noKeys (.chan p)) s = .next s' ∧ s.chanTook (fun c => chanPortDo p (fun q => noKeys p (chanKeyCtx c
      p) q) c) s') ∧
    (∀ (p : Nat), p < 272 → ∃ s', exec (.rekeyDue p) s = .next s' ∧ s.chanTook (chanRekeyRow p) s') ∧
    (∀ (p : Nat), p < 272 → ∃ s', exec (.rekeyRetry p) s = .next s' ∧ s.chanTook (chanRekeyAgain p) s'))

/-- Completion of the rows of time distribution, slews and steps, and the model of the domain it follows. Each runs at the leaf wherever it is out
of reset with its clock running, at the channel wherever its sled is supplied (and, for its links, it is out of QUARANTINE), for every operand that
numbers an existing thing, and its next state is that of its own effect: a row at the leaf changes the leaf alone; one at the channel, the channel
as its meaning says, with used-up injections, condemned units and full queues settled after it, and the card that takes its answers. -/
def Obligations.TimeRows : Prop :=
  ∀ s : State,
  (leafRuns s.leaf = true →
    (∀ (d : Nat), d < 2 → exec (.gearAdvance (.leaf d)) s = .next (s.withLeaf (leafGearRow d s.leaf))) ∧
    exec (.switchRule4) s = .next (s.withLeaf (leafRule4Row s.leaf)) ∧
    (∀ (d : Nat) (g : Gran), d < 2 → exec (.timeInfo (.leaf d) g) s = .next (s.withLeaf (leafTimeInfo d g s.leaf))) ∧
    (∀ (d : Nat) (g : Gran), d < 2 → exec (.stepNotice (.leaf d) g) s = .next (s.withLeaf (leafNotice s.leaf (noticeOf d g)))) ∧
    exec (.stepInstant .leaf) s = .next (s.withLeaf (leafStepRow s.leaf)) ∧
    exec (.slewEnd .leaf) s = .next (s.withLeaf (leafSlewRow s.leaf)) ∧
    exec (.utcStepApply .leaf) s = .next (s.withLeaf (leafUtcRow s.leaf)) ∧
    exec (.timeSaturated .leaf) s = .next (s.withLeaf (leafSatRow s.leaf)) ∧
    (∀ (k : Nat), k < 4 → exec (.timeSnapLoRead k) s = .next (s.withLeaf (snapRead s.leaf k))) ∧
    exec (.timeLineSend .leaf) s = .next (s.withLeaf (leafLineRow s.leaf)) ∧
    exec (.stepRelayCheck) s = .next (s.withLeaf (leafRelayRow s.leaf))) ∧
  (chanPowered s.box.mod = true →
    (∃ s', exec (.stepInstant .chan) s = .next s' ∧ s.chanTook chanStepRow s') ∧
    (∃ s', exec (.slewEnd .chan) s = .next s' ∧ s.chanTook chanSlewRow s') ∧
    (∃ s', exec (.utcStepApply .chan) s = .next s' ∧ s.chanTook chanUtcRow s') ∧
    (∃ s', exec (.timeSaturated .chan) s = .next s' ∧ s.chanTook chanSatRow s') ∧
    (∃ s', exec (.millSettleWait) s = .next s' ∧ s.chanTook (chanClkAt settleDue settleWait) s') ∧
    (∃ s', exec (.leadLost) s = .next s' ∧ s.chanTook (chanClkAt leadDue leadLost) s') ∧
    (∀ (id : Nat), ∃ s', exec (.followerConfirmTimeout id) s = .next s' ∧ s.chanTook (chanUnconfirmed id) s') ∧
    (∀ (id : Nat), ∃ s', exec (.followerConfirm id) s = .next s' ∧ s.chanTook (fun c => if followerKnown s.box.mod then chanConfirmed id c
      else c) s')) ∧
  (chanPowered s.box.mod = true → s.box.chan.start.phase ≠ 4 →
    (∀ (p : Nat), p < 272 → ∃ s', exec (.gearAdvance (.chan p)) s = .next s' ∧ s.chanTook chanGearRow s') ∧
    (∀ (p : Nat) (g : Gran), p < 272 → ∃ s', exec (.timeInfo (.chan p) g) s = .next s' ∧ s.chanTook (chanTimeInfo g) s') ∧
    (∀ (p : Nat) (g : Gran), p < 272 → ∃ s', exec (.stepNotice (.chan p) g) s = .next s' ∧ s.chanTook (fun c => chanNotice c.clk.domain g c)
      s') ∧
    (∀ (p : Nat) (g : Gran), p < 272 → ∃ s', exec (.strictReport p g) s = .next s' ∧ s.chanTook (chanStrict p g) s') ∧
    (∃ s', exec (.timeLineSend .chan) s = .next s' ∧ s.chanTook chanLineRow s') ∧
    (∀ (p : Nat) (g : Gran), p < 272 → ∃ s', exec (.timeLineReceived p g) s = .next s' ∧ s.chanTook (chanClk (lineIn p g)) s') ∧
    (∃ s', exec (.timeLineCombine) s = .next s' ∧ s.chanTook chanCombineRow s') ∧
    (∀ (p : Nat) (g : Gran), p < 272 → ∃ s', exec (.stepRelay p g) s = .next s' ∧ s.chanTook (chanRelay p g) s'))

/-- Completion of the rows of the tap clocks: registers, frequency requests and commits, launches and regions. Each runs at the leaf wherever it is
out of reset with its clock running, for every operand that numbers an existing thing, and its next state is that of its own effect: a row at the
leaf changes the leaf alone. -/
def Obligations.TapRows : Prop :=
  ∀ s : State,
  (leafRuns s.leaf = true →
    (∀ (n : Nat), n < 64 → exec (.tapTimePairSend n) s = .next (s.withLeaf (hubPair n s.leaf))) ∧
    (∀ (n : Nat) (wa wb : Word), n < 64 → exec (.tapTimeReload n wa wb) s = .next (s.withLeaf (onTap n (tapReload s.leaf.time.edges wa wb)
      s.leaf))) ∧
    (∀ (n : Nat) (w : Word), n < 64 → exec (.tapFireWord n w) s = .next (s.withLeaf (onTap n (tapFireWord s.leaf.time.edges w) s.leaf))) ∧
    (∀ (n : Nat) (x : RegionIn), n < 64 → exec (.tapFire n x) s = .next (s.withLeaf (leafTapFire n x.sample (leafTicks x.after s.leaf)))) ∧
    (∀ (n : Nat) (w : Word), n < 64 → exec (.firedReport n w) s = .next (s.withLeaf (onTapEv n .fireLate (hubFired w) s.leaf))) ∧
    (∀ (n : Nat) (wa wb : Word), n < 64 → exec (.tapStepWord n wa wb) s = .next (s.withLeaf (onTap n (tapStepWord s.leaf.time.edges wa wb)
      s.leaf))) ∧
    (∀ (n : Nat), n < 64 → exec (.tapStepApply n) s = .next (s.withLeaf (leafTapStepRow n s.leaf))) ∧
    (∀ (n off : Nat) (wr : Bool) (w : Word), n < 64 → exec (.tapCfgAccess n off wr w) s = .next (s.withLeaf (tapAccess n off wr w s.leaf))) ∧
    (∀ (n roundTrip : Nat), n < 64 → exec (.tapDelayMeasure n roundTrip) s = .next (s.withLeaf (onTapEv n .tapDelayJump (tapDelay roundTrip)
      s.leaf))) ∧
    (∀ (n : Nat), n < 64 → exec (.tapFault n) s = .next (s.withLeaf (leafTapFault n s.leaf))) ∧
    (∀ (n : Nat), n < 64 → exec (.regionClockStopped n) s = .next (s.withLeaf (leafStopRow n s.leaf))) ∧
    (∀ (n k : Nat) (flag : Bool), n < 64 → k < 4 → exec (.lbArrive n k flag) s = .next (s.withLeaf (localArrive n k flag s.leaf))) ∧
    (∀ (n k : Nat), n < 64 → k < 4 → exec (.lbReleaseTap n k) s = .next (s.withLeaf (onTap n (tapRelease k) s.leaf))) ∧
    (∀ (k : Nat), k < 4 → exec (.localGenTimeout k) s = .next (s.withLeaf (leafLocalTimeout k s.leaf))) ∧
    (∀ (n : Nat), n < 64 → exec (.phaseStart n) s = .next (s.withLeaf (onTap n (fun t => if t.present then phaseStart t else t) s.leaf))) ∧
    (∀ (n m after sample : Nat), n < 64 ∧ m < 64 → exec (.phaseDone n m after sample) s = .next (s.withLeaf (leafPhaseDone n (leafEdge m
      sample (leafTicks after s.leaf))))) ∧
    (∀ (n after slack : Nat), n < 64 → exec (.replicaSample n after slack) s = .next (s.withLeaf (leafReplica n slack (leafTicks after
      s.leaf)))) ∧
    (∀ (n : Nat) (x : RegionIn), n < 64 → exec (.regionEdge n x) s = .next (s.withLeaf (leafEdge n x.sample (leafTicks x.after s.leaf)))))

/-- Completion of the rows of edge measurement and its calibration. Each runs at the leaf wherever it is out of reset with its clock running, at the
channel wherever its sled is supplied, for every operand that numbers an existing thing, and its next state is that of its own effect: a row at the
leaf changes the leaf alone; one at the channel, the channel as its meaning says, with used-up injections, condemned units and full queues settled after it, and
the card that takes its answers. -/
def Obligations.TdcRows : Prop :=
  ∀ s : State,
  (leafRuns s.leaf = true →
    (∀ (n : Nat) (e : EdgeIn), n < 4 → exec (.tdcStartEdge .leaf n e) s = .next (s.withLeaf (setLeafTdc (leafTicks e.after s.leaf) n (tdcStart
      (leafTicks e.after s.leaf).time e (leafTdc (leafTicks e.after s.leaf) n))))) ∧
    (∀ (n : Nat) (e : EdgeIn), n < 4 → exec (.tdcStopEdge .leaf n e) s = .next (s.withLeaf (setLeafTdc (leafTicks e.after s.leaf) n (tdcStop n
      (leafTicks e.after s.leaf).time e (leafTdc (leafTicks e.after s.leaf) n))))) ∧
    (∀ (n : Nat), n < 4 → exec (.tdcCoarseOverflow .leaf n) s = .next (s.withLeaf (leafOverRow n s.leaf))) ∧
    (∀ (n : Nat) (start : Bool), n < 4 → exec (.tdcLockAcquired .leaf n start) s = .next (s.withLeaf (setLeafTdc s.leaf n (tdcLock start
      (leafTdc s.leaf n))))) ∧
    (∀ (n : Nat) (start : Bool), n < 4 → exec (.tdcLockLost .leaf n start) s = .next (s.withLeaf (leafTdcLost n start s.leaf))) ∧
    (∀ (n : Nat), n < 4 → exec (.tdcLockTimeout .leaf n) s = .next (s.withLeaf (leafLockRow n s.leaf))) ∧
    (∀ (n : Nat) (v : LoopVal), n < 4 → exec (.tdcLoopRangeCheck .leaf n v) s = .next (s.withLeaf (setLeafTdc s.leaf n (tdcRange v.start
      v.value (leafTdc s.leaf n))))) ∧
    (∀ (n : Nat) (start : Bool) (hist : List Nat), n < 4 → exec (.tdcHistogramDone .leaf n start hist) s = .next (s.withLeaf (leafHistogram n
      start hist s.leaf))) ∧
    (∀ (k : Nat) (e : EdgeIn) (more : List (Nat × EdgeIn)), ((k, e) :: more).all (fun x => decide (x.1 < 8)) = true → exec (.captureEdge k e
      more) s = .next (s.withLeaf (leafCaptureEdge ((k, e) :: more) (leafTicks e.after s.leaf))))) ∧
  (chanPowered s.box.mod = true →
    (∀ (n : Nat) (e : EdgeIn), n < 64 → ∃ s', exec (.tdcStartEdge .chan n e) s = .next s' ∧ s.chanTook (fun c => setChanTdc (chanEdges e.after
      c) n (tdcStart (chanEdges e.after c).clk.time e (chanTdc (chanEdges e.after c) n))) s') ∧
    (∀ (n : Nat) (e : EdgeIn), n < 64 → ∃ s', exec (.tdcStopEdge .chan n e) s = .next s' ∧ s.chanTook (fun c => setChanTdc (chanEdges e.after
      c) n (tdcStop n (chanEdges e.after c).clk.time e (chanTdc (chanEdges e.after c) n))) s') ∧
    (∀ (n : Nat), n < 64 → ∃ s', exec (.tdcCoarseOverflow .chan n) s = .next s' ∧ s.chanTook (chanOverRow n) s') ∧
    (∀ (n : Nat) (start : Bool), n < 64 → ∃ s', exec (.tdcLockAcquired .chan n start) s = .next s' ∧ s.chanTook (fun c => setChanTdc c n
      (tdcLock start (chanTdc c n))) s') ∧
    (∀ (n : Nat) (start : Bool), n < 64 → ∃ s', exec (.tdcLockLost .chan n start) s = .next s' ∧ s.chanTook (chanTdcLost n start) s') ∧
    (∀ (n : Nat), n < 64 → ∃ s', exec (.tdcLockTimeout .chan n) s = .next s' ∧ s.chanTook (chanLockRow n) s') ∧
    (∀ (n : Nat) (v : LoopVal), n < 64 → ∃ s', exec (.tdcLoopRangeCheck .chan n v) s = .next s' ∧ s.chanTook (fun c => setChanTdc c n
      (tdcRange v.start v.value (chanTdc c n))) s') ∧
    (∀ (n : Nat) (start : Bool) (hist : List Nat), n < 64 → ∃ s', exec (.tdcHistogramDone .chan n start hist) s = .next s' ∧ s.chanTook
      (chanHistogram n start hist) s'))

/-- Completion of the rows of the references: measurement, selection, loss, holdover, and the outputs. Each runs at the channel wherever its sled is
supplied, for every operand that numbers an existing thing, and its next state is that of its own effect: one at the channel, the channel as its
meaning says, with used-up injections, condemned units and full queues settled after it, and the card that takes its answers. -/
def Obligations.ReferenceRows : Prop :=
  ∀ s : State,
  (chanPowered s.box.mod = true →
    (∀ (r : Nat) (x : RefIn), r < 4 → ∃ s', exec (.refPulse r x) s = .next s' ∧ s.chanTook (fun c => if refAway s.box.mod r (chanEdges x.after
      c) then (chanEdges x.after c) else chanRefIn r x (chanEdges x.after c)) s') ∧
    (∀ (r : Nat), r < 4 → ∃ s', exec (.refWindowMiss r) s = .next s' ∧ s.chanTook (chanClkAt (fun c => windowDue c r) (refWindowMiss r)) s') ∧
    (∀ (r : Nat), r < 4 → ∃ s', exec (.refEdgeMiss r) s = .next s' ∧ s.chanTook (chanClkAt (fun c => edgeDue c r) (refEdgeMiss r)) s') ∧
    (∃ s', exec (.ptpSyncMiss) s = .next s' ∧ s.chanTook (chanClkAt syncMissDue ptpSyncMiss) s') ∧
    (∃ s', exec (.ptpAnnounceTimeout) s = .next s' ∧ s.chanTook (chanClkAt announceLostDue ptpAnnounceTimeout) s') ∧
    (∃ s', exec (.gnssTimeInvalid) s = .next s' ∧ s.chanTook (chanClkAt gnssDue gnssInvalid) s') ∧
    (∃ s', exec (.gnssSurveyDone) s = .next s' ∧ s.chanTook (chanClkAt surveyDue (fun c => coIs (gnssSurveyDone c))) s') ∧
    (∀ (r : Nat) (m : Int), r < 6 → ∃ s', exec (.refFreqResult r m) s = .next s' ∧ s.chanTook (fun c => if refAway s.box.mod (r % 4) c then c
      else chanFreqIn r m c) s') ∧
    (∃ s', exec (.disagreeCleared) s = .next s' ∧ s.chanTook (chanClkAt (fun c => (agreeDue c).map Prod.snd) disagreeClear) s') ∧
    (∀ (r : Nat), r < 4 → ∃ s', exec (.refQualified r) s = .next s' ∧ s.chanTook (fun c => if refAway s.box.mod r c then c else chanClkAt (fun
      c => qualDue c r) (refQualified r) c) s') ∧
    (∀ (r : Nat), r < 4 → ∃ s', exec (.wtrEnd r) s = .next s' ∧ s.chanTook (chanClkAt (fun c => if wtrActive c r then some (wtrDue c r) else
      none) wtrEnd) s') ∧
    (∃ s', exec (.switchCommit) s = .next s' ∧ s.chanTook (chanClkAt commitDue switchCommit) s') ∧
    (∃ s', exec (.antOpen) s = .next s' ∧ s.chanTook (chanClk antOpen) s') ∧
    (∃ s', exec (.antShort) s = .next s' ∧ s.chanTook (chanClk antShort) s') ∧
    (∀ (feed : Nat), ∃ s', exec (.antFeedRetry feed) s = .next s' ∧ s.chanTook (chanClkAt feedDue (fun c => coIs (antRetry feed c))) s') ∧
    (∃ s', exec (.warmSet) s = .next s' ∧ s.chanTook (chanClk (setWarm true)) s') ∧
    (∃ s', exec (.warmCleared) s = .next s' ∧ s.chanTook (chanClk (setWarm false)) s') ∧
    (∃ s', exec (.holdoverSample) s = .next s' ∧ s.chanTook chanSampleRow s') ∧
    (∃ s', exec (.ageingRefit) s = .next s' ∧ s.chanTook chanRefitRow s') ∧
    (∀ (n : Nat), n < 16 → ∃ s', exec (.outputEdge n) s = .next s' ∧ s.chanTook (chanOutRow n) s') ∧
    (∀ (n : Nat) (e : EdgeIn), n < 16 → ∃ s', exec (.outputMonitor n e) s = .next s' ∧ s.chanTook (fun c => chanClk (outMonitor n e)
      (chanEdges e.after c)) s') ∧
    (∀ (n : Nat), n < 16 → ∃ s', exec (.outShort n) s = .next s' ∧ s.chanTook (chanClk (outShort n)) s') ∧
    (∀ (n : Nat) (still : Bool), n < 16 → ∃ s', exec (.outShortRetry n still) s = .next s' ∧ s.chanTook (chanClkAt (fun c => shortDue c n)
      (outShortRetry n still)) s') ∧
    (∀ (x : OutSwing), x.n < 16 → ∃ s', exec (.outOpen x) s = .next s' ∧ s.chanTook (chanClk (outOpen x.n x.high)) s') ∧
    (∀ (n : Nat), n < 16 → ∃ s', exec (.outCfgApply n) s = .next s' ∧ s.chanTook (chanApplyRow n) s') ∧
    (∃ s', exec (.holdoverUpdate) s = .next s' ∧ s.chanTook (chanClkIs holdUpdate) s'))

/-- Completion of the rows of sheaves: joins, forming, leaving, suspension, resumption and parting. Each runs at the leaf wherever it is out of
reset with its clock running, at the channel wherever its sled is supplied (and, for its links, it is out of QUARANTINE), for every operand that
numbers an existing thing, and its next state is that of its own effect: a row at the leaf changes the leaf alone; one at the channel, the channel
as its meaning says, with used-up injections, condemned units and full queues settled after it, and the card that takes its answers. -/
def Obligations.JoinRows : Prop :=
  ∀ s : State,
  (leafRuns s.leaf = true →
    (∀ (k : Nat), k < 32 → exec (.joinGo k) s = .next (s.withLeaf (leafJoinGo k s.leaf))) ∧
    (∀ (d : Nat) (g : Gran), d < 2 → exec (.joinAck (.leaf d) g) s = .next (s.withLeaf (leafJoinAck d g s.leaf))) ∧
    (∀ (k : Nat), k < 32 → exec (.suspendTimeout (.hub k)) s = .next (s.withLeaf (leafLocalSuspendTimeout k s.leaf))) ∧
    (∀ (k d : Nat), k < 32 → d < 2 → exec (.autoJoin k d) s = .next (s.withLeaf (leafAutoJoin k d s.leaf))) ∧
    (∀ (d : Nat) (g : Gran), d < 2 → exec (.reformNotice (.leaf d) g) s = .next (s.withLeaf (leafReform d g s.leaf))) ∧
    (∀ (k : Nat), k < 32 → exec (.park k) s = .next (s.withLeaf (leafPark k s.leaf))) ∧
    (∀ (k : Nat), k < 32 → exec (.unpark k) s = .next (s.withLeaf (leafUnpark k s.leaf))) ∧
    (∀ (k : Nat), k < 32 → exec (.leave (.leaf k)) s = .next (s.withLeaf (leafLeave k s.leaf))) ∧
    (∀ (d k tag cause : Nat), d < 2 → k < 32 → exec (.sheafClosed (.leaf d k tag cause)) s = .next (s.withLeaf (leafSheafClosed d k tag cause
      s.leaf)))) ∧
  (chanPowered s.box.mod = true → s.box.chan.start.phase ≠ 4 →
    (∀ (p : Nat) (gs : List Granule), p < 272 → ∃ s', exec (.joinForward p gs) s = .next s' ∧ s.chanTook (joinForward p gs) s') ∧
    (∀ (p : Nat) (gs : List Granule), p < 272 → ∃ s', exec (.joinAtMill p gs) s = .next s' ∧ s.chanTook (joinAtMill p gs) s') ∧
    (∀ (p : Nat) (gs : List Granule), p < 272 → ∃ s', exec (.joinAtApex p gs) s = .next s' ∧ s.chanTook (joinAtApex p gs) s') ∧
    (∀ (p : Nat) (gs : List Granule), p < 272 → ∃ s', exec (.routeUpdate p gs) s = .next s' ∧ s.chanTook (chanRouteUpdate p gs) s') ∧
    (∀ (g : Gran), ∃ s', exec (.routeUpdateAck g) s = .next s' ∧ s.chanTook (chanRouteAck g) s') ∧
    (∀ (tag : Nat), ∃ s', exec (.routeUpdateResend tag) s = .next s' ∧ s.chanTook (chanRouteResend tag) s') ∧
    (∀ (tag rank : Nat), ∃ s', exec (.routeUnreachable tag rank) s = .next s' ∧ s.chanTook (chanUnreachable tag rank) s') ∧
    (∀ (p : Nat) (g : Gran), p < 272 → ∃ s', exec (.joinAck (.chan p) g) s = .next s' ∧ s.chanTook (chanJoinAck g) s') ∧
    (∀ (g : Gran), ∃ s', exec (.withdrawNotice g) s = .next s' ∧ s.chanTook (chanWithdraw g) s') ∧
    (∀ (tag : Nat), ∃ s', exec (.formTimeout tag) s = .next s' ∧ s.chanTook (chanFormTimeout tag) s') ∧
    (∀ (tag : Nat), ∃ s', exec (.suspendTimeout (.apex tag)) s = .next s' ∧ s.chanTook (chanSuspendTimeout tag) s') ∧
    (∀ (p : Nat) (g : Gran), p < 272 → ∃ s', exec (.reformNotice (.chan p) g) s = .next s' ∧ s.chanTook (chanReform g) s') ∧
    (∀ (g : Gran), ∃ s', exec (.parkNotice g) s = .next s' ∧ s.chanTook (chanPark g) s') ∧
    (∀ (g : Gran), ∃ s', exec (.unparkNotice g) s = .next s' ∧ s.chanTook (chanUnpark g) s') ∧
    (∀ (g : Gran), ∃ s', exec (.leave (.chan g)) s = .next s' ∧ s.chanTook (chanLeave g) s') ∧
    (∀ (tag : Nat), ∃ s', exec (.sheafClosed (.apex tag)) s = .next s' ∧ s.chanTook (chanClosed tag) s') ∧
    (∀ (p : Nat) (g : Gran), p < 272 → ∃ s', exec (.sheafClosed (.level p g)) s = .next s' ∧ s.chanTook (levelClosed p g) s') ∧
    (∀ (tag : Nat) (digest : Gran), ∃ s', exec (.forgetPair tag digest) s = .next s' ∧ s.chanTook (chanForgetPair tag digest) s'))

/-- Completion of the rows of generations: arrival, tokens, payload, release, results, failures and replay of a member. Each runs at the leaf
wherever it is out of reset with its clock running, at the channel wherever its sled is supplied (and, for its links, it is out of QUARANTINE), for
every operand that numbers an existing thing, and its next state is that of its own effect: a row at the leaf changes the leaf alone; one at the
channel, the channel as its meaning says, with used-up injections, condemned units and full queues settled after it, and the card that takes its answers. -/
def Obligations.GenerationRows : Prop :=
  ∀ s : State,
  (leafRuns s.leaf = true →
    (∀ (k pay : Nat) (freq : Bool), k < 32 → exec (.arrive k pay freq) s = .next (s.withLeaf (leafArrive k pay freq s.leaf))) ∧
    (∀ (d : Nat) (g : Gran), d < 2 → exec (.launchWord (.leaf d) g) s = .next (s.withLeaf (leafLaunchWord d g s.leaf))) ∧
    (∀ (k gen : Nat), k < 32 → exec (.launchFire k gen) s = .next (s.withLeaf (leafLaunchFire k gen s.leaf))) ∧
    (∀ (d : Nat) (g : Gran), d < 2 → exec (.failureWord (.leaf d) g) s = .next (s.withLeaf (leafFailureWord d g s.leaf))) ∧
    (∀ (k gen : Nat), k < 32 → exec (.launchMissed k gen) s = .next (s.withLeaf (fencedRow (leafLaunchMissed k gen) s.leaf))) ∧
    (∀ (d k gen rc i : Nat) (status : Bool) (g : Granule), d < 2 → k < 32 → exec (.resultGranule (.leaf d k gen rc i status g)) s = .next
      (s.withLeaf (leafResultGranule d k gen rc i status g s.leaf))) ∧
    (∀ (k gen : Nat), k < 32 → exec (.resultMissing k gen) s = .next (s.withLeaf (leafResultMissing k gen s.leaf))) ∧
    (∀ (k gen : Nat), k < 32 → exec (.mismatchClassify k gen) s = .next (s.withLeaf (leafMmClassify k gen s.leaf)))) ∧
  (chanPowered s.box.mod = true → s.box.chan.start.phase ≠ 4 →
    (∀ (p : Nat) (g : Gran), p < 272 → ∃ s', exec (.arrivalToken p g) s = .next s' ∧ s.chanTook (chanToken p g) s') ∧
    (∀ (p : Nat) (gs : List Granule), p < 272 → ∃ s', exec (.arrivalPayload p gs) s = .next s' ∧ s.chanTook (chanPayload p gs) s') ∧
    (∀ (tag n : Nat), ∃ s', exec (.levelCutoff tag n) s = .next s' ∧ s.chanTook (chanCutoff tag n) s') ∧
    (∀ (p sender : Nat) (gs : List Granule), p < 272 → ∃ s', exec (.partialReceived p sender gs) s = .next s' ∧ s.chanTook (chanPartial p
      sender gs) s') ∧
    (∀ (tag n sender : Nat), ∃ s', exec (.partialTimeout tag n sender) s = .next s' ∧ s.chanTook (chanPartialTimeout tag n sender) s') ∧
    (∀ (tag n : Nat), ∃ s', exec (.decisionTime tag n) s = .next s' ∧ s.chanTook (chanDecision tag n) s') ∧
    (∀ (tag rank : Nat), ∃ s', exec (.unheardTimeout tag rank) s = .next s' ∧ s.chanTook (chanUnheard tag rank) s') ∧
    (∀ (tag n : Nat), ∃ s', exec (.generationThreshed tag n) s = .next s' ∧ s.chanTook (chanThreshed tag n) s') ∧
    (∀ (p : Nat) (g : Gran), p < 272 → ∃ s', exec (.launchWord (.chan p) g) s = .next s' ∧ s.chanTook (levelWord g) s') ∧
    (∀ (p : Nat) (g : Gran), p < 272 → ∃ s', exec (.failureWord (.chan p) g) s = .next s' ∧ s.chanTook (levelWord g) s') ∧
    (∀ (gs : List Granule), ∃ s', exec (.resultGranule (.level gs)) s = .next s' ∧ s.chanTook (levelResult gs) s') ∧
    (∀ (g : Gran), ∃ s', exec (.outlierNote g) s = .next s' ∧ s.chanTook (chanOutlier g) s') ∧
    (∀ (g : Gran), ∃ s', exec (.mismatchNotice g) s = .next s' ∧ s.chanTook (chanMismatch g) s') ∧
    (∀ (tag : Nat) (failed : List (Nat × Nat)), ∃ s', exec (.pathSweepDone tag failed) s = .next s' ∧ s.chanTook (chanSweepDone tag failed)
      s'))

/-- Completion of the rows of the reduction engines and the mill: payload, saturation, lanes and their compare. Each runs at the leaf wherever it is
out of reset with its clock running, at the channel wherever its sled is supplied (and, for its links, it is out of QUARANTINE), for every operand
that numbers an existing thing, and its next state is that of its own effect: a row at the leaf changes the leaf alone; one at the channel, the
channel as its meaning says, with used-up injections, condemned units and full queues settled after it, and the card that takes its answers. -/
def Obligations.EngineRows : Prop :=
  ∀ s : State,
  (leafRuns s.leaf = true →
    (∀ (n : Nat), exec (.historyDecay .leaf n) s = .next (s.withLeaf (leafHistDecay n s.leaf))) ∧
    (∀ (d : Nat) (pass : Bool), d < 2 → exec (.engineVectorTest (.leaf d) pass) s = .next (s.withLeaf (leafVectors d pass s.leaf)))) ∧
  (chanPowered s.box.mod = true →
    (∀ (t : Nat) (ok : Bool), t < 64 → ∃ s', exec (.taskComplete t ok) s = .next s' ∧ s.chanTook (chanTaskRow t ok) s') ∧
    (∀ (t : Nat), t < 64 → ∃ s', exec (.thresherSteal t) s = .next s' ∧ s.chanTook (chanSteal t) s') ∧
    (∃ s', exec (.starvePromote) s = .next s' ∧ s.chanTook chanPromote s') ∧
    (∃ s', exec (.loadWindow) s = .next s' ∧ s.chanTook chanLoadWindow s') ∧
    (∀ (kind ix : Nat) (pass : Bool), selfTestOk kind ix = true → ∃ s', exec (.idleSelftest kind ix pass) s = .next s' ∧ s.chanTook
      (chanIdleTest kind ix pass) s') ∧
    (∃ s', exec (.saturationEnter) s = .next s' ∧ s.chanTook chanSaturate s') ∧
    (∃ s', exec (.saturationExit) s = .next s' ∧ s.chanTook chanDesaturate s') ∧
    (∀ (k : Nat), k < 4 → ∃ s', exec (.clusterLost k) s = .next s' ∧ s.chanTook (chanClusterLost k) s') ∧
    (∀ (n : Nat), ∃ s', exec (.historyDecay .chan n) s = .next s' ∧ s.chanTook (chanHistDecay n) s')) ∧
  (chanPowered s.box.mod = true → s.box.chan.start.phase ≠ 4 →
    (∀ (p : Nat) (pass : Bool), p < 272 → ∃ s', exec (.engineVectorTest (.chan p) pass) s = .next s' ∧ s.chanTook (chanVectors p pass) s'))

/-- Completion of the rows of the granary: records, rings, silos, capture, replay and gleaning. Each runs at the leaf wherever it is out of reset
with its clock running, at the channel wherever its sled is supplied (and, for its links, it is out of QUARANTINE), for every operand that numbers
an existing thing, and its next state is that of its own effect: a row at the leaf changes the leaf alone; one at the channel, the channel as its
meaning says, with used-up injections, condemned units and full queues settled after it, and the card that takes its answers. -/
def Obligations.GranaryRows : Prop :=
  ∀ s : State,
  (leafRuns s.leaf = true →
    (∀ (h : Nat) (g : Gran), h < 16 → exec (.captureDescriptor h g) s = .next (s.withLeaf (leafCapDescriptor h g s.leaf))) ∧
    (∀ (h : Nat) (g : Granule) (nbytes : Nat) (eop : Bool), h < 16 → exec (.captureDataBeat h g nbytes eop) s = .next (s.withLeaf (leafCapData
      h g nbytes eop s.leaf))) ∧
    (∀ (h : Nat), h < 16 → exec (.captureIdleTimeout h) s = .next (s.withLeaf (leafCapIdle h s.leaf))) ∧
    (∀ (d : Nat) (g : Gran), d < 2 → exec (.siloMode d g) s = .next (s.withLeaf (leafSiloMode d g s.leaf))) ∧
    (∀ (d : Nat) (r : RepRec), d < 2 → exec (.replayRecord d r) s = .next (s.withLeaf (leafReplayRecord d r s.leaf))) ∧
    exec (.replayFetchTimeout) s = .next (s.withLeaf (leafFetchTimeout s.leaf)) ∧
    (∀ (d : Nat), d < 2 → exec (.replayEnd (.leaf d)) s = .next (s.withLeaf (leafReplayEnd d s.leaf))) ∧
    exec (.gleanerPassStart none) s = .next (s.withLeaf (leafPassDue s.leaf)) ∧
    exec (.gleanerGranule .leafFlash) s = .next (s.withLeaf (leafPassEnd s.leaf)) ∧
    exec (.bucketLeak .leaf) s = .next (s.withLeaf (leafLeak s.leaf))) ∧
  (chanPowered s.box.mod = true →
    (∀ (p k seq : Nat), p < 272 → ∃ s', exec (.captureCloseTimeout p k seq) s = .next s' ∧ s.chanTook (chanCapTimeout p k seq) s') ∧
    (∃ s', exec (.ledgerRoot) s = .next s' ∧ s.chanTook chanLedgerRoot s') ∧
    (∃ s', exec (.retentionCheck) s = .next s' ∧ s.chanTook chanRetention s') ∧
    (∀ (n : Nat), n < 3072 → ∃ s', exec (.regionMigrationDone n) s = .next s' ∧ s.chanTook (chanRegionDone n) s') ∧
    (∀ (k : Nat), k < 16 → ∃ s', exec (.stackLost k) s = .next s' ∧ s.chanTook (chanStackLost k) s') ∧
    (∀ (w : GleanAt), gleanAtOk w = true → ∃ s', exec (.gleanerPassStart (some w)) s = .next s' ∧ s.chanTook (chanGleanStart w) s') ∧
    (∀ (w : GleanAt) (g f : Nat) (raced : Bool) (seq gran : Nat), gleanReadOk (.chan w g f raced seq gran) = true → ∃ s', exec
      (.gleanerGranule (.chan w g f raced seq gran)) s = .next s' ∧ s.chanTook (chanGleanGranule w g f raced seq gran) s') ∧
    (∃ s', exec (.bucketLeak .chan) s = .next s' ∧ s.chanTook chanLeak s')) ∧
  (chanPowered s.box.mod = true → s.box.chan.start.phase ≠ 4 →
    (∀ (p : Nat) (o0 o1 : Gran), p < 272 → ∃ s', exec (.captureOpenPacket p o0 o1) s = .next s' ∧ s.chanTook (chanCapOpen p o0 o1) s') ∧
    (∀ (p : Nat) (d0 : Gran) (gs : List Granule), p < 272 → ∃ s', exec (.captureDataPacket p d0 gs) s = .next s' ∧ s.chanTook (chanCapData p
      d0 gs) s') ∧
    (∀ (p : Nat) (c0 c1 : Gran), p < 272 → ∃ s', exec (.captureClosePacket p c0 c1) s = .next s' ∧ s.chanTook (chanCapClose p c0 c1) s') ∧
    (∀ (p : Nat) (g : Gran), p < 272 → ∃ s', exec (.replayFetch p g) s = .next s' ∧ s.chanTook (chanReplayFetch p g) s') ∧
    (∀ (cmd rank : Nat), ∃ s', exec (.replayEnd (.stream cmd rank)) s = .next s' ∧ s.chanTook (chanStreamEnd cmd rank) s') ∧
    (∀ (g : Gran), ∃ s', exec (.replayEnd (.pass g)) s = .next s' ∧ s.chanTook (chanEndPass g) s') ∧
    (∀ (g d : Gran), ∃ s', exec (.compareFind g d) s = .next s' ∧ s.chanTook (chanCompareFind g d) s'))

/-- Completion of the rows of the silent-fault tests: fingerprints, packs, chaff and shadow lanes. Each runs at the leaf wherever it is out of reset
with its clock running, at the channel wherever its sled is supplied (and, for its links, it is out of QUARANTINE), as a request of a session that
may ask, for every operand that numbers an existing thing, and its next state is that of its own effect: a row at the leaf changes the leaf alone;
one at the channel, the channel as its meaning says, with used-up injections, condemned units and full queues settled after it, and the card that takes its
answers; a request is answered to the session that sent it. -/
def Obligations.FingerprintRows : Prop :=
  ∀ s : State,
  (leafRuns s.leaf = true →
    (∀ (dum : Bool) (w : Word), exec (.hostFpWrite dum w) s = .next (s.withLeaf (leafHostFp dum w s.leaf))) ∧
    (∀ (d id serial pack reps : Nat) (fence : Bool) (bytes : Bytes), d < 2 → exec (.testRequest (.relay d) id serial pack reps fence bytes) s
      = .next (s.withLeaf (leafRelay d id cmTest false (testBody serial pack reps fence ++ bytes) s.leaf))) ∧
    exec (.testBusyTimeout) s = .next (s.withLeaf (leafTestBusy s.leaf)) ∧
    (∀ (g : Gran), exec (.testDigest g) s = .next (s.withLeaf (leafTestDigest g s.leaf))) ∧
    exec (.testItemTimeout) s = .next (s.withLeaf (leafTestTimeout s.leaf)) ∧
    exec (.testAbort) s = .next (s.withLeaf (leafTestAbort s.leaf)) ∧
    exec (.testEngineNotReady) s = .next (s.withLeaf (leafEngineLost s.leaf)) ∧
    (∀ (packs : List (Nat × Bytes)), exec (.testPeriod packs) s = .next (s.withLeaf (leafTestPeriod packs s.leaf)))) ∧
  (chanPowered s.box.mod = true →
    (∀ (id : Nat), ∃ s', exec (.testNoResult id) s = .next s' ∧ s.chanTook (chanTestNoResult id) s')) ∧
  (chanPowered s.box.mod = true → s.box.chan.start.phase ≠ 4 →
    (∀ (p : Nat) (g : Gran), p < 272 → ∃ s', exec (.memberFingerprint p g) s = .next s' ∧ s.chanTook (chanMemberFp p g) s') ∧
    (∀ (gs : List Granule), ∃ s', exec (.runFingerprint gs) s = .next s' ∧ s.chanTook (chanRunFp gs) s')) ∧
  (∀ (place id serial pack reps : Nat) (fence : Bool) (bytes : Bytes), s.canAsk place → ∃ s', exec (.testRequest (.session place) id serial
      pack reps fence bytes) s = .next s' ∧ s.asked place cmTest id (mgmtTest id serial pack reps fence) s')

/-- Completion of the rows of fencing, margins, forecasts and injected faults. Each runs at the leaf wherever it is out of reset with its clock
running, at the channel wherever its sled is supplied (and, for its links, it is out of QUARANTINE), as a request of a session that may ask, for
every operand that numbers an existing thing, and its next state is that of its own effect: a row at the leaf changes the leaf alone; one at the
channel, the channel as its meaning says, with used-up injections, condemned units and full queues settled after it, and the card that takes its answers; a
request is answered to the session that sent it. -/
def Obligations.FenceRows : Prop :=
  ∀ s : State,
  (leafRuns s.leaf = true →
    exec (.heartbeat) s = .next (s.withLeaf (leafHeartbeat s.leaf)) ∧
    (∀ (v : Nat), exec (.hbTimeoutWrite v) s = .next (s.withLeaf (leafHbTimeout v s.leaf))) ∧
    exec (.heartbeatExpire) s = .next (s.withLeaf (fencedRow leafHbExpire s.leaf)) ∧
    exec (.hostReset) s = .next (s.withLeaf (fencedRow (leafFencePin true) s.leaf)) ∧
    exec (.fencePin) s = .next (s.withLeaf (fencedRow (leafFencePin false) s.leaf)) ∧
    exec (.fenceDrained) s = .next (s.withLeaf (leafFenceDrained s.leaf)) ∧
    exec (.unfence) s = .next (s.withLeaf (leafUnfence s.leaf)) ∧
    (∀ (os : List Optics), exec (.marginReportSend .leaf os) s = .next (s.withLeaf (leafMarginReports os s.leaf))) ∧
    (∀ (d : Nat) (g : Gran), d < 2 → exec (.forecast d g) s = .next (s.withLeaf (leafForecast d g s.leaf))) ∧
    (∀ (reset : Bool), exec (.fenceInputDeasserted reset) s = .next (s.withLeaf (leafFenceOff reset s.leaf)))) ∧
  (chanPowered s.box.mod = true →
    (∀ (id : Nat), ∃ s', exec (.injectEnd id) s = .next s' ∧ s.chanTook (chanInjectEnd id) s') ∧
    (∀ (os : List Optics), ∃ s', exec (.marginReportSend .chan os) s = .next s' ∧ s.chanTook (chanOwnMargins os) s') ∧
    (∃ s', exec (.forecastEval) s = .next s' ∧ s.chanTook chanForecastEval s')) ∧
  (chanPowered s.box.mod = true → s.box.chan.start.phase ≠ 4 →
    (∀ (g : Gran), ∃ s', exec (.fenceNotice g) s = .next s' ∧ s.chanTook (chanFenceNotice g) s') ∧
    (∀ (p : Nat) (g : Gran), p < 272 → ∃ s', exec (.marginReport p g) s = .next s' ∧ s.chanTook (chanMarginReport p g) s')) ∧
  (∀ (place id kind arg arg2 dur count : Nat) (force safe : Bool), s.canAsk place → ∃ s', exec (.inject place id kind arg arg2 dur count
      force safe) s = .next s' ∧ s.asked place cmInject id (mgmtInject id kind arg arg2 dur count force safe) s') ∧
    (∀ (place id target : Nat), s.canAsk place → ∃ s', exec (.injectCancel place id target) s = .next s' ∧ s.asked place cmInject id
      (mgmtInjectCancel id target) s')

/-- Completion of the rows of start and reset: the image, its acceptance, self-test, restart, flash and factory restore. Each runs at the leaf
wherever it is out of reset with its clock running, at the channel wherever its sled is supplied, as a request of a session that may ask, a reset or
clock event of the leaf always, for every operand that numbers an existing thing, and its next state is that of its own effect: a row at the leaf
changes the leaf alone; one at the channel, the channel as its meaning says, with used-up injections, condemned units and full queues settled after it, and the
card that takes its answers; a request is answered to the session that sent it; one at the module, the module alone. -/
def Obligations.StartupRows : Prop :=
  ∀ s : State,
  exec (.leafReset) s = .next (s.withLeaf (leafReset s.leaf)) ∧
    (∀ (ws : List (Option Word)), exec (.resetRelease ws) s = .next (s.withLeaf (leafResetEnd ws s.leaf))) ∧
    exec (.hubRefClockFail) s = .next (s.withLeaf (leafClockFail s.leaf)) ∧
  (leafRuns s.leaf = true →
    exec (.imageAccepted .leaf) s = .next (s.withLeaf (leafImage s.leaf)) ∧
    (∀ (r : SelfTest), exec (.selftestDone .leaf r) s = .next (s.withLeaf (leafSelfTest r s.leaf))) ∧
    exec (.restoreDone .leaf) s = .next (s.withLeaf (leafRestore s.leaf)) ∧
    exec (.cfgLock) s = .next (s.withLeaf (leafCfgLock s.leaf)) ∧
    (∀ (hourly : Bool), exec (.userBlockSave .leaf hourly) s = .next (s.withLeaf (leafSaveRow hourly s.leaf))) ∧
    (∀ (d id serial : Nat), d < 2 → exec (.restoreFactoryArm (.relay d) id serial) s = .next (s.withLeaf (leafRelay d id cmRestore false
      (leBytes 8 serial ++ leBytes 2 0 ++ leBytes 2 0) s.leaf))) ∧
    (∀ (id serial : Nat), exec (.restoreFactoryArm .register id serial) s = .next (s.withLeaf (leafArm s.leaf))) ∧
    (∀ (d id serial code : Nat) (force : Bool), d < 2 → exec (.restoreFactoryConfirm (.relay d) id serial code force) s = .next (s.withLeaf
      (leafRelay d id cmRestore force (leBytes 8 serial ++ leBytes 2 1 ++ leBytes 2 code) s.leaf))) ∧
    (∀ (id serial code : Nat) (force : Bool), exec (.restoreFactoryConfirm .register id serial code force) s = .next (s.withLeaf (leafConfirm
      none force s.leaf))) ∧
    exec (.armExpiry .leaf) s = .next (s.withLeaf (leafArmExpire s.leaf)) ∧
    (∀ (n : Nat) (temp : Int) (mv vmin : Nat), n < 4 → exec (.sensorUpdate .leaf n temp mv vmin) s = .next (s.withLeaf (leafSensor n temp mv
      vmin s.leaf))) ∧
    (∀ (n : Nat), n < 4 → exec (.sensorStale .leaf n) s = .next (s.withLeaf (leafSensorStale n s.leaf)))) ∧
  (chanPowered s.box.mod = true →
    (∀ (r : SelfTest), ∃ s', exec (.selftestDone .chan r) s = .next s' ∧ s.chanTook (chanSelfTest r) s') ∧
    (∃ s', exec (.restoreDone .chan) s = .next s' ∧ s.chanTook chanRestore s') ∧
    (∀ (hourly : Bool), ∃ s', exec (.userBlockSave .chan hourly) s = .next s' ∧ s.chanTook (chanSaveRow hourly) s') ∧
    (∃ s', exec (.armExpiry .chan) s = .next s' ∧ s.chanTook chanArmExpire s') ∧
    (∀ (n : Nat) (temp : Int) (mv vmin : Nat), n < 4 → ∃ s', exec (.sensorUpdate .chan n temp mv vmin) s = .next s' ∧ s.chanTook (chanSensor n
      temp mv vmin) s') ∧
    (∀ (n : Nat), n < 4 → ∃ s', exec (.sensorStale .chan n) s = .next s' ∧ s.chanTook (chanSensorStale n) s')) ∧
  (chanPowered s.box.mod = true →
    exec (.imageAccepted .chan) s = .next (s.withBox (boxImage s.box)) ∧
    exec (.restartWaitEnd) s = .next (s.withBox (pumpBox (boxRestart s.box)))) ∧
  (∀ (place id serial : Nat), s.canAsk place → ∃ s', exec (.restoreFactoryArm (.session place) id serial) s = .next s' ∧ s.asked place
      cmRestore id (mgmtArm id serial) s') ∧
    (∀ (place id serial code : Nat) (force : Bool), s.canAsk place → ∃ s', exec (.restoreFactoryConfirm (.session place) id serial code force)
      s = .next s' ∧ s.asked place cmRestore id (mgmtConfirm id serial code force) s') ∧
    (∀ (place id off : Nat) (last : Bool) (data : Bytes), s.canAsk place → ∃ s', exec (.imageWrite place id off last data) s = .next s' ∧
      s.asked place 0x31 id (mgmtImageWrite id off last data) s') ∧
    (∀ (place id : Nat) (body : Bytes), s.canAsk place → ∃ s', exec (.calWrite place id body) s = .next s' ∧ s.asked place 0x32 id
      (mgmtCalWrite id body) s') ∧
    (∀ (place id : Nat) (force safe : Bool), s.canAsk place → ∃ s', exec (.restart place id force safe) s = .next s' ∧ s.asked place 0x33 id
      (mgmtRestart id force safe) s')

/-- Completion of the rows of security: violations, alarms, fuses, debug unlock and key rotation. Each runs at the leaf wherever it is out of reset
with its clock running, at the channel wherever its sled is supplied, as a request of a session that may ask, for every operand that numbers an
existing thing, and its next state is that of its own effect: a row at the leaf changes the leaf alone; one at the channel, the channel as its
meaning says, with used-up injections, condemned units and full queues settled after it, and the card that takes its answers; a request is answered to the
session that sent it. -/
def Obligations.SecurityRows : Prop :=
  ∀ s : State,
  (leafRuns s.leaf = true →
    exec (.voltGlitch .leaf) s = .next (s.withLeaf (leafViolate 3 s.leaf)) ∧
    exec (.clockGlitch .leaf) s = .next (s.withLeaf (leafViolate 4 s.leaf)) ∧
    exec (.tempViolation .leaf) s = .next (s.withLeaf (leafViolate 5 s.leaf)) ∧
    exec (.hostAlarm) s = .next (s.withLeaf (leafViolate 9 s.leaf)) ∧
    (∀ (ok : Bool), exec (.fuseBlowDone .leaf ok) s = .next (s.withLeaf (leafBlowDone ok s.leaf))) ∧
    (∀ (d id serial : Nat), d < 2 → exec (.debugUnlockRequest (.relay d) id serial) s = .next (s.withLeaf (leafRelay d id cmDebug false
      (leBytes 8 serial ++ leBytes 8 0) s.leaf))) ∧
    (∀ (id serial : Nat), exec (.debugUnlockRequest .register id serial) s = .next (s.withLeaf (leafDbgRequest s.leaf))) ∧
    (∀ (d id serial dur : Nat) (sig : Bytes), d < 2 → exec (.debugUnlockResponse (.relay d) id serial dur sig) s = .next (s.withLeaf
      (leafRelay d id cmDebug false (leBytes 8 serial ++ leBytes 2 1 ++ leBytes 6 dur ++ sig.take 64) s.leaf))) ∧
    (∀ (id serial dur : Nat) (sig : Bytes), exec (.debugUnlockResponse .register id serial dur sig) s = .next (s.withLeaf (leafDbgSubmit
      s.leaf))) ∧
    (∀ (d id serial : Nat), d < 2 → exec (.debugLock (.relay d) id serial) s = .next (s.withLeaf (leafRelay d id cmDebugLock false (leBytes 8
      serial) s.leaf))) ∧
    (∀ (id serial : Nat), exec (.debugLock .register id serial) s = .next (s.withLeaf (leafDbgEnd s.leaf))) ∧
    exec (.debugExpiry .leaf) s = .next (s.withLeaf (leafDbgExpire s.leaf)) ∧
    exec (.challengeExpiry .leaf) s = .next (s.withLeaf (leafChallengeOld s.leaf)) ∧
    (∀ (d id serial : Nat) (sig : Bytes), d < 2 → exec (.alarmClear (.relay d) id serial sig) s = .next (s.withLeaf (leafRelay d id
      cmAlarmClear false (leBytes 8 serial ++ sig.take 64) s.leaf)))) ∧
  (chanPowered s.box.mod = true →
    (∃ s', exec (.lidOpen) s = .next s' ∧ s.chanTook (chanViolate 1) s') ∧
    (∃ s', exec (.meshFault) s = .next s' ∧ s.chanTook (chanViolate 2) s') ∧
    (∃ s', exec (.voltGlitch .chan) s = .next s' ∧ s.chanTook (chanViolate 3) s') ∧
    (∃ s', exec (.clockGlitch .chan) s = .next s' ∧ s.chanTook (chanViolate 4) s') ∧
    (∃ s', exec (.tempViolation .chan) s = .next s' ∧ s.chanTook (chanViolate 5) s') ∧
    (∀ (ok : Bool), ∃ s', exec (.fuseBlowDone .chan ok) s = .next s' ∧ s.chanTook (chanBlowDone ok) s') ∧
    (∃ s', exec (.debugExpiry .chan) s = .next s' ∧ s.chanTook chanDbgExpire s') ∧
    (∃ s', exec (.challengeExpiry .chan) s = .next s' ∧ s.chanTook chanChallengeOld s')) ∧
  (∀ (place id serial : Nat), s.canAsk place → ∃ s', exec (.debugUnlockRequest (.session place) id serial) s = .next s' ∧ s.asked place
      cmDebug id (mgmtDbgRequest id serial) s') ∧
    (∀ (place id serial dur : Nat) (sig : Bytes), s.canAsk place → ∃ s', exec (.debugUnlockResponse (.session place) id serial dur sig) s =
      .next s' ∧ s.asked place cmDebug id (mgmtDbgResponse id serial dur sig) s') ∧
    (∀ (place id serial : Nat), s.canAsk place → ∃ s', exec (.debugLock (.session place) id serial) s = .next s' ∧ s.asked place cmDebugLock
      id (mgmtDbgLock id serial) s') ∧
    (∀ (place id serial : Nat) (sig : Bytes), s.canAsk place → ∃ s', exec (.alarmClear (.session place) id serial sig) s = .next s' ∧ s.asked
      place cmAlarmClear id (mgmtAlarmClear id serial sig) s') ∧
    (∀ (place id : Nat) (body : Bytes), s.canAsk place → ∃ s', exec (.keyRotate place id body) s = .next s' ∧ s.asked place 0x50 id
      (mgmtKeyRotate id body) s')

/-- Completion of the rows of the leaf's registers, interrupts, triggers and captures. Each runs at the leaf wherever it is out of reset with its
clock running, for every operand that numbers an existing thing, and its next state is that of its own effect: a row at the leaf changes the leaf
alone. -/
def Obligations.RegisterRows : Prop :=
  ∀ s : State,
  (leafRuns s.leaf = true →
    (∀ (wr : Bool) (addr : Nat) (w : Word) (poison : Bool), exec (.registerWrite wr addr w poison) s = .next (s.withLeaf (leafPortAccess wr
      addr w poison s.leaf))) ∧
    (∀ (n : Nat), exec (.histSelWrite n) s = .next (s.withLeaf (leafHistSel n s.leaf))) ∧
    (∀ (k off : Nat) (w : Word), k < 8 → exec (.triggerWrite k off w) s = .next (s.withLeaf (leafTrigWrite k off w s.leaf))) ∧
    (∀ (k : Nat), k < 8 → exec (.triggerEdge k) s = .next (s.withLeaf (leafTrigEdge k s.leaf))) ∧
    (∀ (k : Nat), k < 8 → exec (.triggerPulseEnd k) s = .next (s.withLeaf (leafPulseEnd k s.leaf))) ∧
    exec (.capPopRead) s = .next (s.withLeaf (leafCapPop s.leaf)) ∧
    exec (.sumRequest) s = .next (s.withLeaf (leafSumRequest s.leaf)) ∧
    exec (.summaryReady) s = .next (s.withLeaf (leafSumReady s.leaf)) ∧
    (∀ (k : Nat) (w : Word), k < 8 → exec (.resSelWrite k w) s = .next (s.withLeaf (leafResSel k w s.leaf))) ∧
    exec (.intFifoRead) s = .next (s.withLeaf (intFifoRead s.leaf)) ∧
    exec (.flashRead) s = .next (s.withLeaf (leafFlashRead s.leaf)) ∧
    exec (.flashProgram) s = .next (s.withLeaf (leafFlashProgram s.leaf)) ∧
    exec (.flashTrimAdd) s = .next (s.withLeaf (leafFlashTrim s.leaf)) ∧
    exec (.flashStageDone) s = .next (s.withLeaf (leafFlashStage s.leaf)) ∧
    exec (.flashDone) s = .next (s.withLeaf (leafFlashDone s.leaf)))

/-- Completion of the rows of management: sessions, requests, answers and telemetry. Each runs at the leaf wherever it is out of reset with its
clock running, at the channel wherever its sled is supplied (and, for its links, it is out of QUARANTINE), as a request of a session that may ask,
at the module always, for every operand that numbers an existing thing, and its next state is that of its own effect: a row at the leaf changes the
leaf alone; one at the channel, the channel as its meaning says, with used-up injections, condemned units and full queues settled after it, and the card that
takes its answers; a request is answered to the session that sent it; one at the module, the module alone. -/
def Obligations.ManagementRows : Prop :=
  ∀ s : State,
  (leafRuns s.leaf = true →
    (∀ (d id serial : Nat), d < 2 → exec (.summary (.relay d) id serial) s = .next (s.withLeaf (leafRelay d id cmSummary false (leBytes 8
      serial ++ leBytes 2 0) s.leaf))) ∧
    (∀ (d id serial : Nat), d < 2 → exec (.fence (.relay d) id serial) s = .next (s.withLeaf (leafRelay d id cmFence false (leBytes 8 serial
      ++ leBytes 8 0) s.leaf))) ∧
    (∀ (d id serial : Nat), d < 2 → exec (.fenceRelease (.relay d) id serial) s = .next (s.withLeaf (leafRelay d id cmFence false (leBytes 8
      serial ++ leBytes 8 1) s.leaf))) ∧
    (∀ (d id serial first count : Nat), d < 2 → exec (.historyRead (.relay d) id serial first count) s = .next (s.withLeaf (leafRelay d id
      cmHistRead false (leBytes 8 serial ++ leBytes 4 first ++ leBytes 4 count) s.leaf))) ∧
    (∀ (d id serial path : Nat), d < 2 → exec (.historyClear (.relay d) id serial path) s = .next (s.withLeaf (leafRelay d id cmHistClear
      false (leBytes 8 serial ++ leBytes 8 path) s.leaf))) ∧
    (∀ (d id cmd : Nat) (force : Bool) (body : Bytes), d < 2 → exec (.mgmtRelay (.leaf d id cmd force body)) s = .next (s.withLeaf (leafRelay
      d id cmd force body s.leaf)))) ∧
  (chanPowered s.box.mod = true →
    (∀ (id : Nat), ∃ s', exec (.leafNoAnswer id) s = .next s' ∧ s.chanTook (chanNoAnswer id) s')) ∧
  (chanPowered s.box.mod = true → s.box.chan.start.phase ≠ 4 →
    (∀ (gs : List Granule), ∃ s', exec (.mgmtRelay (.level gs)) s = .next s' ∧ s.chanTook (chanRelayPass gs) s') ∧
    (∀ (gs : List Granule), ∃ s', exec (.mgmtAnswer gs) s = .next s' ∧ s.chanTook (chanMgmtAnswer gs) s')) ∧
  (∀ (place id serial : Nat), s.canAsk place → ∃ s', exec (.summary (.session place) id serial) s = .next s' ∧ s.asked place cmSummary id
      (mgmtSummary id serial) s') ∧
    (∀ (place id seq : Nat), s.canAsk place → ∃ s', exec (.summaryPage1 place id seq) s = .next s' ∧ s.asked place cmSummary id (mgmtPage1 id
      seq) s') ∧
    (∀ (place id off n : Nat), s.canAsk place → ∃ s', exec (.regRead place id off n) s = .next s' ∧ s.asked place 2 id (mgmtRegRead id off n)
      s') ∧
    (∀ (place id off v mask : Nat), s.canAsk place → ∃ s', exec (.regWrite place id off v mask) s = .next s' ∧ s.asked place 3 id
      (mgmtRegWrite id off v mask) s') ∧
    (∀ (place id : Nat) (utc : Bool) (delta : Int) (at_ : Nat), s.canAsk place → ∃ s', exec (.phaseStep place id utc delta at_) s = .next s' ∧
      s.asked place 0x10 id (mgmtPhaseStep id utc delta at_) s') ∧
    (∀ (place id : Nat) (utc : Bool) (delta : Int) (at_ count : Nat), s.canAsk place → ∃ s', exec (.timePass place id utc delta at_ count) s =
      .next s' ∧ s.asked place 0x11 id (mgmtTimePass id utc delta at_ count) s') ∧
    (∀ (place id serial : Nat), s.canAsk place → ∃ s', exec (.fence (.session place) id serial) s = .next s' ∧ s.asked place cmFence id
      (mgmtFence id serial false) s') ∧
    (∀ (place id serial : Nat), s.canAsk place → ∃ s', exec (.fenceRelease (.session place) id serial) s = .next s' ∧ s.asked place cmFence id
      (mgmtFence id serial true) s') ∧
    (∀ (place id tag : Nat) (known : Bool), s.canAsk place → ∃ s', exec (.close place id tag known) s = .next s' ∧ s.asked place 0x21 id
      (mgmtClose id tag known) s') ∧
    (∀ (place id tag rank n there : Nat), s.canAsk place → ∃ s', exec (.forceArrive place id tag rank n there) s = .next s' ∧ s.asked place
      0x22 id (mgmtForceArrive id tag rank n there) s') ∧
    (∀ (place id tag n there : Nat), s.canAsk place → ∃ s', exec (.forceRelease place id tag n there) s = .next s' ∧ s.asked place 0x23 id
      (mgmtForceRelease id tag n there) s') ∧
    (∀ (place id off total : Nat) (last : Bool) (data : Bytes), s.canAsk place → ∃ s', exec (.packLoad place id off total last data) s = .next
      s' ∧ s.asked place 0x41 id (mgmtPackLoad id off total last data) s') ∧
    (∀ (place id : Nat) (body : Bytes), s.canAsk place → ∃ s', exec (.replay place id body) s = .next s' ∧ s.asked place 0x42 id (mgmtReplay
      id body) s') ∧
    (∀ (place id serial first count : Nat), s.canAsk place → ∃ s', exec (.historyRead (.session place) id serial first count) s = .next s' ∧
      s.asked place cmHistRead id (mgmtHistRead id serial first count) s') ∧
    (∀ (place id serial path : Nat), s.canAsk place → ∃ s', exec (.historyClear (.session place) id serial path) s = .next s' ∧ s.asked place
      cmHistClear id (mgmtHistClear id serial path) s') ∧
    (∀ (place id area tag first limit : Nat), s.canAsk place → ∃ s', exec (.logRead place id area tag first limit) s = .next s' ∧ s.asked
      place 0x62 id (mgmtLogRead id area tag first limit) s') ∧
  (∀ (ok : Bool) (addr : Nat), exec (.sessionOpen ok addr) s = .next (s.withBox (boxSessionOpen ok addr s.box))) ∧
    (∀ (place : Nat), exec (.sessionIdleTimeout place) s = .next (s.withBox (boxSessionIdle place s.box))) ∧
    (∀ (place target id stream first : Nat), exec (.telemetry place target id stream first) s = .next (s.withBox (boxTelemetry place target id
      stream first s.box))) ∧
    (∀ (place target id : Nat), exec (.telemetryStop place target id) s = .next (s.withBox (boxTelemetryStop place target id s.box))) ∧
    exec (.telemetryTick) s = .next (s.withBox (boxTick s.box)) ∧
    (∀ (place id : Nat), exec (.moduleStatus place id) s = .next (s.withBox (boxModuleStatus place id s.box))) ∧
    (∀ (place id : Nat) (addr digest : Bytes), exec (.cardConfig place id addr digest) s = .next (s.withBox (boxCardConfig place id addr
      digest s.box))) ∧
    (∀ (place : Nat), exec (.sessionClosed place) s = .next (s.withBox (boxSessionClosed place s.box))) ∧
    (∀ (place target cmd id : Nat), exec (.badCommand place target cmd id) s = .next (s.withBox (askUnknown place target cmd id s.box)))

/-- Completion of the rows of the module: feeds, bus, sleds, bricks, fans, card, polls and heat. Each runs at the module always, for every operand
that numbers an existing thing, and its next state is that of its own effect: one at the module, the module alone. -/
def Obligations.ModuleRows : Prop :=
  ∀ s : State,
  (∀ (f : Nat), f < 2 → exec (.feedUsable f) s = .next (s.withBox (boxFeedUsable f s.box))) ∧
    (∀ (f : Nat), f < 2 → exec (.feedUndervolt f) s = .next (s.withBox (boxFeedUndervolt f s.box))) ∧
    (∀ (f : Nat), f < 2 → exec (.feedOvervolt f) s = .next (s.withBox (boxFeedOvervolt f s.box))) ∧
    (∀ (f : Nat), f < 2 → exec (.feedReversed f) s = .next (s.withBox (boxFeedReversed f s.box))) ∧
    (∀ (f : Nat), f < 2 → exec (.feedAbsent f) s = .next (s.withBox (boxFeedAbsent f s.box))) ∧
    exec (.powerWarn) s = .next (s.withBox (boxPowerWarn s.box)) ∧
    exec (.busCollapse) s = .next (s.withBox (boxBusCollapse s.box)) ∧
    (∀ (k : Nat), k < 2 → exec (.sledSoftStartDone k) s = .next (s.withBox (boxSoftStart k s.box))) ∧
    (∀ (k : Nat), k < 2 → exec (.sledSoftStartTimeout k) s = .next (s.withBox (boxSoftStartTimeout k s.box))) ∧
    (∀ (k : Nat), k < 2 → exec (.sledOvercurrent k) s = .next (s.withBox (boxOvercurrent k s.box))) ∧
    (∀ (k : Nat), k < 2 → exec (.sledTripRetry k) s = .next (s.withBox (boxTripRetry k s.box))) ∧
    (∀ (k : Nat) (board : Option Board), k < 2 → exec (.sledInserted k board) s = .next (s.withBox (boxSledInserted k board s.box))) ∧
    (∀ (k : Nat), k < 2 → exec (.sledRemoved k) s = .next (s.withBox (boxSledRemoved k s.box))) ∧
    (∀ (k : Nat), k < 2 → exec (.brickInserted k) s = .next (s.withBox (boxBrickInserted k s.box))) ∧
    (∀ (k : Nat), k < 2 → exec (.brickRemoved k) s = .next (s.withBox (boxBrickRemoved k s.box))) ∧
    (∀ (k : Nat), k < 4 → exec (.fanInserted k) s = .next (s.withBox (boxFanInserted k s.box))) ∧
    (∀ (k : Nat), k < 4 → exec (.fanRemoved k) s = .next (s.withBox (boxFanRemoved k s.box))) ∧
    (∀ (selftestOk : Bool), exec (.cardInserted selftestOk) s = .next (s.withBox (boxCardInserted selftestOk s.box))) ∧
    exec (.cardRemoved) s = .next (s.withBox (boxCardRemoved s.box)) ∧
    (∀ (r : Poll), exec (.pmbusPoll r) s = .next (s.withBox (boxPoll r s.box))) ∧
    (∀ (k pct : Nat), k < 2 → exec (.fanDemand k pct) s = .next (s.withBox (boxFanDemand k pct s.box))) ∧
    (∀ (k : Nat), k < 4 → exec (.fanNoDemand k) s = .next (s.withBox (boxFanNoDemand k s.box))) ∧
    (∀ (k : Nat), k < 2 → exec (.thermalWarn k) s = .next (s.withBox (boxThermalWarn k s.box))) ∧
    (∀ (k : Nat), k < 2 → exec (.thermalShutdown k) s = .next (s.withBox (boxThermalShutdown k s.box))) ∧
    (∀ (k : Nat), k < 2 → exec (.thermalRestored k) s = .next (s.withBox (boxThermalRestored k s.box))) ∧
    (∀ (k : Nat) (mesh : Bool), k < 2 → exec (.sledLidUnpowered k mesh) s = .next (s.withBox (boxLidUnpowered k mesh s.box)))

/-! ### Registers of the leaf -/

/-- R495: a write of `HIST_SEL` copies history entry `INDEX`, or zeros where the index is unused, into `HIST_ENTRY`, laid out as a history entry
low word first; nothing else of the machine changes, and no later commit to the history changes what the four words read. -/
def Obligations.HistSelCopiesEntry : Prop :=
  ∀ (s : State) (n : Nat), leafRuns s.leaf = true → n < 512 →
    exec (.histSelWrite n) s = .next (s.withLeaf { s.leaf with histSel := n, histEntry := tabGet {} s.leaf.history.entries n }) ∧
    histGran {} = 0#256 ∧ State.reset.leaf.histSel = 0 ∧ State.reset.leaf.histEntry = {} ∧
    leafReadWord { s.leaf with histSel := n } 0x2420 = (BitVec.ofNat 64 n, respOk) ∧
    ∀ (h : History) (j : Nat), j < 4 →
      leafReadWord { s.leaf with histSel := n, histEntry := tabGet {} s.leaf.history.entries n, history := h } (0x2428 + 8 * j) =
        (BitVec.extractLsb' (64 * j) 64 (histGran (tabGet {} s.leaf.history.entries n)), respOk)

/-- R523: raising cause n sets its status bit and no other; with its enable bit 0 nothing else changes; with it 1 one entry is appended to the
queue, with pod time as it reads (zero until it is valid, R54), or, when 64 entries wait, the entry is lost, counted in `INT_FIFO_LOST`, and sets
`FIFO_OVF`. -/
def Obligations.RaiseQueuesOrCounts : Prop :=
  ∀ (l : Leaf) (e : EvRec) (n : Nat), e.ev.cause = some n →
    l.raised (leafRaise l e) ∧
    (leafRaise l e).ints.status0 = (if n < 64 then l.ints.status0 ||| (1#64 <<< n) else l.ints.status0) ∧
    (leafRaise l e).ints.status1 = (if n < 64 then l.ints.status1 else l.ints.status1 ||| (1#64 <<< (n - 64))) ∧
    (leafRaise l e).ints.enable0 = l.ints.enable0 ∧ (leafRaise l e).ints.enable1 = l.ints.enable1 ∧
    (leafRaise l e).ints.globalEn = l.ints.globalEn ∧
    (let on := if n < 64 then l.ints.enable0.getLsbD n else l.ints.enable1.getLsbD (n - 64)
     let now := if l.time.valid then l.time.ns else 0
     (on = false → (leafRaise l e).ints.fifo = l.ints.fifo ∧ (leafRaise l e).ints.lost = l.ints.lost ∧ (leafRaise l e).ints.ovf = l.ints.ovf) ∧
     (on = true → l.ints.fifo.length < 64 →
        (leafRaise l e).ints.fifo = l.ints.fifo ++ [{ cause := n, index := e.index % 256, detail := e.detail % 256, time := now % 2 ^ 40 }] ∧
        (leafRaise l e).ints.lost = l.ints.lost ∧ (leafRaise l e).ints.ovf = l.ints.ovf) ∧
     (on = true → 64 ≤ l.ints.fifo.length →
        (leafRaise l e).ints.fifo = l.ints.fifo ∧ (leafRaise l e).ints.lost = ctrInc l.ints.lost ∧ (leafRaise l e).ints.ovf = true))

/-- R522: a read of `INT_FIFO` answers the oldest entry with `VALID` = 1 and removes it; an empty queue answers zeros. Nothing else changes. -/
def Obligations.IntFifoReadRemovesOldest : Prop :=
  ∀ s : State, leafRuns s.leaf = true →
    (s.leaf.ints.fifo = [] → exec .intFifoRead s = .next (s.withLeaf { s.leaf with rdata := 0#64, resp := respOk })) ∧
    ∀ (x : IntEntry) (q : List IntEntry), s.leaf.ints.fifo = x :: q → x.cause < 128 → x.index < 256 → x.detail < 256 → x.time < 2 ^ 40 →
      exec .intFifoRead s = .next (s.withLeaf { s.leaf with
        ints := { s.leaf.ints with fifo := q }, resp := respOk,
        rdata := BitVec.ofNat 64 (x.cause + 2 ^ 7 + 2 ^ 8 * x.index + 2 ^ 16 * x.detail + 2 ^ 24 * x.time) })

/-- R507: a write of `SLOT_CMD_s` that sets more than one of `JOIN_GO`, `ARRIVE`, `LEAVE`, `PARK` and `UNPARK`, or `FREQ_REQ` without `ARRIVE`, is
ignored as a whole and counted in `SLOT_CMD_BAD`; any other gives the slot the one command it names, an arrival with its count of granules, or
nothing. The access falls on the next edge of the time clock, held in the first 10 µs after reset (R568), and what that edge brings comes after it
(the model's reading, assumption 74). -/
def Obligations.SlotCommandsOneAtATime : Prop :=
  ∀ (s : State) (k : Nat) (w : Word) (poison : Bool), leafRuns s.leaf = true → k < 32 →
    exec (.registerWrite true (0x8038 + 0x200 * k) w poison) s = .next (s.withLeaf (leafTickWith (fun l => leafAnswer (
      if 2 ≤ (w.getLsbD 0).toNat + (w.getLsbD 1).toNat + (w.getLsbD 3).toNat + (w.getLsbD 4).toNat + (w.getLsbD 5).toNat ∨
          (w.getLsbD 2 = true ∧ w.getLsbD 1 = false) then
        { l with slotCmdBad := ctrInc l.slotCmdBad }
      else if w.getLsbD 0 then leafJoinGo k l
      else if w.getLsbD 1 then leafArrive k (BitVec.extractLsb' 8 7 w).toNat (w.getLsbD 2) l
      else if w.getLsbD 3 then leafLeave k l
      else if w.getLsbD 4 then leafPark k l
      else if w.getLsbD 5 then leafUnpark k l
      else l) 0#64 respOk) (leafHeld s.leaf)))

/-- R487 and R491: an access at an offset that is no multiple of 8, in a reserved block of the map, or beyond its 256 KiB, answers zero with
`ERROR`, and changes nothing else: the leaf is as that edge of the time clock alone leaves it, but for the answer. -/
def Obligations.ReservedOffsetsAnswerError : Prop :=
  ∀ (s : State) (wr : Bool) (a : Nat) (w : Word) (poison : Bool), leafRuns s.leaf = true →
    (a % 8 ≠ 0 ∨ (0xF000 ≤ a ∧ a < 0x10000) ∨ 0x30000 ≤ a) →
    exec (.registerWrite wr a w poison) s =
      .next (s.withLeaf (leafTickWith (fun l => { l with rdata := 0#64, resp := respError }) (leafHeld s.leaf)))

/-- R70 and R14: a read of a leaf's event counter at its offset of the global, time, port or trigger block falls on an edge of the time clock; it
answers the count as it stood before that edge's events, with `OVF` above it, and clears both, so that an event of the edge is counted from zero;
another counter keeps its count. -/
def Obligations.CounterReadClears : Prop :=
  ∀ (a : Nat) (w : Word) (poison : Bool), a % 8 = 0 →
    ∃ f : Leaf → Leaf,
      (∀ (s : State) (c : Ctr), leafRuns s.leaf = true → leafCtr s.leaf a = some c →
        exec (.registerWrite false a w poison) s = .next (s.withLeaf (leafTickWith f (leafHeld s.leaf)))) ∧
      ∀ (l : Leaf) (c : Ctr), leafCtr l a = some c → c.count < 2 ^ 32 →
        (f l).resp = respOk ∧ (f l).rdata.toNat = c.count + 2 ^ 32 * c.ovf.toNat ∧ leafCtr (f l) a = some {} ∧
        ∀ b, b ≠ a → b % 8 = 0 → leafCtr (f l) b = leafCtr l b

/-- R497: a write of `TRIG_CFG_k` that would make `MODE` 3, the width leave 10 to 10^9 ns, or, in mode 1, the width reach the period, is refused:
the register stays and `CFG_BAD` is set; in mode 2 so is one under which the held `TIME` would leave its range (the model's reading,
assumption 8), and one of `TRIG_TIME_k` that leaves it. One of `TRIG_PERIOD_k` outside 100 to 10^12 ns, or that the width would reach in mode 1,
likewise. -/
def Obligations.BadTriggerWritesRefused : Prop :=
  ∀ (s : State) (k : Nat) (w : Word), leafRuns s.leaf = true → k < 8 →
    (let t := leafTrig s.leaf k
     let mode := (BitVec.extractLsb' 1 2 w).toNat
     let width := (BitVec.extractLsb' 32 32 w).toNat
     let period := (BitVec.extractLsb' 0 48 w).toNat
     let refused := fun (off : Nat) => exec (.triggerWrite k off w) s = .next (s.withLeaf (setTrig s.leaf k { t with cfgBad := true }))
     ((mode = 3 ∨ width < 10 ∨ 1000000000 < width ∨ (mode = 1 ∧ t.periodNs ≤ width) ∨ (mode = 2 ∧ 1000000000 < t.time)) → refused 0) ∧
     (t.mode = 2 → 1000000000 < w.toNat → refused 8) ∧
     ((period < 100 ∨ 1000000000000 < period ∨ (t.mode = 1 ∧ period ≤ t.widthNs)) → refused 0x10))

/-- R500: a read of `CAP_POP_0` answers word 0 of the oldest entry and removes it; word 1, the input, and the entries left are held for the two
registers beside it, and the overrun interrupt re-arms at 32 entries or fewer (R501). From an empty queue it answers zero with `EMPTY`. -/
def Obligations.CapturePopTakesOldest : Prop :=
  ∀ s : State, leafRuns s.leaf = true →
    (s.leaf.caps.queue = [] → exec .capPopRead s = .next (s.withLeaf { s.leaf with
      caps := { s.leaf.caps with popEmpty := true, pop1 := 0#64, popLeft := 0 }, rdata := 0#64, resp := respOk })) ∧
    ∀ (x : CapEntry) (q : List CapEntry), s.leaf.caps.queue = x :: q →
      exec .capPopRead s = .next (s.withLeaf { s.leaf with
        caps := { s.leaf.caps with queue := q, pop1 := x.w1, popInput := x.input, popEmpty := false, popLeft := q.length,
                                   armed := s.leaf.caps.armed || decide (q.length ≤ 32) },
        rdata := x.w0, resp := respOk })

/-! ### Fencing -/

/-- R429: while the host is not fenced a write of `HEARTBEAT` arms or restarts the timer at `HB_TIMEOUT_US`; while it is fenced, or with a timeout
of 0 (the model's reading, assumption 21), it does nothing; a write of the timeout disarms, restarts an armed timer, or is counted; the timer runs on
the leaf's own clock, 1,280 edges to the µs, and at its expiry it is disarmed and the host fenced; an unarmed one never expires; a leaf reset, and an
unfence that is accepted, leave it disarmed. -/
def Obligations.HeartbeatTimer : Prop :=
  ∀ s : State, leafRuns s.leaf = true →
    (let l := s.leaf
     let f := l.fence
     let is : Fence → State := fun g => s.withLeaf { l with fence := g }
     (f.fenced = false → f.hbTimeout ≠ 0 → exec .heartbeat s = .next (is { f with hbArmed := true, hbStart := l.time.edges })) ∧
     (f.fenced = true ∨ f.hbTimeout = 0 → exec .heartbeat s = .next (is f)) ∧
     exec (.hbTimeoutWrite 0) s = .next (is { f with hbTimeout := 0, hbArmed := false }) ∧
     (∀ v, 10 ≤ v → v ≤ 10000000 →
        exec (.hbTimeoutWrite v) s = .next (is { f with hbTimeout := v, hbStart := if f.hbArmed then l.time.edges else f.hbStart })) ∧
     (∀ v, (1 ≤ v ∧ v ≤ 9) ∨ 10000000 < v → exec (.hbTimeoutWrite v) s = .next (is { f with hbBad := ctrInc f.hbBad })) ∧
     (f.hbArmed = true → ∃ m, leafHbExpire l = m ∧ m.fence.hbArmed = false ∧ m.fence.fenced = true ∧
        m.fence.causes.testBit 0 = true ∧ f.hbStart + f.hbTimeout * 1280 ≤ m.time.edges ∧
        exec .heartbeatExpire s = .next (s.withLeaf (testRetry m))) ∧
     (f.hbArmed = false → leafHbExpire l = l) ∧
     (∃ t, exec .leafReset s = .next t ∧ t.leaf.fence.hbArmed = false) ∧
     (unfenceOk l = true → ∃ t, exec .unfence s = .next t ∧ t.leaf.fence.hbArmed = false))

/-- R434: a write of `UNFENCE` is accepted when the drain is complete, both inputs are deasserted, `MGMT` is no cause and no cause fell on this hub
edge: every cause is cleared, the heartbeat left disarmed and the fence lifted. Any other changes nothing and is counted. A management release
takes `MGMT` alone from the causes and lifts nothing. -/
def Obligations.UnfenceWhenCausesAreGone : Prop :=
  ∀ s : State, leafRuns s.leaf = true →
    (let l := s.leaf
     let f := l.fence
     (f.draining = false → f.pinReset = false → f.pinFence = false → f.causes.testBit 3 = false → f.causeEdge ≠ some l.time.edges →
        ∃ m, exec .unfence s = .next (s.withLeaf m) ∧
          Leaf.raised { l with fence := { f with fenced := false, causes := 0, first := 0, hbArmed := false, injected := false } } m) ∧
     ((f.draining = true ∨ f.pinReset = true ∨ f.pinFence = true ∨ f.causes.testBit 3 = true ∨ f.causeEdge = some l.time.edges) →
        exec .unfence s = .next (s.withLeaf { l with fence := { f with unfenceRefused := ctrInc f.unfenceRefused } })) ∧
     (∃ c, leafMgmtRelease l = { l with fence := { f with causes := c } } ∧ ∀ b, c.testBit b = (f.causes.testBit b && decide (b ≠ 3))))

/-- R428: a cause c adds its bit to `FENCE_CAUSES`; the first fences the host and starts the drain, and another on the same hub edge leaves
`FIRST_CAUSE` the lower code; a fenced host's arrival is refused with `FENCED` (0x28) and counted, and changes nothing else. -/
def Obligations.FenceCausesAccumulate : Prop :=
  (∀ (l : Leaf) (c : Nat), 1 ≤ c → c ≤ 5 →
    (let f := l.fence
     let g := (leafFence c l).fence
     g.fenced = true ∧ g.causes = f.causes ||| 2 ^ (c - 1) ∧ g.causeEdge = some l.time.edges ∧
     (f.fenced = false → g.first = c ∧ g.fencedAt = (if l.time.valid then l.time.ns else 0) ∧ g.draining = true ∧ g.fencedEdge = l.time.edges ∧ g.count = ctrInc f.count) ∧
     (f.fenced = true → leafFence c l = { l with fence := { f with
        causes := f.causes ||| 2 ^ (c - 1), causeEdge := some l.time.edges,
        first := if f.fencedEdge = l.time.edges then (if f.first ≤ c then f.first else c) else f.first } }))) ∧
  ∀ (s : State) (k pay : Nat) (freq : Bool), leafRuns s.leaf = true → k < 32 → s.leaf.fence.fenced = true →
    exec (.arrive k pay freq) s = .next (s.withLeaf (updSlot
      { s.leaf with fence := { s.leaf.fence with refusals := ctrInc s.leaf.fence.refusals } } k (fun y => { y with arriveOutcome := 0x28 })))

/-! ### Edge measurement and taps -/

/-- R104, R108 and R111: a start and a later stop of a TDC that is in service and idle measure C × 51,200 + r_start − r_stop, C the time-clock edges
between them, each residual from the edge's fine code, the ones of its 256 taps limited to 255; the result is valid with both interpolators locked.
A start while it measures, or one met by a test edge (R117), is counted as busy and ignored; a stop while it is idle is counted as stray. -/
def Obligations.TdcMeasuresTheInterval : Prop :=
  ∀ (n : Nat) (t0 t1 : TimeCore) (x0 x1 : EdgeIn) (d : Tdc),
    d.outOfService = false → d.stampMode = false → d.measuring = false → inDead d.deadStart t0.edges = false → inDead d.deadStop t0.edges = false →
    x0.rising = true → 1000 ≤ x0.heldPs → x0.test = false → x1.rising = true → 1000 ≤ x1.heldPs → x1.test = false →
    t0.edges ≤ t1.edges → t1.edges - t0.edges < 2 ^ 32 → x0.ones ≤ 256 → x1.ones ≤ 256 →
    (let k0 := if x0.ones < 255 then x0.ones else 255
     let k1 := if x1.ones < 255 then x1.ones else 255
     let r0 := residual d.tabStart k0
     let r1 := residual d.tabStop k1
     let c := t1.edges - t0.edges
     let b := tdcStart t0 x0 d
     let e := tdcStop n t1 x1 b
     (r1 ≤ c * 51200 + r0 →
       ((e.result.value : Int) = c * 51200 + r0 - r1 ∧ e.measuring = false ∧ e.result.overflow = false ∧
        e.result.fineStart = k0 ∧ e.result.fineStop = k1 ∧ e.result.valid = (d.lockStart && d.lockStop))) ∧
     b.measuring = true ∧ tdcStart t1 x1 b = { b with busyCtr := ctrInc b.busyCtr } ∧
     tdcStart t0 { x0 with test := true } d = { d with busyCtr := ctrInc d.busyCtr } ∧
     tdcStop n t0 x0 d = { d with strayCtr := ctrInc d.strayCtr })

/-- R84, R86 and R89: the launches a tap holds stay in ascending slot order however they arrive, and within one slot in ascending order of fire time; an
edge that none is due on fires none and is counted; any other fires exactly one, whose slot number is the lowest of those due, as late where it fell
due while the clock was stopped, leaves the rest for later edges, and begins the region's count anew, whatever was stretched before it. -/
def Obligations.LaunchesFireInSlotOrder : Prop :=
  ∀ (t : Tap) (stamp : Nat), t.fires.Pairwise (fun a b => a.slot < b.slot ∨ (a.slot = b.slot ∧ a.at_ ≤ b.at_)) →
    (∀ f, (insFire f t.fires).Pairwise (fun a b => a.slot < b.slot ∨ (a.slot = b.slot ∧ a.at_ ≤ b.at_)) ∧ (insFire f t.fires).Perm (f :: t.fires)) ∧
    ((∀ f ∈ t.fires, stamp < f.at_ * 65536) → (tapEdge stamp t).fires = t.fires ∧ (tapEdge stamp t).strobe = none ∧
      (tapEdge stamp t).regionCount = (if t.regionCount + 1 ≤ 0xFFFFFFFF then t.regionCount + 1 else 0xFFFFFFFF)) ∧
    ((∃ f ∈ t.fires, f.at_ * 65536 ≤ stamp) →
      ∃ f ∈ t.fires, f.at_ * 65536 ≤ stamp ∧ (∀ h ∈ t.fires, h.at_ * 65536 ≤ stamp → f.slot ≤ h.slot) ∧
        (let held := if t.clkStopped then t.fires.map (fun h => { h with past := h.past || decide (h.at_ * 65536 ≤ stamp) }) else t.fires
         let g : TapFire := { f with past := f.past || t.clkStopped }
         (tapEdge stamp t).fires = held.erase g ∧ (tapEdge stamp t).regionCount = 0 ∧
         ∃ b, (tapEdge stamp t).strobe = some b ∧ b.slot = f.slot ∧ b.branch = f.branch ∧ b.skipped = f.skipped ∧ (g.past = true → b.late = true)))

/-! ### Granule code and frames -/

/-- A granule that the code writes under a fold is read back under it: 288 bits, the data in the low 256, outcome `CLEAN`; written with the
poison mask, outcome `POISONED` (R363, R366, R367, R369). -/
def Obligations.GranuleCodeRoundTrip : Prop :=
  ∀ d f : Nat, d < 2 ^ 256 → f < 2 ^ 40 →
    (∀ p, rsEncode d f p < 2 ^ 288 ∧ rsEncode d f p % 2 ^ 256 = d) ∧
    rsOutcome (rsEncode d f false) f = .clean ∧ rsOutcome (rsEncode d f true) f = .poisoned

/-- Every error in one stored symbol, of a granule written clean or poisoned, is corrected at its place with its value, and the granule then is as it
was written; every error in one fold symbol is `MISDIRECTED` (R366, R367). -/
def Obligations.OneSymbolErrorsCorrected : Prop :=
  ∀ (d f v : Nat) (poison : Bool), d < 2 ^ 256 → f < 2 ^ 40 → 1 ≤ v → v < 256 →
    (∀ p, p ≤ 35 → (let g := Nat.xor (rsEncode d f poison) (v <<< rsPosBit p)
       let o := if poison then CodeOutcome.poisonedCorrected p v else CodeOutcome.corrected p v
       rsOutcome g f = o ∧ rsCorrect g o = rsEncode d f poison)) ∧
    (∀ m, m < 5 → rsOutcome (rsEncode d f poison) (Nat.xor f (v <<< (8 * m))) = .misdirected)

/-- A frame goes over the line and is read back: descrambled, its CRC agrees and every field is as it was (R124 to R126). -/
def Obligations.FrameRoundTrip : Prop :=
  ∀ F : Frame, F.ftype < 16 → F.vc < 4 → F.seqPar < 4 → F.gran < 2 ^ 288 → F.creditVc < 4 → F.creditCount < 16 →
    frameCrcOk (scramble (frameLine F).toNat) = true ∧ frameOf (scramble (frameLine F).toNat) = F

/-! ### Time and references -/

/-- A forward step whose notice a unit holds: until T_s it waits; on the edge on which time reaches T_s the time core moves on by Δ, so that no time of
the skipped interval [T_s, T_s + Δ) is ever read; the step is recorded and its event carries T_s, Δ and the source (R57, R64, R591). -/
def Obligations.ForwardStepSkipsTheInterval : Prop :=
  ∀ (t : TimeCore) (n : Notice), t.pendPod = some n → t.slewing = false → n.target = .podTime → 0 ≤ n.delta →
    (t.acc < accOfNs n.at_ → stepInstant t = (t, [])) ∧
    (accOfNs n.at_ ≤ t.acc → t.acc + n.delta.toNat * 2 ^ 24 ≤ accMax →
      (let r := stepInstant t
       r.1.acc = t.acc + n.delta.toNat * 2 ^ 24 ∧ r.1.pendPod = none ∧ r.1.applied = (n :: t.applied).take 4 ∧ r.1.utcOffset = t.utcOffset ∧
       r.1.stepCount = (if serHigher n.count t.stepCount then n.count else t.stepCount) ∧
       r.2 = [{ ev := .stepApplied, vals := [n.at_, ofSigned 64 n.delta, n.src] }])) ∧
    (t.acc < accOfNs n.at_ → (∀ m ∈ t.pendUtc, m.target = .utc) →
      (let x := (timeTick t).1
       x.acc < accOfNs n.at_ ∨ x.acc = accMax ∨ accOfNs n.at_ + n.delta.toNat * 2 ^ 24 ≤ x.acc))

/-- R198: of the eligible references the best has the lowest `PRIORITY`; among equal priorities it is the selected one if that is among them, and
the lowest index otherwise; there is a best one exactly when one is eligible. -/
def Obligations.BestReferenceIsTheLowestPriority : Prop :=
  ∀ c : ChanClock,
    (∀ r, bestOf c (List.range 4) = some r →
      r < 4 ∧ eligible c r = true ∧
      ∀ q, q < 4 → eligible c q = true → q ≠ r →
        (refAt c r).priority < (refAt c q).priority ∨
        ((refAt c r).priority = (refAt c q).priority ∧ (c.sel.selected = some r ∨ (c.sel.selected ≠ some q ∧ r < q)))) ∧
    (bestOf c (List.range 4) = none ↔ ∀ q, q < 4 → eligible c q = false) ∧
    (∀ r, r < 4 → (eligible c r = true ↔ isMill c = true ∧ ((refAt c r).state = .qualified ∨ (refAt c r).state = .selected) ∧
      1 ≤ (refAt c r).priority ∧ extBacked c r = true))

/-- R215 and R217: a write of one field of an output's configuration takes it when the configuration is then in the ranges of R211 and R213, and what is
in effect not yet; otherwise the field is unchanged and counted in `OUT_CFG_BAD`. A write of several fields takes each or leaves it, keeps a sound
configuration sound, and counts one for each that it leaves (in the order of the table, the model's reading, assumption 46). An output drives only
while pod time is valid, and as its squelch policy allows. -/
def Obligations.OutputsChangeInRangeOnly : Prop :=
  ∀ (n : Nat) (g : OutCfg) (c : ChanClock),
    (let o := (outAt c n).cfg
     let d := outWrite n g c
     let h := (outAt d n).cfg
     ((g = { o with enable := g.enable } ∨ g = { o with src := g.src } ∨ g = { o with squelch := g.squelch } ∨ g = { o with widthNs := g.widthNs } ∨
        g = { o with period := g.period } ∨ g = { o with offset := g.offset }) → g ≠ o →
       (outCfgOk n g = false → d = setOut c n { outAt c n with cfgBad := ctrAdd (outAt c n).cfgBad 1 }) ∧
       (outCfgOk n g = true → h = g ∧ (outAt d n).changedAt = some c.time.ns ∧ (outAt d n).cfgBad = ctrAdd (outAt c n).cfgBad 0)) ∧
     ((h.enable = g.enable ∨ h.enable = o.enable) ∧ (h.src = g.src ∨ h.src = o.src) ∧ (h.squelch = g.squelch ∨ h.squelch = o.squelch) ∧
      (h.widthNs = g.widthNs ∨ h.widthNs = o.widthNs) ∧ (h.period = g.period ∨ h.period = o.period) ∧ (h.offset = g.offset ∨ h.offset = o.offset)) ∧
     (outCfgOk n o = true → outCfgOk n h = true) ∧ (∃ k ≤ 6, (outAt d n).cfgBad = ctrAdd (outAt c n).cfgBad k ∧ (k = 0 ↔ h = g)) ∧
     (outAt d n).now = (outAt c n).now ∧ ∀ k, k ≠ n → outAt d k = outAt c k) ∧
    (c.time.valid = false → outDrives c (outAt c n) = false) ∧
    ((outAt c n).now.squelch = 2 → outDrives c (outAt c n) = true → chanSrcState c = 0) ∧
    ((outAt c n).now.squelch = 1 → outDrives c (outAt c n) = true → chanSrcState c = 0 ∨ chanSrcState c = 1)

/-! ### Addresses, sheaves, reduction -/

/-- R27 and R28: the FPA of a channel, and the one it gives below, hold the domain in bit 31, the role in 30:29, and the indices that the role
has in 28:25, 24:19 and 18:11, the rest zero. -/
def Obligations.AddressesHoldTheirIndices : Prop :=
  ∀ (c : Chan) (y b p : Nat), c.clk.domain < 2 → c.yard = some y → c.barn = some b → y < 16 → b < 64 →
    (c.clk.role = 1 → chanFpa c = 2 ^ 31 * c.clk.domain + 2 ^ 29 * 1 + 2 ^ 25 * y + 2 ^ 19 * b ∧
       (p < 256 → childFpa c p = 2 ^ 31 * c.clk.domain + 2 ^ 25 * y + 2 ^ 19 * b + 2 ^ 11 * p ∧ fpaPort (childFpa c p) = p ∧
         fpaYard (childFpa c p) = y ∧ fpaBarn (childFpa c p) = b ∧ fpaRole (childFpa c p) = 0)) ∧
    (c.clk.role = 2 → chanFpa c = 2 ^ 31 * c.clk.domain + 2 ^ 29 * 2 + 2 ^ 25 * y ∧
       (p < 256 → childFpa c p = 2 ^ 31 * c.clk.domain + 2 ^ 29 * 1 + 2 ^ 25 * y + 2 ^ 19 * (p / 4))) ∧
    (c.clk.role = 3 → chanFpa c = 2 ^ 31 * c.clk.domain + 2 ^ 29 * 3 ∧
       (p < 256 → childFpa c p = 2 ^ 31 * c.clk.domain + 2 ^ 29 * 2 + 2 ^ 25 * (p / 16)))

/-- R35 and R36: the rank table's answer to a join for a sheaf that is forming or suspended, whose program, count and slot agree: a rank from N on is
refused; a bound rank answers its own serial with a repeat, another with `RANK_TAKEN`; a fenced or lost member's rank is bound again; a serial that
holds another rank is refused; a vacant rank is bound. -/
def Obligations.RankTableBindsOnce : Prop :=
  ∀ (s : Sheaf) (j : JoinMsg), (s.state = .forming ∨ s.state = .suspended) → joinDiff s j = 0 → j.resumeValid = false →
    (let other := s.members.any (fun m => decide (m.serial = j.serial) && decide (m.rank ≠ j.rank))
     (s.n ≤ j.rank → bindJoin s j = { sheaf := s, out := 0x10 }) ∧
     (j.rank < s.n → memberOf s j.rank = none →
       (other = true → bindJoin s j = { sheaf := s, out := 0x12 }) ∧
       (other = false → ∃ m, m.rank = j.rank ∧ m.serial = j.serial ∧ m.fpa = j.fpa ∧ m.otherFpa = j.otherFpa ∧
          m.state = (if s.state = .forming then .joined else .rebound) ∧
          bindJoin s j = { sheaf := { s with members := s.members ++ [m] }, out := 0, fresh := true })) ∧
     (∀ m, j.rank < s.n → memberOf s j.rank = some m → m.state ≠ .fenced → m.state ≠ .lost →
       (m.serial = j.serial → (bindJoin s j).out = 1 ∧ (bindJoin s j).fresh = false ∧
          (bindJoin s j).sheaf.members.map (fun x => (x.rank, x.serial, x.state)) = s.members.map (fun x => (x.rank, x.serial, x.state))) ∧
       (m.serial ≠ j.serial → bindJoin s j = { sheaf := s, out := 0x11 })) ∧
     (∀ m, j.rank < s.n → memberOf s j.rank = some m → (m.state = .fenced ∨ m.state = .lost) → other = false →
       (bindJoin s j).fresh = true ∧ (bindJoin s j).out = 0 ∧
       ∃ x, memberOf (bindJoin s j).sheaf j.rank = some x ∧ x.serial = j.serial ∧ x.fpa = j.fpa ∧ x.otherFpa = j.otherFpa ∧ x.state = .rebound))

/-- R262: contributions may be combined in any order and grouping. For every format and operation, reducing a list of contributions (rank and
pattern) from the empty lane gives the same lane in any order, and the same when two parts are reduced apart and merged; the rank too where the
operation returns it. -/
def Obligations.ReductionOrderFree : Prop :=
  ∀ f op : Nat, f ≤ 12 → op ≤ 8 →
    (let red := fun (cs : List (Nat × Nat)) => cs.foldl (fun a c => laneAdd f op c.1 a c.2) ({} : Lane)
     let alike := fun (a b : Lane) => { b with rank := a.rank } = a ∧ (isArg op = true → b.rank = a.rank)
     ∀ cs ds : List (Nat × Nat), (∀ c ∈ cs ++ ds, c.2 < 2 ^ fmtBits f) →
       (cs.Perm ds → alike (red cs) (red ds)) ∧
       (cs ++ ds ≠ [] → alike (red (cs ++ ds)) (laneMerge f op (red cs) (red ds))))

/-! ### Granary and history -/

/-- A record takes the next `LEDGER_SEQ` and, in the ring, joins the newest; the ring then holds the longest run of newest records that fit its capacity,
so that the oldest are evicted first (R334, R338, R348, R69). -/
def Obligations.RingEvictsOldestFirst : Prop :=
  ∀ (c : Chan) (typ tag rc : Nat) (body : List Gran) (size : Nat),
    (let d := (recWriteAt c typ tag rc body true size).1
     let bytes := fun (l : List Rec) => (l.map (fun r => 32 * r.grans.length)).sum
     ∃ r k, r.seq = c.gran.nextSeq ∧ r.tag = tag ∧ r.typ = typ ∧ r.grans.tail = body ∧
       d.gran.recs = (r :: c.gran.recs).take k ∧ bytes d.gran.recs ≤ ringBytes c ∧
       (k ≤ c.gran.recs.length → ringBytes c < bytes ((r :: c.gran.recs).take (k + 1))) ∧
       d.gran.nextSeq = (if c.gran.nextSeq + 1 ≤ 2 ^ 64 - 1 then c.gran.nextSeq + 1 else 2 ^ 64 - 1))

/-- R536: `LOG_READ` answers whole records, in ascending `LEDGER_SEQ` as they were written, from the first one asked for, as many as the limit holds;
`MORE` says exactly that some were left out. -/
def Obligations.LogReadAnswersWholeRecords : Prop :=
  ∀ (area tag first limit : Nat) (c : Chan),
    (let l := ((logArea area tag c).filter (fun r => decide (first ≤ r.seq))).reverse
     let r := runLogRead area tag first limit c
     r.unit = c ∧ r.status = 0 ∧ ∃ k ≤ l.length,
       r.body = (l.take k).flatMap recAll ∧ r.body.length ≤ limit ∧ (r.more = true ↔ k < l.length) ∧
       (k < l.length → limit < ((l.take (k + 1)).flatMap recAll).length))

/-- R415: the errors of a site that the history does not hold: the first makes it TRANSIENT, a second within 24 h of it SUSPECT, and a third within
24 h of the first PERMANENT; an error later than that keeps the class. -/
def Obligations.ThreeErrorsInADayMakePermanent : Prop :=
  ∀ (cap path t1 t2 t3 i : Nat) (h : History), path ≠ 0 → histFind path h.entries = none → h.vol.find? (fun e => decide (e.path = path)) = none →
    histFree cap h.entries = some i →
    (let day := 86400 * 1000000000
     let r1 := histError cap path t1 h
     let r2 := histError cap path t2 r1.1
     let r3 := histError cap path t3 r2.1
     r1.2 = (0, 1) ∧
     r2.2 = (1, if t2 ≤ t1 + day then 2 else 1) ∧
     r3.2 = (if t2 ≤ t1 + day then (2, if t3 ≤ t1 + day then 3 else 2) else (1, if t3 ≤ t2 + day then 2 else 1)) ∧
     tabGet {} r3.1.entries i = { path := path, cls := r3.2.2, total := 3, tLast := t3, tPrev := t2 })

/-! ### Management and the module -/

/-- R437: a fresh command that ran is held under its ID; the same request again runs nothing and gets the held answer as a repeat, and one with
other arguments is refused with `ID_CONFLICT` (0x0003), neither changing the channel. -/
def Obligations.CommandsRunOnce : Prop :=
  ∀ (cmd id : Nat) (g : Gate) (force : Bool) (body : Bytes) (run : Chan → Ran) (c : Chan), id ≠ 0 →
    (let args : MgmtArgs := { cmd := cmd, force := force, body := body }
     ∀ bad, (heldOf id args c.answers = .fresh → generalStatus g bad c ≠ 4 →
       (let r := chanCommand cmd g bad id force body run c
        r.2 = .held false ∧ ∀ bad' run' g', chanCommand cmd g' bad' id force body run' r.1 = (r.1, .held true))) ∧
     (∀ a, c.answers.find? (fun x => decide (x.id = id)) = some a →
       (a.args = args → chanCommand cmd g bad id force body run c = (c, .held true)) ∧
       (a.args ≠ args → chanCommand cmd g false id force body run c = (c, .now 3))))

/-- R440: a fresh `INJECT` with arguments of its kind, in a state that meets no general refusal, starts nothing where the image has `INJECT_OK` = 0
(`INJECT_DISABLED`), nor where it is not safe and not forced (`INJECT_UNSAFE`), nor where it is forced and the unit is not debug-unlocked
(`DEBUG_LOCKED`); which leaves are safe is the command's word (assumption 64). -/
def Obligations.UnsafeInjectionsRefused : Prop :=
  ∀ (id kind arg arg2 dur count : Nat) (force safe : Bool) (c : Chan), id ≠ 0 → c.answers.find? (fun x => decide (x.id = id)) = none →
    injArgsOk kind dur count = true → injTargetOk kind arg arg2 c = true → c.restart = none → c.start.phase ≠ 4 → c.sec.locked = false →
    (let d := (mgmtInject id kind arg arg2 dur count force safe c).1
     let refusedWith := fun (n : Nat) => d.inj = c.inj ∧ (d.answers.head?.map (fun a => (a.id, a.status))) = some (id, n)
     (force = true → c.sec.debugOn = false → refusedWith 7) ∧
     ((force = false ∨ c.sec.debugOn = true) → c.start.injectOk = false → refusedWith stInjectDisabled) ∧
     (force = false → c.start.injectOk = true → safe = false → refusedWith stInjectUnsafe) ∧
     ((safe = true ∨ force = true) → (force = false ∨ c.sec.debugOn = true) → c.start.injectOk = true → 1 ≤ kind → kind ≤ 7 →
        d.inj.length = c.inj.length + 1))

/-- R526: with a card, a ninth session is turned away; one that authenticates takes a free place below eight; closing one keeps the channel and
every answer; a session's seventeenth waiting request is answered `BUSY` (0x0004) and runs nothing. -/
def Obligations.SessionsAreLimited : Prop :=
  ∀ s : State, s.box.mod.card.present = true →
    (∀ ok addr, 8 ≤ s.box.mod.card.sessions.length → exec (.sessionOpen ok addr) s = .next s) ∧
    (∀ addr, s.box.mod.card.sessions.length < 8 → ∃ t p, exec (.sessionOpen true addr) s = .next t ∧ p < 8 ∧
       sessionAt s.box.mod.card p = none ∧ (sessionAt t.box.mod.card p).isSome = true ∧
       t.box.mod.card.sessions.length = s.box.mod.card.sessions.length + 1 ∧ t.box.chan = s.box.chan) ∧
    (∀ p, p < 8 → ∃ t, exec (.sessionClosed p) s = .next t ∧ t.box.chan = s.box.chan ∧ t.box.mod.card.answers = s.box.mod.card.answers ∧
       sessionAt t.box.mod.card p = none) ∧
    (∀ p cmd id force run, (sessionAt s.box.mod.card p).isSome = true → sessionFull p s.box.mod.card = true →
       (let b := askChan p cmd id force run s.box
        b.chan = { s.box.chan with passQ := [] } ∧
        ∃ x ∈ b.mod.card.sessions, x.place = p ∧ ∃ m ∈ x.out, m.kind = 1 ∧ m.cmd = cmd ∧ m.id = id ∧ m.status = 4))

/-- R544: what each of a feed's five events makes of its state; the other feed keeps its own. A feed is restored from every state but `REVERSED`,
which it leaves to `ABSENT` only, and a loss is counted. -/
def Obligations.FeedsFollowTheirStates : Prop :=
  ∀ (s : State) (f : Nat), f < 2 →
    (let st := fun (x : State) (k : Nat) => (feedAt x.box.mod k).state
     let gives := fun (i : Instr) (go : FeedState → FeedState) => ∃ t, exec i s = .next t ∧ st t f = go (st s f) ∧ st t (1 - f) = st s (1 - f)
     gives (.feedUsable f) (fun x => if x = .reversed then .reversed else .usable) ∧
     gives (.feedUndervolt f) (fun x => if x = .usable ∨ x = .absent then .undervolt else x) ∧
     gives (.feedOvervolt f) (fun x => if x = .usable ∨ x = .absent then .overvolt else x) ∧
     gives (.feedReversed f) (fun x => if x = .absent then .reversed else x) ∧
     gives (.feedAbsent f) (fun x => if x = .usable ∨ x = .undervolt ∨ x = .reversed then .absent else x) ∧
     ∃ t, exec (.feedUndervolt f) s = .next t ∧
       t.box.mod.feedLoss = (if st s f = .usable ∨ st s f = .absent then ctrInc s.box.mod.feedLoss else s.box.mod.feedLoss))

/-- R550: a trip takes a sled's supply and is counted; after the first the controller tries again once 1 s has passed on the module's clock (the
channel's own with its sled supplied, assumption 50), after the second it does not, until the sled is reseated. -/
def Obligations.SecondTripHoldsTheSledOff : Prop :=
  ∀ (s : State) (k : Nat), k < 2 → (sledAt s.box.mod k).powered = true →
    ∃ t, exec (.sledOvercurrent k) s = .next t ∧ (sledAt t.box.mod k).powered = false ∧ (sledAt t.box.mod k).starting = false ∧
      (sledAt t.box.mod k).trips = (sledAt s.box.mod k).trips + 1 ∧ t.box.mod.efuseTrip = ctrInc s.box.mod.efuseTrip ∧
      (2 ≤ (sledAt t.box.mod k).trips → exec (.sledTripRetry k) t = .next t) ∧
      ((sledAt s.box.mod k).trips = 0 → (sledAt s.box.mod k).present = true → (sledAt s.box.mod k).thermalOff = false → s.box.mod.busOn = true →
        ∃ u, exec (.sledTripRetry k) t = .next u ∧ (chanPowered t.box.mod = false → boxClock u.box = boxClock s.box + 1000000000) ∧
          (boxClock s.box + 1000000000 ≤ boxClock u.box → (sledAt u.box.mod k).starting = true)) ∧
      ((sledAt s.box.mod k).present = true → ∃ u, exec (.sledRemoved k) t = .next u ∧ (sledAt u.box.mod k).trips = 0 ∧
        (sledAt u.box.mod k).efuseOff = false)

/-! ### Flash and reset -/

/-- R515: an operation on the flash window, or a write to it, while one runs is refused with 0x04; `PROGRAM` meets 0x01, 0x02, 0x03 and 0x05 as its page
and a standing `LOCK` say, and else runs; a refused one shows its code and raises `FLASH_DONE`, and changes nothing else. The order in which
several conditions count is the table's (assumption 66). -/
def Obligations.FlashRefusals : Prop :=
  ∀ s : State, leafRuns s.leaf = true →
    (let l := s.leaf
     let a := l.fwin.page * 4096
     let refused := fun (i : Instr) (n : Nat) => ∃ m, exec i s = .next (s.withLeaf m) ∧ Leaf.raised { l with fwin := { l.fwin with result := n } } m
     (l.fwin.busy = true → refused .flashRead 4 ∧ refused .flashProgram 4 ∧ refused .flashTrimAdd 4 ∧ refused .flashStageDone 4) ∧
     (l.fwin.busy = false →
       ((a < 0x100000 ∨ 0xB00000 ≤ a) → refused .flashProgram 1) ∧
       (0x100000 ≤ a → a < 0x900000 → l.start.phase ≠ 4 → (l.start.copyB = true ↔ 0x500000 ≤ a) → refused .flashProgram 2) ∧
       (0x100000 ≤ a → a < 0x900000 → (l.start.phase = 4 ∨ ¬(l.start.copyB = true ↔ 0x500000 ≤ a)) → l.sec.locked = true → refused .flashProgram 3) ∧
       (0x900000 ≤ a → a < 0xB00000 → l.sec.locked = false → refused .flashProgram 5) ∧
       (0x100000 ≤ a → a < 0x900000 → (l.start.phase = 4 ∨ ¬(l.start.copyB = true ↔ 0x500000 ≤ a)) → l.sec.locked = false →
         ∃ m, exec .flashProgram s = .next (s.withLeaf m) ∧ m.fwin.busy = true ∧ m.fwin.op = 1 ∧ m.fwin.opPage = l.fwin.page ∧ m.start.flash = l.start.flash) ∧
       (l.sec.locked = true → refused .flashTrimAdd 3 ∧ refused .flashStageDone 3) ∧
       (∃ m, exec .flashRead s = .next (s.withLeaf m) ∧ m.fwin.busy = true ∧ m.fwin.op = 0 ∧ m.fwin.opPage = l.fwin.page)))

/-- R435 and R54: a leaf reset leaves the leaf in reset and dark, keeping the flash with the history in it, what is pending for the fuses, the levels
of the fence inputs and the model's own counter; pod time reads zero and is not valid; all else is as at reset. -/
def Obligations.LeafResetKeepsFlashOnly : Prop :=
  ∀ s : State, ∃ m : Leaf, exec .leafReset s = .next (s.withLeaf m) ∧
    m.time.acc = 0 ∧ m.time.valid = false ∧ m.inReset = true ∧ m.dark = true ∧ leafRuns m = false ∧
    m.slots = [] ∧ m.taps = [] ∧ m.tdcs = [] ∧ m.chans = [] ∧ m.port0 = {} ∧ m.port1 = {} ∧ m.ints = {} ∧ m.caps = {} ∧ m.capp = {} ∧
    m.fence = { pinReset := s.leaf.fence.pinReset, pinFence := s.leaf.fence.pinFence } ∧
    m.history = { entries := s.leaf.history.entries } ∧ m.start = { flash := s.leaf.start.flash, flashOk := s.leaf.start.flashOk }

/-- The machine at reset: pod times read zero and are not valid, no interrupt, event, record or command waits, nothing is fenced, the period of every
tap is 400,000 fs, `HB_TIMEOUT_US` is 10,000, every counter named here is zero (R54, R66, R101, R445, R522, R60), and every feed is usable with both
sleds supplied (the model's choice, assumption 50). -/
def Obligations.ResetState : Prop :=
  (let s := State.reset
   s.pending = [] ∧ s.leaf.time.acc = 0 ∧ s.leaf.time.valid = false ∧ s.leaf.time.stepCount = 0#16 ∧ s.box.chan.clk.time.acc = 0 ∧
   s.box.chan.clk.time.valid = false ∧ s.leaf.ints.fifo = [] ∧ s.leaf.ints.status0 = 0#64 ∧ s.leaf.ints.status1 = 0#64 ∧ s.leaf.ints.enable0 = 0#64 ∧
   s.leaf.ints.enable1 = 0#64 ∧ s.leaf.ints.globalEn = false ∧ s.leaf.fence.fenced = false ∧ s.leaf.fence.causes = 0 ∧ s.leaf.fence.hbTimeout = 10000 ∧
   (∀ t, (leafTap s.leaf t).periodNom = 400000 ∧ (leafTap s.leaf t).marginMin = 0xFFFF) ∧ s.leaf.slotCmdBad = {} ∧ s.leaf.lockedWrite = {} ∧
   s.box.chan.gran.recs = [] ∧ s.box.chan.shv.sheaves = [] ∧ s.box.chan.answers = [] ∧ s.box.mod.card.sessions = [] ∧
   (∀ f, (feedAt s.box.mod f).state = .usable) ∧ ∀ k, (sledAt s.box.mod k).powered = true)
end

