-- ==== Sys2Proof/Laws/Bits.lean ====
section
/-! SUPPORT. Fields of words: what a layout holds, and the bits that an accessor reads. -/
namespace Sys2Proof.Laws
open Sys2Proof.Machine

/-- A layout whose fields all lie at or above m is a multiple of 2^m. -/
theorem layNat_high (m : Nat) (fs : List Fld) (h : ∀ g ∈ fs, m ≤ g.lo) : ∃ q, layNat fs = q <<< m := by
  induction fs with
  | nil => exact ⟨0, by simp [layNat]⟩
  | cons f fs ih =>
    obtain ⟨q, hq⟩ := ih (fun g hg => h g (List.mem_cons_of_mem _ hg))
    have hf := h f (List.mem_cons_self)
    refine ⟨((f.v % 2 ^ f.w) <<< (f.lo - m)) ||| q, ?_⟩
    rw [Nat.shiftLeft_or_distrib, ← Nat.shiftLeft_add, Nat.sub_add_cancel hf, layNat, hq]
/-- Fields in rising order add up. -/
theorem layNat_add (f : Fld) (fs : List Fld) (h : ∀ g ∈ fs, f.lo + f.w ≤ g.lo) :
    layNat (f :: fs) = (f.v % 2 ^ f.w) * 2 ^ f.lo + layNat fs := by
  obtain ⟨q, hq⟩ := layNat_high _ fs h
  have hlt : (f.v % 2 ^ f.w) <<< f.lo < 2 ^ (f.lo + f.w) := by
    rw [Nat.shiftLeft_eq, Nat.pow_add, Nat.mul_comm]
    exact Nat.mul_lt_mul_of_pos_left (Nat.mod_lt _ (Nat.two_pow_pos _)) (Nat.two_pow_pos _)
  rw [layNat, hq, Nat.or_comm, ← Nat.shiftLeft_add_eq_or_of_lt hlt, Nat.add_comm, Nat.shiftLeft_eq (f.v % 2 ^ f.w)]
/-- One bit of a register word. -/
theorem wbit_eq (w : Word) (b : Nat) : wbit w b = w.getLsbD b := rfl
/-- A field of a register word. -/
theorem wf_eq (w : Word) (hi lo : Nat) : wf w hi lo = (BitVec.extractLsb' lo (hi + 1 - lo) w).toNat := by
  simp [wf, bitsOf, BitVec.extractLsb', Nat.shiftRight_eq_div_pow]
/-- A field of a granule. -/
theorem gf_eq (g : Gran) (hi lo : Nat) : gf g hi lo = (BitVec.extractLsb' lo (hi + 1 - lo) g).toNat := by
  simp [gf, bitsOf, BitVec.extractLsb', Nat.shiftRight_eq_div_pow]

end Sys2Proof.Laws
end

