-- ==== Sys2Proof/Laws/Code.lean ====
section
/-! SUPPORT. The granule code: its field, its remainder at the generator's roots, and what the syndromes of a written granule are. -/
namespace Sys2Proof.Laws
open Sys2Proof.Machine

/-- Twice an element of the field. -/
def gfDouble (x : Nat) : Nat := if x < 128 then 2 * x else Nat.xor (2 * x) 0x11D
theorem gfDouble_lt : ∀ x < 256, gfDouble x < 256 := by decide +kernel
theorem gfDouble_eq : ∀ x < 256, gfDouble x = (2 * x) ^^^ (if x.testBit 7 then 0x11D else 0) := by decide +kernel
theorem xor_lt256 {a b : Nat} (h : a < 256) (k : b < 256) : a ^^^ b < 256 := Nat.xor_lt_two_pow (n := 8) h k
theorem gfDouble_xor {a b : Nat} (h : a < 256) (k : b < 256) : gfDouble (a ^^^ b) = gfDouble a ^^^ gfDouble b := by
  rw [gfDouble_eq _ (xor_lt256 h k), gfDouble_eq a h, gfDouble_eq b k, Nat.testBit_xor]
  have : 2 * (a ^^^ b) = 2 * a ^^^ 2 * b := by
    have h1 := Nat.shiftLeft_xor_distrib (a := a) (b := b) (i := 1)
    simpa [Nat.shiftLeft_eq, Nat.mul_comm] using h1
  rw [this]
  cases a.testBit 7 <;> cases b.testBit 7 <;> simp [Nat.xor_assoc, Nat.xor_left_comm, Nat.xor_comm]
theorem gfMul_succ (n a b) : gfMul (n+1) a b = (if b % 2 = 1 then a else 0) ^^^ gfMul n (gfDouble a) (b / 2) := rfl
theorem gfMul_lt : ∀ n a b, a < 256 → gfMul n a b < 256
  | 0, _, _, _ => by simp [gfMul]
  | n+1, a, b, h => by
    rw [gfMul_succ]
    apply xor_lt256
    · split <;> omega
    · exact gfMul_lt n _ _ (gfDouble_lt a h)
theorem gfMul_xor : ∀ n a b c, a < 256 → b < 256 → gfMul n (a ^^^ b) c = gfMul n a c ^^^ gfMul n b c
  | 0, _, _, _, _, _ => by simp [gfMul]
  | n+1, a, b, c, h, k => by
    rw [gfMul_succ, gfMul_succ, gfMul_succ, gfDouble_xor h k, gfMul_xor n _ _ _ (gfDouble_lt a h) (gfDouble_lt b k)]
    split <;> simp [Nat.xor_assoc, Nat.xor_left_comm, Nat.xor_comm]
/-- An element times root j of the generator. -/
abbrev timesRoot (j x : Nat) : Nat := gfMul 8 x (gfPow j)
theorem timesRoot_lt (j) {x} (h : x < 256) : timesRoot j x < 256 := gfMul_lt _ _ _ h
theorem timesRoot_xor (j) {x y} (h : x < 256) (k : y < 256) : timesRoot j (x ^^^ y) = timesRoot j x ^^^ timesRoot j y := gfMul_xor _ _ _ _ h k
/-- A remainder of four symbols, read at root j. -/
def remAt (j : Nat) (r : Nat × Nat × Nat × Nat) : Nat := timesRoot j (timesRoot j (timesRoot j r.1)) ^^^ timesRoot j (timesRoot j r.2.1) ^^^ timesRoot j r.2.2.1 ^^^ r.2.2.2
theorem remAt_generator : ∀ j < 4, ∀ f < 256, remAt j (gfMul 8 f 0x0F, gfMul 8 f 0x36, gfMul 8 f 0x78, gfMul 8 f 0x40) = timesRoot j (timesRoot j (timesRoot j (timesRoot j f))) := by decide +kernel
/-- Four symbols of a byte each. -/
def Symbols4 (r : Nat × Nat × Nat × Nat) : Prop := r.1 < 256 ∧ r.2.1 < 256 ∧ r.2.2.1 < 256 ∧ r.2.2.2 < 256
theorem remAt_xor (j) {a b} (h : Symbols4 a) (k : Symbols4 b) : remAt j (a.1 ^^^ b.1, a.2.1 ^^^ b.2.1, a.2.2.1 ^^^ b.2.2.1, a.2.2.2 ^^^ b.2.2.2) = remAt j a ^^^ remAt j b := by
  obtain ⟨a1,a2,a3,a4⟩ := h; obtain ⟨b1,b2,b3,b4⟩ := k
  unfold remAt
  dsimp only
  rw [timesRoot_xor j a1 b1, timesRoot_xor j (timesRoot_lt j a1) (timesRoot_lt j b1), timesRoot_xor j (timesRoot_lt j (timesRoot_lt j a1)) (timesRoot_lt j (timesRoot_lt j b1)), timesRoot_xor j a2 b2, timesRoot_xor j (timesRoot_lt j a2) (timesRoot_lt j b2), timesRoot_xor j a3 b3]
  ac_rfl
theorem rsStep_symbols {r s} (h : Symbols4 r) (k : s < 256) : Symbols4 (rsStep r s) := by
  obtain ⟨a1,a2,a3,a4⟩ := h
  have hf := xor_lt256 k a1
  exact ⟨xor_lt256 a2 (gfMul_lt _ _ _ hf), xor_lt256 a3 (gfMul_lt _ _ _ hf), xor_lt256 a4 (gfMul_lt _ _ _ hf), gfMul_lt _ _ _ hf⟩
theorem remAt_rsStep (j) (hj : j < 4) {r s} (h : Symbols4 r) (k : s < 256) : remAt j (rsStep r s) = timesRoot j (remAt j r) ^^^ timesRoot j (timesRoot j (timesRoot j (timesRoot j s))) := by
  obtain ⟨r3, r2, r1, r0⟩ := r
  obtain ⟨a1,a2,a3,a4⟩ := h
  dsimp only at a1 a2 a3 a4
  have hf := xor_lt256 k a1
  have e : rsStep (r3, r2, r1, r0) s = (r2 ^^^ gfMul 8 (s ^^^ r3) 0x0F, r1 ^^^ gfMul 8 (s ^^^ r3) 0x36, r0 ^^^ gfMul 8 (s ^^^ r3) 0x78, 0 ^^^ gfMul 8 (s ^^^ r3) 0x40) := by
    simp only [Nat.zero_xor]; rfl
  have := remAt_xor j (a := (r2, r1, r0, 0)) (b := (gfMul 8 (s ^^^ r3) 0x0F, gfMul 8 (s ^^^ r3) 0x36, gfMul 8 (s ^^^ r3) 0x78, gfMul 8 (s ^^^ r3) 0x40))
    ⟨a2, a3, a4, by norm_num⟩ ⟨gfMul_lt _ _ _ hf, gfMul_lt _ _ _ hf, gfMul_lt _ _ _ hf, gfMul_lt _ _ _ hf⟩
  rw [e]; refine this.trans ?_
  rw [remAt_generator j hj _ hf]
  unfold remAt
  dsimp only
  rw [timesRoot_xor j k a1, timesRoot_xor j (timesRoot_lt j k) (timesRoot_lt j a1), timesRoot_xor j (timesRoot_lt j (timesRoot_lt j k)) (timesRoot_lt j (timesRoot_lt j a1)), timesRoot_xor j (timesRoot_lt j (timesRoot_lt j (timesRoot_lt j k))) (timesRoot_lt j (timesRoot_lt j (timesRoot_lt j a1)))]
  have x3 := timesRoot_lt j (timesRoot_lt j (timesRoot_lt j a1)); have x2 := timesRoot_lt j (timesRoot_lt j a2); have x1 := timesRoot_lt j a3
  rw [timesRoot_xor j (xor_lt256 (xor_lt256 x3 x2) x1) a4, timesRoot_xor j (xor_lt256 x3 x2) x1, timesRoot_xor j x3 x2, Nat.xor_zero]
  ac_rfl
theorem remAt_foldl (j) (hj : j < 4) : ∀ (l : List Nat), (∀ x ∈ l, x < 256) → ∀ (r : Nat × Nat × Nat × Nat) (A : Nat), Symbols4 r → A < 256 →
    remAt j r = timesRoot j (timesRoot j (timesRoot j (timesRoot j A))) →
    remAt j (l.foldl rsStep r) = timesRoot j (timesRoot j (timesRoot j (timesRoot j (l.foldl (fun acc s => Nat.xor (gfMul 8 acc (gfPow j)) s) A)))) ∧ Symbols4 (l.foldl rsStep r) ∧
      l.foldl (fun acc s => Nat.xor (gfMul 8 acc (gfPow j)) s) A < 256
  | [], _, r, A, h, k, e => ⟨e, h, k⟩
  | x :: l, hl, r, A, h, k, e => by
    simp only [List.foldl_cons]
    have hx := hl x (by simp)
    have hM := timesRoot_lt j k
    have hA : Nat.xor (gfMul 8 A (gfPow j)) x < 256 := xor_lt256 hM hx
    apply remAt_foldl j hj l (fun y hy => hl y (by simp [hy])) (rsStep r x) _ (rsStep_symbols h hx) hA
    rw [remAt_rsStep j hj h hx, e]
    show _ = timesRoot j (timesRoot j (timesRoot j (timesRoot j (timesRoot j A ^^^ x))))
    rw [timesRoot_xor j hM hx, timesRoot_xor j (timesRoot_lt j hM) (timesRoot_lt j hx), timesRoot_xor j (timesRoot_lt j (timesRoot_lt j hM)) (timesRoot_lt j (timesRoot_lt j hx)), timesRoot_xor j (timesRoot_lt j (timesRoot_lt j (timesRoot_lt j hM))) (timesRoot_lt j (timesRoot_lt j (timesRoot_lt j hx)))]
theorem rsHigh_lt (d f) : ∀ x ∈ rsHigh d f, x < 256 := by
  intro x hx
  unfold rsHigh at hx
  simp only [List.mem_append, List.mem_map, bitsOf] at hx
  rcases hx with ⟨m, -, rfl⟩ | ⟨m, -, rfl⟩
  · have : 8 * m + 7 + 1 - 8 * m = 8 := by omega
    rw [this]; exact Nat.mod_lt _ (by norm_num)
  · have : 8 * m + 7 + 1 - 8 * m = 8 := by omega
    rw [this]; exact Nat.mod_lt _ (by norm_num)
/-- the check symbols as a tuple, with any tuple xored in -/
theorem remAt_checked (d f j : Nat) (hj : j < 4) (c : Nat × Nat × Nat × Nat) (hc : Symbols4 c) :
   (let r := (rsHigh d f).foldl rsStep (0,0,0,0)
    (rsHigh d f ++ [r.1 ^^^ c.1, r.2.1 ^^^ c.2.1, r.2.2.1 ^^^ c.2.2.1, r.2.2.2 ^^^ c.2.2.2]).foldl (fun acc s => Nat.xor (gfMul 8 acc (gfPow j)) s) 0 = remAt j c) := by
  dsimp only
  have z : remAt j (0,0,0,0) = timesRoot j (timesRoot j (timesRoot j (timesRoot j 0))) := by interval_cases j <;> decide +kernel
  obtain ⟨e, ho, hA⟩ := remAt_foldl j hj (rsHigh d f) (rsHigh_lt d f) (0,0,0,0) 0 ⟨by norm_num, by norm_num, by norm_num, by norm_num⟩ (by norm_num) z
  rw [List.foldl_append]
  generalize (rsHigh d f).foldl rsStep (0,0,0,0) = r at *
  generalize (rsHigh d f).foldl (fun acc s => Nat.xor (gfMul 8 acc (gfPow j)) s) 0 = A at *
  obtain ⟨r3, r2, r1, r0⟩ := r
  obtain ⟨c3, c2, c1, c0⟩ := c
  have hx := remAt_xor j ho hc
  obtain ⟨a1,a2,a3,a4⟩ := ho
  obtain ⟨b1,b2,b3,b4⟩ := hc
  dsimp only at *
  simp only [List.foldl_cons, List.foldl_nil]
  have y3 := xor_lt256 a1 b1; have y2 := xor_lt256 a2 b2; have y1 := xor_lt256 a3 b3; have y0 := xor_lt256 a4 b4
  have m1 := timesRoot_lt j hA
  have : (timesRoot j (timesRoot j (timesRoot j (timesRoot j A ^^^ (r3 ^^^ c3)) ^^^ (r2 ^^^ c2)) ^^^ (r1 ^^^ c1)) ^^^ (r0 ^^^ c0)) = timesRoot j (timesRoot j (timesRoot j (timesRoot j A))) ^^^ remAt j (r3 ^^^ c3, r2 ^^^ c2, r1 ^^^ c1, r0 ^^^ c0) := by
    unfold remAt
    dsimp only
    have n1 := timesRoot_lt j m1
    have n2 := timesRoot_lt j y3
    rw [timesRoot_xor j m1 y3, timesRoot_xor j (xor_lt256 n1 n2) y2, timesRoot_xor j n1 n2]
    have n3 := timesRoot_lt j n1; have n4 := timesRoot_lt j n2; have n5 := timesRoot_lt j y2
    rw [timesRoot_xor j (xor_lt256 (xor_lt256 n3 n4) n5) y1, timesRoot_xor j (xor_lt256 n3 n4) n5, timesRoot_xor j n3 n4]
    ac_rfl
  refine this.trans ?_
  rw [hx, e]
  simp [← Nat.xor_assoc]
theorem bitsOf_check (d X c : Nat) (hd : d < 2^256) : bitsOf (d + 2^256 * X) (8*c+263) (8*c+256) = bitsOf X (8*c+7) (8*c) := by
  unfold bitsOf
  have e1 : 8*c+263+1-(8*c+256) = 8 := by omega
  have e2 : 8*c+7+1-8*c = 8 := by omega
  rw [e1, e2, Nat.shiftRight_eq_div_pow, Nat.shiftRight_eq_div_pow, Nat.pow_add, Nat.mul_comm (2^(8*c)), ← Nat.div_div_eq_div_mul]
  have e3 : (d + 2^256 * X) / 2^256 = X := by rw [Nat.add_mul_div_left _ _ (by norm_num), Nat.div_eq_of_lt hd, Nat.zero_add]
  rw [e3]
theorem bitsOf_symbols (r3 r2 r1 r0 : Nat) (h : Symbols4 (r3,r2,r1,r0)) : (let X := r0 + 0x100 * r1 + 0x10000 * r2 + 0x1000000 * r3
   X < 2^32 ∧ bitsOf X 31 24 = r3 ∧ bitsOf X 23 16 = r2 ∧ bitsOf X 15 8 = r1 ∧ bitsOf X 7 0 = r0) := by
  obtain ⟨a1,a2,a3,a4⟩ := h
  dsimp only at *
  simp only [bitsOf, Nat.shiftRight_eq_div_pow]
  norm_num
  refine ⟨?_, ?_, ?_, ?_, ?_⟩ <;> omega
theorem bitsOf_xor (a b hi lo) : bitsOf (a ^^^ b) hi lo = bitsOf a hi lo ^^^ bitsOf b hi lo := by
  simp only [bitsOf, Nat.shiftRight_xor_distrib, Nat.xor_mod_two_pow]
/-- The poison mask as symbols (R369). -/
def maskSymbols (p : Bool) : Nat × Nat × Nat × Nat := if p then (1, 7, 14, 8) else (0,0,0,0)
theorem rsSyndrome_encode (d f j : Nat) (hd : d < 2^256) (hj : j < 4) (p : Bool) : rsSyndrome (rsEncode d f p) f j = remAt j (maskSymbols p) ∧ rsEncode d f p < 2^288 ∧ rsEncode d f p % 2^256 = d := by
  have z : remAt j (0,0,0,0) = timesRoot j (timesRoot j (timesRoot j (timesRoot j 0))) := by interval_cases j <;> decide +kernel
  obtain ⟨-, ho, -⟩ := remAt_foldl j hj (rsHigh d f) (rsHigh_lt d f) (0,0,0,0) 0 ⟨by norm_num, by norm_num, by norm_num, by norm_num⟩ (by norm_num) z
  have hc : Symbols4 (maskSymbols p) := by cases p <;> (unfold maskSymbols Symbols4; decide)
  have hs := remAt_checked d f j hj (maskSymbols p) hc
  have e : rsEncode d f p = d + 2^256 * (rsCheck d f ^^^ (if p then poisonMask else 0)) := rfl
  have hm : rsEncode d f p % 2^256 = d := by rw [e, Nat.add_mul_mod_self_left, Nat.mod_eq_of_lt hd]
  dsimp only at hs
  generalize hr : (rsHigh d f).foldl rsStep (0,0,0,0) = r at *
  obtain ⟨r3, r2, r1, r0⟩ := r
  have ek : rsCheck d f = r0 + 0x100 * r1 + 0x10000 * r2 + 0x1000000 * r3 := by unfold rsCheck; rw [hr]
  obtain ⟨b, b3, b2, b1, b0⟩ := bitsOf_symbols r3 r2 r1 r0 ho
  refine ⟨?_, ?_, hm⟩
  · unfold rsSyndrome
    rw [hm]
    have el : (List.range 4).reverse.map (fun c => bitsOf (rsEncode d f p) (8*c+263) (8*c+256)) =
       [r3 ^^^ (maskSymbols p).1, r2 ^^^ (maskSymbols p).2.1, r1 ^^^ (maskSymbols p).2.2.1, r0 ^^^ (maskSymbols p).2.2.2] := by
      rw [e]
      simp only [bitsOf_check _ _ _ hd, bitsOf_xor, ek]
      have : (List.range 4).reverse = [3,2,1,0] := by decide +kernel
      rw [this]
      simp only [List.map_cons, List.map_nil]
      norm_num [b3, b2, b1, b0]
      cases p <;> (unfold maskSymbols; decide +kernel)
    rw [el]; exact hs
  · rw [e, ek]
    have : (r0 + 0x100 * r1 + 0x10000 * r2 + 0x1000000 * r3) ^^^ (if p then poisonMask else 0) < 2^32 := by
      apply Nat.xor_lt_two_pow b
      cases p <;> decide +kernel
    omega
theorem rsSingle_zero (s1 s2 s3) : ∀ n p, rsSingle 0 s1 s2 s3 n p = none
  | 0, _ => rfl
  | n+1, p => by unfold rsSingle; rw [if_neg (by simp)]; exact rsSingle_zero s1 s2 s3 n _

end Sys2Proof.Laws
end

