-- ==== Sys2Proof/Laws/Leaf.lean ====
section
/-! SUPPORT. The leaf: what raising, sending and closing captures leave of the fence and the time, and the order of a tap's launches. -/
namespace Sys2Proof.Laws
open Sys2Proof.Machine

theorem leafRaise_keeps (l : Leaf) (e) : (leafRaise l e).fence = l.fence ∧ (leafRaise l e).time = l.time := by
  unfold leafRaise
  split <;> exact ⟨rfl, rfl⟩
theorem setLeafPort_keeps (l : Leaf) (d p) : (setLeafPort l d p).fence = l.fence ∧ (setLeafPort l d p).time = l.time := by
  unfold setLeafPort; split <;> exact ⟨rfl, rfl⟩
theorem leafSend_keeps (l : Leaf) (d vc gs) : (leafSend l d vc gs).fence = l.fence ∧ (leafSend l d vc gs).time = l.time := setLeafPort_keeps _ _ _
theorem capSend_keeps (l : Leaf) (s d gs) : (capSend s d gs l).fence = l.fence ∧ (capSend s d gs l).time = l.time := setLeafPort_keeps _ _ _
theorem capSendBound_keeps (l : Leaf) (r f) : (capSendBound l r f).fence = l.fence ∧ (capSendBound l r f).time = l.time := by
  simp only [capSendBound, List.foldl_cons, List.foldl_nil]
  split <;> split <;> simp only [(capSend_keeps _ _ _ _).1, (capSend_keeps _ _ _ _).2, and_self]
theorem capEnd_keeps (r t a) (l : Leaf) : (capEnd r t a l).fence = l.fence ∧ (capEnd r t a l).time = l.time := by
  unfold capEnd
  have h := capSendBound_keeps l r (fun _ => capClose r t)
  dsimp only
  split
  · simp only [leafEv, (leafRaise_keeps _ _).1, (leafRaise_keeps _ _).2]; exact h
  · exact h
theorem capTearAll_keeps (l : Leaf) : (capTearAll l).fence = l.fence ∧ (capTearAll l).time = l.time := by
  unfold capTearAll
  generalize l.capp.open_ = q
  induction q generalizing l with
  | nil => exact ⟨rfl, rfl⟩
  | cons r q ih =>
    simp only [List.foldl_cons]
    have h := capEnd_keeps r true true l
    have h2 := ih (capEnd r true true l)
    exact ⟨h2.1.trans h.1, h2.2.trans h.2⟩

/-! ### Launches of a tap -/
theorem insFire_mem (f g : TapFire) (l : List TapFire) : g ∈ insFire f l ↔ g = f ∨ g ∈ l := by
  induction l with
  | nil => simp [insFire]
  | cons x xs ih =>
    unfold insFire; split
    · simp
    · simp [ih]; tauto
theorem insFire_sorted (f : TapFire) (l : List TapFire) (h : l.Pairwise (fun a b => a.slot ≤ b.slot)) :
   (insFire f l).Pairwise (fun a b => a.slot ≤ b.slot) ∧ (insFire f l).Perm (f :: l) := by
  induction l with
  | nil => simp [insFire]
  | cons x xs ih =>
    rw [List.pairwise_cons] at h
    unfold insFire
    split
    · rename_i hlt
      refine ⟨?_, List.Perm.refl _⟩
      rw [List.pairwise_cons, List.pairwise_cons]
      refine ⟨?_, h.1, h.2⟩
      intro b hb
      rcases List.mem_cons.1 hb with rfl | hb
      · omega
      · have := h.1 b hb; omega
    · rename_i hlt
      obtain ⟨i1, i2⟩ := ih h.2
      refine ⟨?_, (i2.cons x).trans (List.Perm.swap _ _ _)⟩
      rw [List.pairwise_cons]
      refine ⟨?_, i1⟩
      intro b hb
      rcases (insFire_mem _ _ _).1 hb with rfl | hb
      · omega
      · exact h.1 b hb
theorem find_lowestSlot {l : List TapFire} (h : l.Pairwise (fun a b => a.slot ≤ b.slot)) {p g} (e : l.find? p = some g) :
   ∀ f ∈ l, p f = true → g.slot ≤ f.slot := by
  induction l with
  | nil => simp at e
  | cons x xs ih =>
    rw [List.pairwise_cons] at h
    rw [List.find?_cons] at e
    split at e
    · cases e
      intro f hf _
      rcases List.mem_cons.1 hf with rfl | hf
      · exact Nat.le_refl _
      · exact h.1 f hf
    · rename_i hx
      intro f hf hp
      rcases List.mem_cons.1 hf with rfl | hf
      · rw [hp] at hx; cases hx
      · exact ih h.2 e f hf hp
theorem tapReplica_fires (b : Bool) (t : Tap) : (tapReplica b t).fires = t.fires := by
  unfold tapReplica
  split <;> rfl
/-- Counting an edge touches no launch. -/
theorem tapCount_fires (t : Tap) (stamp) : (tapCount stamp t).fires = t.fires ∧ (tapCount stamp t).strobe = none := by
  unfold tapCount
  dsimp only
  split <;> exact ⟨tapReplica_fires _ _, rfl⟩
/-- After a stop or not, the launches keep their slots and times. -/
theorem edgeFires_slots (stamp : Nat) (t : Tap) : (edgeFires stamp t).map (fun f => (f.slot, f.at_)) = t.fires.map (fun f => (f.slot, f.at_)) := by
  unfold edgeFires
  split
  · simp
  · rfl
theorem tapEdge_some {stamp t g} (h : dueFire stamp { tapCount stamp t with clkStopped := false, fires := edgeFires stamp t } = some g) :
    tapEdge stamp t = tapLaunch stamp g { tapCount stamp t with clkStopped := false, fires := edgeFires stamp t } := by
  unfold tapEdge; dsimp only at h ⊢; rw [h]

end Sys2Proof.Laws
end

