-- ==== Sys2Proof/Laws/Edges.lean ====
section
/-! SUPPORT. One edge of a leaf's time clock counts one edge and leaves the fence alone, whatever else it brings about; so a row that runs the
clock to an edge reaches it. -/
namespace Sys2Proof.Laws
open Sys2Proof.Machine

/-- The same edge count and the same fence. -/
def Still (l m : Leaf) : Prop := m.time.edges = l.time.edges ∧ m.fence = l.fence
theorem still_refl (l : Leaf) : Still l l := ⟨rfl, rfl⟩
theorem still_trans {l m n : Leaf} (h : Still l m) (k : Still m n) : Still l n := ⟨k.1.trans h.1, k.2.trans h.2⟩
theorem still_fold {α : Type} (f : Leaf → α → Leaf) (hf : ∀ l a, Still l (f l a)) (x : List α) : ∀ l, Still l (x.foldl f l) := by
  induction x with
  | nil => exact still_refl
  | cons a x ih => exact fun l => still_trans (hf l a) (ih _)
theorem still_raise (l : Leaf) (e) : Still l (leafRaise l e) := ⟨congrArg TimeCore.edges (leafRaise_keeps l e).2, (leafRaise_keeps l e).1⟩
theorem still_ev (l : Leaf) (e ix dt) : Still l (leafEv l e ix dt) := still_raise _ _
theorem still_all (es : List EvRec) (l : Leaf) : Still l (leafRaiseAll l es) := still_fold _ still_raise es l
theorem still_port (l : Leaf) (d p) : Still l (setLeafPort l d p) := ⟨congrArg TimeCore.edges (setLeafPort_keeps l d p).2, (setLeafPort_keeps l d p).1⟩
theorem still_dom (l : Leaf) (d x) : Still l (setLeafDom l d x) := by unfold setLeafDom; split <;> exact ⟨rfl, rfl⟩
theorem still_send (l : Leaf) (d vc gs) : Still l (leafSend l d vc gs) := still_port _ _ _
theorem still_report (l : Leaf) (gs) : Still l (leafReport l gs) := still_trans (still_send _ _ _ _) (still_send _ _ _ _)
theorem still_stamp (l : Leaf) : Still l (leafStampAll l) := by
  unfold leafStampAll
  exact still_trans (m := { l with tests := { l.tests with unsent := [] } }) ⟨rfl, rfl⟩ (still_fold _ (fun _ _ => still_report _ _) _ _)
theorem still_timed (old : TimeCore) (evs : List EvRec) (l : Leaf) : Still l (leafTimed old evs l) := by
  unfold leafTimed
  extract_lets new l0 j l1 l2 l3
  have h0 : Still l l0 := still_all _ _
  have h1 : Still l l1 := by
    unfold l1
    split
    · exact h0
    · exact still_trans h0 ⟨rfl, rfl⟩
  have h2 : Still l l2 := by
    unfold l2
    split
    · exact h1
    · exact still_trans (still_trans h1 (m := { l1 with triggers := tabMap {} (fun _ t => trigSet new.ns t) l1.triggers }) ⟨rfl, rfl⟩) (still_stamp _)
  have h3 : Still l l3 := by
    unfold l3
    split
    · split
      · exact h2
      · exact still_trans h2 ⟨rfl, rfl⟩
    · exact h2
  split
  · exact still_trans h3 ⟨rfl, rfl⟩
  · exact h3
/-- An operation of the time core that counts no edge. -/
theorem still_time (l : Leaf) (f : TimeCore → TimeCore × List EvRec) (h : (f l.time).1.edges = l.time.edges) : Still l (leafTime l f) := by
  unfold leafTime
  exact still_trans (m := { l with time := (f l.time).1 }) ⟨h, rfl⟩ (still_timed _ _ _)
theorem still_ite {p : Prop} [Decidable p] {l m n : Leaf} (h : Still l m) (k : Still l n) : Still l (if p then m else n) := by split <;> assumption
theorem still_then {l m n : Leaf} (k : Still m n) (h : Still l m) : Still l n := still_trans h k
theorem still_modelled (l : Leaf) (f d) : Still l (leafModelled l f d) := by
  unfold leafModelled
  exact still_ite (still_dom _ _ _) (still_refl _)
theorem still_switch (l : Leaf) (d free c) : Still l (leafSwitch l d free c) := by
  unfold leafSwitch
  dsimp only
  refine still_then (still_raise _ _) ?_
  refine still_then (m := setLeafDom (if l.tsel.sel = 2 - d then leafModelled l (leafDom l d).freq (1 - d) else l) d _) ⟨rfl, rfl⟩ ?_
  exact still_then (still_dom _ _ _) (still_ite (still_modelled _ _ _) (still_refl _))
theorem still_select (l : Leaf) (was) : Still l (leafSelect l was) := by
  unfold leafSelect
  simp only
  split
  · split
    · exact still_ev _ _ _ _
    · exact still_refl _
  · split
    · exact still_switch _ _ _ _
    · exact still_refl _
theorem still_domains (old l : Leaf) : Still l (leafDomains old l) := by
  unfold leafDomains
  exact still_trans (still_ite (still_time _ _ rfl) (still_refl _)) (still_select _ _)
theorem still_link (l : Leaf) (d) : Still l (leafLinkChanged l d) := by
  unfold leafLinkChanged
  extract_lets r l1 l2
  have h2 : Still l l2 := by
    unfold l2
    split
    · exact still_trans (still_dom _ _ _) (still_ev _ _ _ _)
    · exact still_dom _ _ _
  split
  · exact still_trans h2 (still_trans (still_ev _ _ _ _) (still_domains _ _))
  · exact still_trans h2 (still_domains _ _)
theorem still_resend (l : Leaf) (d) : Still l (leafResend l d) := by
  unfold leafResend
  apply still_fold
  intro l s
  apply still_ite
  · apply still_fold
    intro l g
    exact still_trans (still_send _ _ _ _) (still_send _ _ _ _)
  · exact still_refl _
theorem still_changed (d) (l : Leaf) : Still l (leafPortChanged d l) := by
  unfold leafPortChanged
  extract_lets l2 l3
  have h2 : Still l l2 := by
    refine still_trans (still_link l d) ?_
    unfold l2 leafFpa; simp only; split <;> exact ⟨rfl, rfl⟩
  have h3 : Still l l3 := still_trans h2 (by unfold l3; split <;> exact ⟨rfl, rfl⟩)
  split
  · exact still_trans h3 (still_resend _ _)
  · split
    · exact still_trans h3 ⟨rfl, rfl⟩
    · exact h3
theorem still_onPort (l : Leaf) (d f) : Still l (leafOnPort l d f) := still_then (still_all _ _) (still_port _ _ _)
theorem still_tdc (d) (l : Leaf) : Still l (leafOwnTdc d l) := ⟨rfl, rfl⟩
/-- Nothing a port does counts an edge or touches the fence. -/
theorem still_portDo (d f) (l : Leaf) : Still l (leafPortDo d f l) := by
  unfold leafPortDo
  dsimp only
  have h1 : Still l (leafOwnTdc d (setLeafPort (leafOnPort l d f) d (portMark l.time.edges (leafPort l d) (leafPort (leafOnPort l d f) d)))) :=
    still_then (still_tdc _ _) (still_then (still_port _ _ _) (still_onPort _ _ _))
  generalize leafOwnTdc d _ = m at h1 ⊢
  exact still_ite (still_trans h1 (still_changed _ _)) (still_ite (still_trans h1 (still_link _ _)) h1)
theorem still_frames (l : Leaf) : Still l (leafFrames l) := by
  unfold leafFrames
  exact still_ite (still_refl _) (still_fold _ (fun _ _ => still_portDo _ _ _) _ _)

/-! ### One edge -/
theorem andThen_edges (x : TimeCore × List EvRec) (f : TimeCore → TimeCore × List EvRec) (h : ∀ t, (f t).1.edges = t.edges) :
    (andThen x f).1.edges = x.1.edges := h _
/-- What a change of pod time forward, one back, and one of the UTC offset do to a time core (R57, R61, R63). -/
theorem applyNotice_forward {t : TimeCore} {n : Notice} (h : n.target = .podTime) (h2 : 0 ≤ n.delta) :
    applyNotice t n = ({ markApplied t n with acc := satN accMax (t.acc + n.delta.toNat * 2 ^ 24) }, [noticeEv .stepApplied n]) := by
  unfold applyNotice
  simp only [h, h2, if_true]
theorem applyNotice_back {t : TimeCore} {n : Notice} (h : n.target = .podTime) (h2 : ¬ 0 ≤ n.delta) :
    applyNotice t n = ({ markApplied t n with slews := t.slews ++ [(n, n.delta.natAbs * 2 ^ 24)] }, []) := by
  unfold applyNotice
  simp only [h, h2, if_false]
theorem applyNotice_utc {t : TimeCore} {n : Notice} (h : n.target = .utc) :
    applyNotice t n = ({ markApplied t n with utcOffset := t.utcOffset + n.delta }, [noticeEv .utcStepped n]) := by
  unfold applyNotice
  simp only [h]
theorem acc_edges (t : TimeCore) (a : Nat) (l : List EvRec) : (({ t with acc := a } : TimeCore), l).1.edges = t.edges := rfl
theorem slews_edges (t : TimeCore) (a) (l : List EvRec) : (({ t with slews := a } : TimeCore), l).1.edges = t.edges := rfl
theorem utc_edges (t : TimeCore) (a) (l : List EvRec) : (({ t with utcOffset := a } : TimeCore), l).1.edges = t.edges := rfl
theorem applyNotice_edges (t : TimeCore) (n) : (applyNotice t n).1.edges = t.edges := by
  cases ht : n.target with
  | utc => rw [applyNotice_utc ht]; exact utc_edges (markApplied t n) _ _
  | podTime =>
    by_cases hd : 0 ≤ n.delta
    · rw [applyNotice_forward ht hd]; exact acc_edges (markApplied t n) _ _
    · rw [applyNotice_back ht hd]; exact slews_edges (markApplied t n) _ _
theorem applyLate_edges (t : TimeCore) (n) : (applyLate t n).1.edges = t.edges := by
  unfold applyLate
  exact applyNotice_edges _ _
theorem slewEnd_edges (t : TimeCore) : (slewEnd t).1.edges = t.edges := by
  unfold slewEnd
  split
  · rfl
  · split
    · rfl
    · refine (andThen_edges _ _ ?_).trans rfl
      intro x
      split
      · split
        · exact applyLate_edges _ _
        · rfl
      · rfl
theorem stepInstant_edges (t : TimeCore) : (stepInstant t).1.edges = t.edges := by
  unfold stepInstant
  split
  · rfl
  · split
    · exact applyNotice_edges _ _
    · rfl
theorem notices_edges (l : List Notice) : ∀ x : TimeCore × List EvRec,
    (l.foldl (fun a m => andThen a (fun y => applyNotice y m)) x).1.edges = x.1.edges := by
  induction l with
  | nil => exact fun x => rfl
  | cons m l ih => exact fun x => (ih _).trans (andThen_edges _ _ (fun _ => applyNotice_edges _ _))
theorem utcInstant_edges (t : TimeCore) : (utcInstant t).1.edges = t.edges := notices_edges _ _
theorem timeSaturate_edges (t : TimeCore) : (timeSaturate t).1.edges = t.edges := by unfold timeSaturate; split <;> rfl
/-- An edge of a time core is counted once. -/
theorem timeTick_edges (t : TimeCore) : (timeTick t).1.edges = t.edges + 1 := by
  unfold timeTick
  rw [andThen_edges _ _ timeSaturate_edges, andThen_edges _ _ utcInstant_edges, andThen_edges _ _ stepInstant_edges, andThen_edges _ _ slewEnd_edges]
  rfl
theorem still_parts (l : Leaf) : Still l (leafParts l) := ⟨rfl, rfl⟩
/-- An edge on which `mid` acts is counted once, and touches the fence only by `mid`. -/
theorem tickWith_edges (mid : Leaf → Leaf) (h : ∀ l, Still l (mid l)) (l : Leaf) :
    (leafTickWith mid l).time.edges = l.time.edges + 1 ∧ (leafTickWith mid l).fence = l.fence := by
  have h1 : Still { l with time := (timeTick l.time).1 } (leafTickWith mid l) :=
    still_then (still_frames _) (still_then (still_parts _) (still_then (still_timed _ _ _) (h _)))
  exact ⟨h1.1.trans (timeTick_edges _), h1.2⟩
theorem tick_edges (l : Leaf) : (leafTick l).time.edges = l.time.edges + 1 ∧ (leafTick l).fence = l.fence := tickWith_edges id still_refl l
/-- Running the clock touches the fence nowhere. -/
theorem leafRun_fence (done : Leaf → Bool) (n : Nat) : ∀ l, (leafRun done n l).fence = l.fence := by
  induction n with
  | zero => exact fun l => rfl
  | succ n ih =>
    intro l
    unfold leafRun
    split
    · rfl
    · exact (ih _).trans (tick_edges l).2
theorem leafToEdge_fence (n) (l : Leaf) : (leafToEdge n l).fence = l.fence := leafRun_fence _ _ _
/-- A run to an edge reaches it. -/
theorem leafToEdge_reaches (n) (l : Leaf) : n ≤ (leafToEdge n l).time.edges := by
  unfold leafToEdge
  generalize hk : n - l.time.edges = k
  induction k generalizing l with
  | zero => unfold leafRun; omega
  | succ k ih =>
    unfold leafRun
    split
    · exact of_decide_eq_true ‹_›
    · refine ih _ ?_
      rw [(tick_edges l).1]; omega

end Sys2Proof.Laws
end

