-- ==== Sys2Proof/Laws/Log.lean ====
section
/-! SUPPORT. The granary's ring and LOG_READ: what keepFit and takeRecs take of a list of records. -/
namespace Sys2Proof.Laws
open Sys2Proof.Machine

theorem keepFit_spec : ∀ (l : List Rec) (cap : Nat), ∃ k ≤ l.length, keepFit cap l = l.take k ∧ ((l.take k).map (fun r => 32 * r.grans.length)).sum ≤ cap ∧
   (k < l.length → cap < ((l.take (k+1)).map (fun r => 32 * r.grans.length)).sum)
  | [], cap => ⟨0, by simp, by simp [keepFit], by simp, by simp⟩
  | r :: l, cap => by
    unfold keepFit
    split
    · rename_i h
      obtain ⟨k, hk, e, h1, h2⟩ := keepFit_spec l (cap - recBytes r)
      refine ⟨k+1, by simpa using hk, by simp [e], ?_, ?_⟩
      · simp only [List.take_succ_cons, List.map_cons, List.sum_cons]; unfold recBytes at *; omega
      · intro hl
        have := h2 (by simpa using hl)
        rw [List.take_succ_cons, List.map_cons, List.sum_cons]; unfold recBytes at *; omega
    · rename_i h
      refine ⟨0, by simp, by simp, by simp, ?_⟩
      intro _
      simp; unfold recBytes at h; omega
theorem granBytes_length (g : Gran) : (granBytes g).length = 32 := by
  unfold granBytes
  have : ∀ n v, (leBytes n v).length = n := by
    intro n; induction n with
    | zero => intro v; rfl
    | succ n ih => intro v; simp [leBytes, ih]
  exact this _ _
theorem recAll_length (r : Rec) : (recAll r).length = recBytes r := by
  unfold recAll recBytes
  induction r.grans with
  | nil => rfl
  | cons g l ih => simp only [List.flatMap_cons, List.length_append, granBytes_length, ih, List.length_cons]; omega
theorem takeRecs_spec : ∀ (l : List Rec) (n : Nat), ∃ k ≤ l.length, (takeRecs n l).1 = (l.take k).flatMap recAll ∧ (takeRecs n l).1.length ≤ n ∧
   ((takeRecs n l).2 = true ↔ k < l.length) ∧ (k < l.length → n < ((l.take (k+1)).flatMap recAll).length)
  | [], n => ⟨0, by simp, by simp [takeRecs], by simp [takeRecs], by simp [takeRecs], by simp⟩
  | r :: l, n => by
    unfold takeRecs
    split
    · rename_i h
      obtain ⟨k, hk, e, h1, h2, h3⟩ := takeRecs_spec l (n - recBytes r)
      refine ⟨k+1, by simpa using hk, by simp [e], ?_, by simpa using h2, ?_⟩
      · simp only [List.length_append, recAll_length]; omega
      · intro hl
        have := h3 (by simpa using hl)
        rw [List.take_succ_cons, List.flatMap_cons, List.length_append, recAll_length]; omega
    · rename_i h
      refine ⟨0, by simp, by simp, by simp, by simp, ?_⟩
      intro _
      simp [recAll_length]; omega
theorem findAnswer_head {id : Nat} {a : MgmtAnswer} {l} (h : a.id = id) : (a :: l).find? (fun x => decide (x.id = id)) = some a := by simp [h]

end Sys2Proof.Laws
end

