-- ==== Sys2Proof/Laws/Ops.lean ====
section
/-! SUPPORT. What each lift of Machine/Ops.lean answers: one law for each, to be cited in place of unfolding it. -/
namespace Sys2Proof.Laws
open Sys2Proof.Machine

@[simp] theorem need_ok {ok : Bool} {f : Fault} {k : Out} (h : ok = true) : need ok f k = k := by simp [need, h]
@[simp] theorem need_no {ok : Bool} {f : Fault} {k : Out} (h : ok = false) : need ok f k = .fault f := by simp [need, h]
/-- Past a range check that holds. -/
theorem need_then {ok : Bool} {f : Fault} {k o : Out} (h : ok = true) (hk : k = o) : need ok f k = o := (need_ok h).trans hk
theorem need_some {ok : Bool} {f : Fault} {k : Out} {P : State → Prop} (h : ok = true) (hk : ∃ t, k = .next t ∧ P t) :
    ∃ t, need ok f k = .next t ∧ P t := by rw [need_ok h]; exact hk
theorem need_next {ok : Bool} {f : Fault} {k : Out} {t : State} (h : need ok f k = .next t) : ok = true ∧ k = .next t := by
  unfold need at h
  split at h
  · exact ⟨‹_›, h⟩
  · cases h
theorem need_not_refused {ok : Bool} {f : Fault} {k : Out} (h : ∀ r, k ≠ .refused r) : ∀ r, need ok f k ≠ .refused r := by
  intro r
  unfold need
  split
  · exact h r
  · simp

/-! ### The leaf -/
@[simp] theorem leafStep_on {f : Leaf → Leaf} {l : Leaf} (h : leafRuns l = true) : leafStep f l = f l := by simp [leafStep, h]
@[simp] theorem leafStep_off {f : Leaf → Leaf} {l : Leaf} (h : leafRuns l = false) : leafStep f l = l := by simp [leafStep, h]
theorem leafDo_eq (f : Leaf → Leaf) (s : State) : leafDo f s = .next { s with leaf := leafStep f s.leaf } := rfl
theorem leafDo_on {f : Leaf → Leaf} {s : State} (h : leafRuns s.leaf = true) : leafDo f s = .next { s with leaf := f s.leaf } := by
  simp [leafDo, h]
theorem leafDo_with {f : Leaf → Leaf} {s : State} (h : leafRuns s.leaf = true) : leafDo f s = .next (s.withLeaf (f s.leaf)) := leafDo_on h
theorem leafInput_on {f g : Leaf → Leaf} {s : State} (h : leafRuns s.leaf = true) : leafInput f g s = .next (s.withLeaf (f s.leaf)) := by
  simp [leafInput, leafAlways, h, State.withLeaf]
theorem leafInput_off {f g : Leaf → Leaf} {s : State} (h : leafRuns s.leaf = false) : leafInput f g s = .next (s.withLeaf (g s.leaf)) := by
  simp [leafInput, leafAlways, h, State.withLeaf]
theorem leafDo_off {f : Leaf → Leaf} {s : State} (h : leafRuns s.leaf = false) : leafDo f s = .next s := by simp [leafDo, h]

/-! ### The module and its channel -/
theorem boxDo_eq (f : Box → Box) (s : State) : boxDo f s = .next { s with box := f s.box } := rfl
theorem cardTake_chan (b : Box) : (cardTake b).chan = { b.chan with passQ := [] } := by
  unfold cardTake
  split <;> rfl
@[simp] theorem pumpBox_chan (b : Box) : (pumpBox b).chan = { b.chan with passQ := [] } := cardTake_chan _
/-- Nothing of the module changes but its card and since when its hot sleds are cool. -/
theorem pumpBox_mod (b : Box) : b.mod.carded (pumpBox b).mod := by
  unfold pumpBox cardTake Module.carded
  split <;> rfl
theorem carded_refl (m : Module) : m.carded m := rfl
theorem carded_trans {m n k : Module} (h : m.carded n) (g : n.carded k) : m.carded k := by
  unfold Module.carded at *
  exact (congrArg (fun x : Module => { x with card := m.card, cool := m.cool }) g).trans h
theorem chanStep_off {f : Chan → Chan} {b : Box} (h : chanPowered b.mod = false) : chanStep f b = b := by simp [chanStep, h]
theorem chanStep_chan {f : Chan → Chan} {b : Box} (h : chanPowered b.mod = true) :
    (chanStep f b).chan = { chanSettled (f b.chan) with passQ := [] } := by simp [chanStep, h]
theorem chanStep_mod {f : Chan → Chan} {b : Box} : b.mod.carded (chanStep f b).mod := by
  unfold chanStep
  split
  · exact pumpBox_mod { b with chan := chanSettled (f b.chan) }
  · rfl
theorem chanDo_off {f : Chan → Chan} {s : State} (h : chanPowered s.box.mod = false) : chanDo f s = .next s := by
  simp [chanDo, boxDo, chanStep_off h]
/-- Whatever a command does at the channel, the leaf, the queue and the module but for its card stay. -/
theorem chanDo_only (f : Chan → Chan) (s : State) : ∃ t, chanDo f s = .next t ∧ s.chanOnly t :=
  ⟨_, rfl, ⟨rfl, rfl⟩, chanStep_mod⟩
theorem chanDo_took {f : Chan → Chan} {s : State} (h : chanPowered s.box.mod = true) : ∃ t, chanDo f s = .next t ∧ s.chanTook f t :=
  ⟨_, rfl, ⟨⟨rfl, rfl⟩, chanStep_mod⟩, chanStep_chan h⟩
theorem linkDo_took {f : Chan → Chan} {s : State} (h : chanPowered s.box.mod = true) (hp : s.box.chan.start.phase ≠ 4) :
    ∃ t, linkDo f s = .next t ∧ s.chanTook f t := by
  obtain ⟨t, h1, h2, h3⟩ := chanDo_took (f := portLive f) h
  exact ⟨t, h1, h2, by rw [h3]; simp [portLive, hp]⟩

/-! ### What is settled after every command -/
@[simp] theorem injSettle_id {c : Chan} (h : c.inj.all (fun i => decide (i.left ≠ some 0)) = true) : injSettle c = c := by
  unfold injSettle
  rw [List.filter_eq_nil_iff.mpr]
  · rfl
  · intro i hi
    have := List.all_eq_true.mp h i hi
    simpa using this
@[simp] theorem unitSettle_id {c : Chan} (h : disabledUnits c.history = []) : unitSettle c = c := by
  unfold unitSettle
  split
  · rfl
  · rw [h]; rfl
/-- With nothing to settle, a command that leaves injections and history be leaves the channel as it makes it, but that its queues are judged. -/
theorem chanTook_ready {f : Chan → Chan} {s t : State} (h : s.chanReady) (hi : (f s.box.chan).inj = s.box.chan.inj)
    (hh : (f s.box.chan).history = s.box.chan.history) (k : s.chanTook f t) : t.box.chan = { satSettle (f s.box.chan) with passQ := [] } := by
  have h1 : injSettle (f s.box.chan) = f s.box.chan := injSettle_id (by rw [hi]; exact h.2.1)
  rw [k.2, chanSettled, h1, unitSettle_id (by rw [hh]; exact h.2.2)]

/-! ### Requests -/
/-- What has gone out on a session is still there. -/
def OutKept (c d : Card) : Prop := ∀ x ∈ c.sessions, ∃ y ∈ d.sessions, y.place = x.place ∧ ∀ m ∈ x.out, m ∈ y.out
theorem outKept_refl (c : Card) : OutKept c c := fun x hx => ⟨x, hx, rfl, fun _ h => h⟩
theorem outKept_trans {c d e : Card} (h : OutKept c d) (k : OutKept d e) : OutKept c e := by
  intro x hx
  obtain ⟨y, hy, p1, o1⟩ := h x hx
  obtain ⟨z, hz, p2, o2⟩ := k y hy
  exact ⟨z, hz, p2.trans p1, fun m hm => o2 m (o1 m hm)⟩
theorem outKept_map {c : Card} (f : Session → Session) (hp : ∀ x, (f x).place = x.place) (ho : ∀ x, ∀ m ∈ x.out, m ∈ (f x).out) :
    OutKept c { c with sessions := c.sessions.map f } :=
  fun x hx => ⟨f x, List.mem_map.mpr ⟨x, hx, rfl⟩, hp x, ho x⟩
theorem sessionSend_kept (now p : Nat) (m : MgmtMsg) (c : Card) : OutKept c (sessionSend now p m c) := by
  apply outKept_map <;> intro x
  · split <;> rfl
  · intro m hm
    split
    · exact List.mem_append_left _ hm
    · exact hm
/-- Whatever `deliver` answers goes out, and what has gone out stays. -/
theorem deliver_fold (now : Nat) (ca an : List MgmtAnswer) (l : List CardWait) : ∀ k : Card,
    OutKept k (l.foldl (fun (k : Card) w => match answerReady w ca an with
      | some a => sessionSend now w.place (answerMsg w.target w.repeat_ a) k
      | none => { k with waits := k.waits ++ [w] }) k) ∧
    ∀ w ∈ l, ∀ a, answerReady w ca an = some a → (∃ x ∈ k.sessions, x.place = w.place) →
      ∃ x ∈ (l.foldl (fun (k : Card) w => match answerReady w ca an with
        | some a => sessionSend now w.place (answerMsg w.target w.repeat_ a) k
        | none => { k with waits := k.waits ++ [w] }) k).sessions, x.place = w.place ∧ answerMsg w.target w.repeat_ a ∈ x.out := by
  induction l with
  | nil => exact fun k => ⟨outKept_refl k, fun w hw => absurd hw (List.not_mem_nil)⟩
  | cons v l ih =>
    intro k
    have hk : OutKept k (match answerReady v ca an with
      | some a => sessionSend now v.place (answerMsg v.target v.repeat_ a) k
      | none => { k with waits := k.waits ++ [v] }) := by
      split
      · exact sessionSend_kept _ _ _ _
      · exact outKept_refl _
    obtain ⟨i1, i2⟩ := ih (match answerReady v ca an with
      | some a => sessionSend now v.place (answerMsg v.target v.repeat_ a) k
      | none => { k with waits := k.waits ++ [v] })
    refine ⟨outKept_trans hk i1, ?_⟩
    intro w hw a ha hx
    obtain ⟨x, xm, xp⟩ := hx
    rcases List.mem_cons.mp hw with rfl | hw
    · obtain ⟨y, ym, yp, yo⟩ := i1 { x with out := x.out ++ [answerMsg w.target w.repeat_ a], lastAt := now } (by
        simp only [ha, sessionSend, sessionUpd]
        exact List.mem_map.mpr ⟨x, xm, by simp [xp]⟩)
      exact ⟨y, ym, yp.trans xp, yo _ (List.mem_append_right _ (List.mem_singleton.mpr rfl))⟩
    · obtain ⟨y, ym, yp, _⟩ := hk x xm
      exact i2 w hw a ha ⟨y, ym, yp.trans xp⟩
theorem teleOffer_place (tg st : Nat) (x : Session) (r : TeleRec) : (teleOffer tg st x r).place = x.place := by
  unfold teleOffer
  repeat (first | rfl | split)
theorem teleOffer_out (tg st : Nat) (x : Session) (r : TeleRec) : ∀ m ∈ x.out, m ∈ (teleOffer tg st x r).out := by
  intro m hm
  unfold teleOffer
  split
  · exact List.mem_append_left _ hm
  · repeat (first | exact hm | split)
theorem teleFold (tg st : Nat) (l : List TeleRec) : ∀ x : Session, (l.foldl (teleOffer tg st) x).place = x.place ∧
    ∀ m ∈ x.out, m ∈ (l.foldl (teleOffer tg st) x).out := by
  induction l with
  | nil => exact fun x => ⟨rfl, fun _ h => h⟩
  | cons r l ih =>
    intro x
    exact ⟨(ih _).1.trans (teleOffer_place tg st x r), fun m hm => (ih _).2 m (teleOffer_out tg st x r m hm)⟩
theorem teleSub_place (tg : Nat) (k : Tele) (x : Session) : (teleSub tg k x).place = x.place := by
  unfold teleSub
  split
  · rfl
  · exact (teleFold _ _ _ _).1
theorem teleSub_out (tg : Nat) (k : Tele) (x : Session) : ∀ m ∈ x.out, m ∈ (teleSub tg k x).out := by
  intro m hm
  unfold teleSub
  split
  · exact hm
  · exact (teleFold _ _ _ _).2 m hm
/-- What has gone out stays while the card takes answers and telemetry. -/
theorem pumpBox_kept (b : Box) : OutKept b.mod.card (pumpBox b).mod.card := by
  unfold pumpBox cardTake
  split
  · exact outKept_trans (deliver_fold _ _ _ _ { b.mod.card with waits := [] }).1
      (outKept_map _ (fun x => by rw [teleSub_place, teleSub_place]) (fun x m hm => teleSub_out _ _ _ m (teleSub_out _ _ _ m hm)))
  · exact outKept_refl _
/-- A waiting request whose answer stands is answered. -/
theorem pumpBox_answers (b : Box) (hc : b.mod.card.present = true) (w : CardWait) (hw : w ∈ b.mod.card.waits) (a : MgmtAnswer)
    (ha : answerReady w b.chan.answers b.mod.card.answers = some a) (hx : ∃ x ∈ b.mod.card.sessions, x.place = w.place) :
    ∃ x ∈ (pumpBox b).mod.card.sessions, x.place = w.place ∧ answerMsg w.target w.repeat_ a ∈ x.out := by
  unfold pumpBox cardTake
  rw [if_pos (show (coolSettle (boxClock b) b.mod).card.present = true from hc)]
  obtain ⟨x, xm, xp, xo⟩ := (deliver_fold (boxClock { b with mod := coolSettle (boxClock b) b.mod }) b.chan.answers b.mod.card.answers b.mod.card.waits
    { b.mod.card with waits := [] }).2 w hw a ha hx
  exact ⟨_, List.mem_map.mpr ⟨x, xm, rfl⟩, by rw [teleSub_place, teleSub_place]; exact xp, teleSub_out _ _ _ _ (teleSub_out _ _ _ _ xo)⟩
/-- The card with the session's clock started anew, and what the reply adds to it. -/
def askedCard (now ns p cmd id : Nat) (force : Bool) (r : Reply) (c0 : Card) : Card :=
  match r with
  | .held again => { c0 with waits := c0.waits ++ [{ place := p, target := 0, id := id, repeat_ := again }] }
  | .now st => answerNow now ns p 0 cmd id st force c0
theorem askChan_eq {p : Nat} {b : Box} (cmd id : Nat) (force : Bool) (run : Chan → Chan × Reply) (hp : chanPowered b.mod = true)
    (hc : b.mod.card.present = true) (hs : (sessionAt b.mod.card p).isSome) (hf : sessionFull p b.mod.card = false) :
    ∃ c0 : Card, c0.present = true ∧ (∃ y ∈ c0.sessions, y.place = p) ∧ askChan p cmd id force run b =
      pumpBox { chan := (run b.chan).1, mod := { b.mod with card := askedCard (boxClock b) (chanNs b.chan) p cmd id force (run b.chan).2 c0 } } := by
  obtain ⟨x, hx⟩ := Option.isSome_iff_exists.mp hs
  have hpl : x.place = p := by simpa using List.find?_some hx
  refine ⟨sessionUpd b.mod.card p (fun z => { z with lastAt := boxClock b }), hc,
    ⟨_, List.mem_map.mpr ⟨x, List.mem_of_find?_eq_some hx, rfl⟩, by simp [hpl]⟩, ?_⟩
  have hf' : sessionFull p (sessionUpd b.mod.card p (fun z => { z with lastAt := boxClock b })) = false := hf
  unfold askChan
  simp only
  rw [if_neg (by simp [hc]), hx]
  simp only
  rw [if_neg (by simp [hf']), if_neg (by simp [hp])]
  rfl
theorem askedCard_only (now ns p cmd id : Nat) (force : Bool) (r : Reply) (c0 : Card) : (askedCard now ns p cmd id force r c0).present = c0.present := by
  cases r <;> rfl
/-- A request of an open session is answered. -/
theorem askRow_asked {s : State} {p : Nat} (h : s.canAsk p) (cmd id : Nat) (force : Bool) (run : Chan → Chan × Reply) :
    ∃ t, askRow p cmd id force run s = .next t ∧ s.asked p cmd id run t := by
  obtain ⟨hp, hc, hs, hf⟩ := h
  obtain ⟨c0, hc0, ⟨y, ym, yp⟩, e⟩ := askChan_eq (b := s.box) cmd id force (fun c => let r := run c; (chanSettled r.1, r.2)) hp hc hs hf
  have e1 : askRow p cmd id force run s = .next { s with box := pumpBox { chan := chanSettled (run s.box.chan).1, mod := { s.box.mod with
      card := askedCard (boxClock s.box) (chanNs s.box.chan) p cmd id force (run s.box.chan).2 c0 } } } := by
    unfold askRow boxDo
    rw [e]
  refine ⟨_, e1, ⟨⟨⟨rfl, rfl⟩, ?_⟩, pumpBox_chan _⟩, ?_⟩
  · exact carded_trans (n := { s.box.mod with card := askedCard (boxClock s.box) (chanNs s.box.chan) p cmd id force (run s.box.chan).2 c0 }) rfl
      (pumpBox_mod { chan := chanSettled (run s.box.chan).1, mod := { s.box.mod with
        card := askedCard (boxClock s.box) (chanNs s.box.chan) p cmd id force (run s.box.chan).2 c0 } })
  · cases hr : (run s.box.chan).2 with
    | now st =>
      obtain ⟨z, zm, zp, zo⟩ := pumpBox_kept { chan := chanSettled (run s.box.chan).1, mod := { s.box.mod with
        card := askedCard (boxClock s.box) (chanNs s.box.chan) p cmd id force (.now st) c0 } } _ (List.mem_map.mpr ⟨y, ym, rfl⟩)
      rw [if_pos yp] at zp zo
      exact ⟨z, zm, zp.trans yp, _, zo _ (List.mem_append_right _ (List.mem_singleton.mpr rfl)), rfl, rfl, rfl, rfl, rfl⟩
    | held again =>
      intro a ha
      rw [pumpBox_chan] at ha
      obtain ⟨z, zm, zp, zo⟩ := pumpBox_answers { chan := chanSettled (run s.box.chan).1, mod := { s.box.mod with
        card := askedCard (boxClock s.box) (chanNs s.box.chan) p cmd id force (.held again) c0 } } hc0 { place := p, target := 0, id := id, repeat_ := again }
        (List.mem_append_right _ (List.mem_singleton.mpr rfl)) a (by simpa [answerReady] using ha) ⟨y, ym, yp⟩
      exact ⟨z, zm, zp, _, zo, rfl⟩

end Sys2Proof.Laws
end

