-- ==== Sys2Proof/Laws/Raise.lean ====
section
/-! SUPPORT. What raising an interrupt or an event can change: a leaf's interrupt registers; a channel's telemetry, granary, held
reports and free-value counter. -/
namespace Sys2Proof.Laws
open Sys2Proof.Machine

theorem leafRaised_refl (l : Leaf) : l.raised l := rfl
theorem leafRaised_trans {l m n : Leaf} (h : l.raised m) (k : m.raised n) : l.raised n := by
  unfold Leaf.raised at *
  exact (congrArg (fun x : Leaf => { x with ints := l.ints }) k).trans h
/-- A raise changes the leaf's interrupt registers only. -/
theorem leafRaise_raised (l : Leaf) (e : EvRec) : l.raised (leafRaise l e) := by
  unfold leafRaise Leaf.raised
  split <;> rfl
theorem leafEv_raised (l : Leaf) (e : Ev) (ix dt : Nat) : l.raised (leafEv l e ix dt) := leafRaise_raised l _
theorem leafRaiseAll_raised (es : List EvRec) : ∀ l : Leaf, l.raised (leafRaiseAll l es) := by
  induction es with
  | nil => exact leafRaised_refl
  | cons e es ih => intro l; exact leafRaised_trans (leafRaise_raised l e) (ih _)

theorem raised_refl (c : Chan) : c.raised c := rfl
theorem raised_trans {c d e : Chan} (h : c.raised d) (k : d.raised e) : c.raised e := by
  unfold Chan.raised at *
  exact (congrArg (fun x : Chan => { x with tele := c.tele, gran := c.gran, unstamped := c.unstamped, free := c.free }) k).trans h
/-- Folding operations that only raise. -/
theorem raised_foldl {α : Type} (f : Chan → α → Chan) (hf : ∀ (c : Chan) (a : α), c.raised (f c a)) (l : List α) : ∀ c : Chan, c.raised (l.foldl f c) := by
  induction l with
  | nil => exact raised_refl
  | cons a l ih => intro c; exact raised_trans (hf c a) (ih _)
theorem chanTele_raised (c : Chan) (inj : Bool) (e : EvRec) (tv : Nat × Nat) : c.raised (chanTele c inj e tv) := rfl
/-- Writing a record changes the granary only. -/
theorem recWrite_raised (c : Chan) (typ tag rc : Nat) (b : List Gran) (ring : Bool) (n : Nat) (ev : Option Ev) :
    c.raised (recWriteAt c typ tag rc b ring n ev).1 := rfl
/-- The counter of free values may move on as well. -/
theorem raised_free {c d : Chan} (k : Nat) (h : c.raised d) : c.raised { d with free := k } := h
/-- A record, then the event that its number stuck. -/
theorem raised_stuck {c : Chan} {r : Chan × Bool} (k : Nat) (e : EvRec) (h : c.raised r.1) :
    c.raised (if r.2 then chanTele { r.1 with free := k } false e else { r.1 with free := k }) := by
  split
  · exact raised_trans (raised_free k h) (chanTele_raised _ _ _ _)
  · exact raised_free k h
theorem chanRecord_raised (c : Chan) (inj : Bool) (e : EvRec) (silo : Option (Nat × Nat)) (tv : Nat × Nat) : c.raised (chanRecord c inj e silo tv) := by
  unfold chanRecord
  cases silo <;> exact raised_stuck _ _ (recWrite_raised c _ _ _ _ _ _ _)
theorem chanReport_raised (u : Unstamped) (c : Chan) : c.raised (chanReport u c) := by
  unfold chanReport
  simp only
  refine raised_trans (chanTele_raised c u.inj u.ev u.tv) ?_
  split
  · split
    · exact chanRecord_raised _ _ _ _ _
    · exact raised_foldl _ (fun a s => chanRecord_raised a _ _ _ _) _ _
  · exact chanRecord_raised _ _ _ _ _
/-- A raise changes the channel's telemetry, granary, held reports and free-value counter only. -/
theorem chanRaiseAt_raised (inj : Bool) (silo : Option (Nat × Nat)) (c : Chan) (e : EvRec) : c.raised (chanRaiseAt inj silo c e) := by
  unfold chanRaiseAt
  simp only
  split
  · rfl
  · exact chanReport_raised _ _
/-- So does letting out the reports held. -/
theorem chanReportsOut_raised (c : Chan) : c.raised (chanReportsOut c) :=
  raised_trans (d := { c with unstamped := [] }) rfl (raised_foldl _ (fun a u => chanReport_raised u a) _ _)
theorem chanRaise_raised (c : Chan) (e : EvRec) : c.raised (chanRaise c e) := chanRaiseAt_raised _ _ c e
theorem chanEv_raised (c : Chan) (e : Ev) (v : List Nat) : c.raised (chanEv c e v) := chanRaiseAt_raised _ _ c _
theorem siloEv_raised (c : Chan) (s : Sheaf) (e : Ev) (v : List Nat) : c.raised (siloEv c s e v) := chanRaiseAt_raised _ _ c _
theorem chanRaiseAll_raised (es : List EvRec) (c : Chan) : c.raised (chanRaiseAll c es) := raised_foldl _ chanRaise_raised es c
theorem chanAudit_raised (c : Chan) (silo : Option (Nat × Nat)) (v : List Nat) : c.raised (chanAudit c silo v) := by
  unfold chanAudit
  cases silo <;> exact raised_free _ (recWrite_raised c _ _ _ _ _ _ none)

end Sys2Proof.Laws
end

