-- ==== Sys2Proof/Laws/Shape.lean ====
section
/-! SUPPORT. How each command reaches its unit: one case for each constructor, to be cited in place of unfolding `exec`. -/
namespace Sys2Proof.Laws
open Sys2Proof.Machine

/-- What a well-formed command is: one at the leaf, a reset or clock event there, one at the channel (its start and its restart among them), a request, or
one at the module. -/
inductive Shape (i : Instr) (s : State) : Out → Prop
  | leaf (f : Leaf → Leaf) : Shape i s (leafDo f s)
  | always (f : Leaf → Leaf) (h : i.heldLeafSees = true) : Shape i s (leafAlways f s)
  | chan (f : Chan → Chan) : Shape i s (chanDo f s)
  | ask (p cmd id : Nat) (force : Bool) (run : Chan → Chan × Reply) : Shape i s (askRow p cmd id force run s)
  | image (h : i = .imageAccepted .chan) : Shape i s (boxDo (fun b => if chanPowered b.mod then boxImage b else b) s)
  | restart (h : i = .restartWaitEnd) : Shape i s (boxDo (fun b => if chanPowered b.mod then pumpBox (boxRestart b) else b) s)
  | box (f : Box → Box) (h : i.atModule = true) : Shape i s (boxDo f s)
theorem shape_need {i : Instr} {s : State} {ok : Bool} {f : Fault} {k : Out} (e : ok = true) (h : Shape i s k) : Shape i s (need ok f k) := by
  rw [need_ok e]; exact h
theorem shape_at {i : Instr} {s : State} {a : At} {f : Nat → Leaf → Leaf} {g : Nat → Chan → Chan} : Shape i s (atPort a f g s) := by
  cases a
  · exact .leaf _
  · exact .chan _
theorem shape_input {i : Instr} {s : State} {f g : Leaf → Leaf} (h : i.heldLeafSees = true) : Shape i s (leafInput f g s) := .always _ h
theorem shape_unit {i : Instr} {s : State} {u : On} {f : Leaf → Leaf} {g : Chan → Chan} : Shape i s (atUnit u f g s) := by
  cases u
  · exact .leaf _
  · exact .chan _
theorem shape_via {i : Instr} {s : State} {v : Via} {id cmd : Nat} {force : Bool} {body : Bytes} {run : Chan → Chan × Reply} :
    Shape i s (viaRow v id cmd force body run s) := by
  cases v
  · exact .ask _ _ _ _ _
  · exact .leaf _
theorem shape_asker {i : Instr} {s : State} {v : Asker} {id cmd : Nat} {force : Bool} {body : Bytes} {run : Chan → Chan × Reply} {reg : Leaf → Leaf} :
    Shape i s (askerRow v id cmd force body run reg s) := by
  cases v
  · exact .ask _ _ _ _ _
  · exact .leaf _
  · exact .leaf _
theorem exec_shape (i : Instr) (s : State) (hw : i.wf = true) : Shape i s (exec i s) := by
  cases i with
  | lightDetected a lane power =>
    have h := Bool.and_eq_true_iff.mp hw
    exact shape_need h.1 (shape_need h.2 (shape_at))
  | trainFrame a own g testsDone =>
    have h := Bool.and_eq_true_iff.mp hw
    exact shape_need h.1 (shape_need h.2 (shape_at))
  | laneStuck a k =>
    have h := Bool.and_eq_true_iff.mp hw
    exact shape_need h.1 (shape_need h.2 (shape_at))
  | ident a g => exact shape_need hw (shape_at)
  | ancestry a g => exact shape_need hw (shape_at)
  | linkParams a g => exact shape_need hw (shape_at)
  | trainingTimeout a => exact shape_need hw (shape_at)
  | trainingNoLight a => exact shape_need hw (shape_at)
  | trainingRetry a => exact shape_need hw (shape_at)
  | duplicateOrder g => exact .chan _
  | lossOfSignal a fibreB => exact shape_need hw (shape_at)
  | missingSlots a => exact shape_need hw (shape_at)
  | frameLockLost a => exact shape_need hw (shape_at)
  | dataFrameReceived a line => exact shape_need hw (shape_at)
  | ackNak a g => exact shape_need hw (shape_at)
  | ackNakSend a => exact shape_need hw (shape_at)
  | nakRepeat a => exact shape_need hw (shape_at)
  | beatSend a => exact shape_need hw (shape_at)
  | beatReceived a g ok e => exact shape_need hw (shape_at)
  | blockRelease a => exact shape_need hw (shape_at)
  | gearAdvance a => exact shape_need hw (shape_at)
  | switchRule4 => exact .leaf _
  | timeInfo a g => exact shape_need hw (shape_at)
  | stepNotice a g => exact shape_need hw (shape_at)
  | stepInstant u => exact shape_unit
  | slewEnd u => exact shape_unit
  | utcStepApply u => exact shape_unit
  | timeSaturated u => exact shape_unit
  | timeSnapLoRead k => exact shape_need hw (.leaf _)
  | strictReport p g => exact shape_need hw (.chan _)
  | turnSched a g => exact shape_need hw (shape_at)
  | turnSlotDue p => exact shape_need hw (.chan _)
  | turnSlotForced p => exact shape_need hw (.chan _)
  | echoReturned a e => exact shape_need hw (shape_at)
  | echoNotReturned a => exact shape_need hw (shape_at)
  | calResult a g => exact shape_need hw (shape_at)
  | keyNonce a g => exact shape_need hw (shape_at)
  | keyWrapLo a g => exact shape_need hw (shape_at)
  | keyWrapHi a g => exact shape_need hw (shape_at)
  | keyConfirm a g => exact shape_need hw (shape_at)
  | keyConfirmTimeout a => exact shape_need hw (shape_at)
  | keySwitch a g => exact shape_need hw (shape_at)
  | noKeys a => exact shape_need hw (shape_at)
  | rekeyDue p => exact shape_need hw (.chan _)
  | rekeyRetry p => exact shape_need hw (.chan _)
  | tapTimePairSend n => exact shape_need hw (.leaf _)
  | tapTimeReload n wa wb => exact shape_need hw (.leaf _)
  | tapFireWord n w => exact shape_need hw (.leaf _)
  | tapFire n x => exact shape_need hw (.leaf _)
  | firedReport n w => exact shape_need hw (.leaf _)
  | tapStepWord n wa wb => exact shape_need hw (.leaf _)
  | tapStepApply n => exact shape_need hw (.leaf _)
  | tapCfgAccess n off wr w => exact shape_need hw (.leaf _)
  | tapDelayMeasure n roundTrip => exact shape_need hw (.leaf _)
  | tapFault n => exact shape_need hw (.leaf _)
  | regionClockStopped n => exact shape_need hw (.leaf _)
  | lbArrive n k flag =>
    have h := Bool.and_eq_true_iff.mp hw
    exact shape_need h.1 (shape_need h.2 (.leaf _))
  | lbReleaseTap n k =>
    have h := Bool.and_eq_true_iff.mp hw
    exact shape_need h.1 (shape_need h.2 (.leaf _))
  | localGenTimeout k => exact shape_need hw (.leaf _)
  | phaseStart n => exact shape_need hw (.leaf _)
  | phaseDone n m after sample => exact shape_need hw (.leaf _)
  | replicaSample n after slack => exact shape_need hw (.leaf _)
  | tdcStartEdge u n e => exact shape_need hw (shape_unit)
  | tdcStopEdge u n e => exact shape_need hw (shape_unit)
  | tdcCoarseOverflow u n => exact shape_need hw (shape_unit)
  | tdcLockAcquired u n start => exact shape_need hw (shape_unit)
  | tdcLockLost u n start => exact shape_need hw (shape_unit)
  | tdcLockTimeout u n => exact shape_need hw (shape_unit)
  | tdcLoopRangeCheck u n v => exact shape_need hw (shape_unit)
  | tdcHistogramDone u n start hist => exact shape_need hw (shape_unit)
  | captureEdge k e more => exact shape_need hw (.leaf _)
  | timeLineSend u => exact shape_unit
  | timeLineReceived p g => exact shape_need hw (.chan _)
  | timeLineCombine => exact .chan _
  | millSettleWait => exact .chan _
  | leadLost => exact .chan _
  | followerConfirmTimeout id => exact .chan _
  | stepRelayCheck => exact .leaf _
  | stepRelay p g => exact shape_need hw (.chan _)
  | refPulse r x => exact shape_need hw (.chan _)
  | refWindowMiss r => exact shape_need hw (.chan _)
  | refEdgeMiss r => exact shape_need hw (.chan _)
  | ptpSyncMiss => exact .chan _
  | ptpAnnounceTimeout => exact .chan _
  | gnssTimeInvalid => exact .chan _
  | gnssSurveyDone => exact .chan _
  | refFreqResult r m => exact shape_need hw (.chan _)
  | disagreeCleared => exact .chan _
  | refQualified r => exact shape_need hw (.chan _)
  | wtrEnd r => exact shape_need hw (.chan _)
  | switchCommit => exact .chan _
  | antOpen => exact .chan _
  | antShort => exact .chan _
  | antFeedRetry feed => exact .chan _
  | warmSet => exact .chan _
  | warmCleared => exact .chan _
  | holdoverSample => exact .chan _
  | ageingRefit => exact .chan _
  | outputEdge n => exact shape_need hw (.chan _)
  | outputMonitor n e => exact shape_need hw (.chan _)
  | outShort n => exact shape_need hw (.chan _)
  | outShortRetry n still => exact shape_need hw (.chan _)
  | outOpen x => exact shape_need hw (.chan _)
  | outCfgApply n => exact shape_need hw (.chan _)
  | joinGo k => exact shape_need hw (.leaf _)
  | joinForward p gs => exact shape_need hw (.chan _)
  | joinAtMill p gs => exact shape_need hw (.chan _)
  | joinAtApex p gs => exact shape_need hw (.chan _)
  | routeUpdate p gs => exact shape_need hw (.chan _)
  | routeUpdateAck g => exact .chan _
  | routeUpdateResend tag => exact .chan _
  | routeUnreachable tag rank => exact .chan _
  | joinAck a g => exact shape_need hw (shape_at)
  | withdrawNotice g => exact .chan _
  | formTimeout tag => exact .chan _
  | arrive k pay freq => exact shape_need hw (.leaf _)
  | arrivalToken p g => exact shape_need hw (.chan _)
  | arrivalPayload p gs => exact shape_need hw (.chan _)
  | levelCutoff tag n => exact .chan _
  | partialReceived p sender gs => exact shape_need hw (.chan _)
  | partialTimeout tag n sender => exact .chan _
  | decisionTime tag n => exact .chan _
  | unheardTimeout tag rank => exact .chan _
  | generationThreshed tag n => exact .chan _
  | launchWord a g => exact shape_need hw (shape_at)
  | launchFire k gen => exact shape_need hw (.leaf _)
  | failureWord a g => exact shape_need hw (shape_at)
  | launchMissed k gen => exact shape_need hw (.leaf _)
  | resultGranule v =>
    cases v
    · exact shape_need (f := .noSuchSlot) hw (.leaf _)
    · exact shape_need (f := .noSuchSlot) hw (.chan _)
  | resultMissing k gen => exact shape_need hw (.leaf _)
  | fenceNotice g => exact .chan _
  | suspendTimeout v =>
    cases v
    · exact shape_need (f := .noSuchSlot) hw (.leaf _)
    · exact shape_need (f := .noSuchSlot) hw (.chan _)
  | autoJoin k d =>
    have h := Bool.and_eq_true_iff.mp hw
    exact shape_need h.1 (shape_need h.2 (.leaf _))
  | reformNotice a g => exact shape_need hw (shape_at)
  | park k => exact shape_need hw (.leaf _)
  | parkNotice g => exact .chan _
  | unpark k => exact shape_need hw (.leaf _)
  | unparkNotice g => exact .chan _
  | leave v =>
    cases v
    · exact shape_need (f := .noSuchSlot) hw (.leaf _)
    · exact shape_need (f := .noSuchSlot) hw (.chan _)
  | sheafClosed v =>
    cases v
    · exact shape_need (f := .noSuchPort) hw (.leaf _)
    · exact shape_need (f := .noSuchPort) hw (.chan _)
    · exact shape_need (f := .noSuchPort) hw (.chan _)
  | outlierNote g => exact .chan _
  | taskComplete t ok => exact shape_need hw (.chan _)
  | thresherSteal t => exact shape_need hw (.chan _)
  | starvePromote => exact .chan _
  | loadWindow => exact .chan _
  | idleSelftest kind ix pass => exact shape_need hw (.chan _)
  | saturationEnter => exact .chan _
  | saturationExit => exact .chan _
  | clusterLost k => exact shape_need hw (.chan _)
  | captureDescriptor h g => exact shape_need hw (.leaf _)
  | captureDataBeat h g nbytes eop => exact shape_need hw (.leaf _)
  | captureIdleTimeout h => exact shape_need hw (.leaf _)
  | captureOpenPacket p o0 o1 => exact shape_need hw (.chan _)
  | captureDataPacket p d0 gs => exact shape_need hw (.chan _)
  | captureClosePacket p c0 c1 => exact shape_need hw (.chan _)
  | captureCloseTimeout p k seq => exact shape_need hw (.chan _)
  | ledgerRoot => exact .chan _
  | retentionCheck => exact .chan _
  | siloMode d g => exact shape_need hw (.leaf _)
  | regionMigrationDone n => exact shape_need hw (.chan _)
  | stackLost k => exact shape_need hw (.chan _)
  | replayRecord d r => exact shape_need hw (.leaf _)
  | replayFetch p g => exact shape_need hw (.chan _)
  | replayFetchTimeout => exact .leaf _
  | replayEnd v =>
    cases v
    · exact shape_need (f := .noSuchPort) hw (.leaf _)
    · exact shape_need (f := .noSuchPort) hw (.chan _)
    · exact shape_need (f := .noSuchPort) hw (.chan _)
  | compareFind g d => exact .chan _
  | gleanerPassStart v =>
    cases v
    · exact shape_need (f := .noSuchRegion) hw (.leaf _)
    · exact shape_need (f := .noSuchRegion) hw (.chan _)
  | gleanerGranule v =>
    cases v
    · exact shape_need (f := .noSuchRegion) hw (.leaf _)
    · exact shape_need (f := .noSuchRegion) hw (.chan _)
  | bucketLeak u => exact shape_unit
  | memberFingerprint p g => exact shape_need hw (.chan _)
  | runFingerprint gs => exact .chan _
  | hostFpWrite dum w => exact .leaf _
  | mismatchClassify k gen => exact shape_need hw (.leaf _)
  | mismatchNotice g => exact .chan _
  | pathSweepDone tag failed => exact .chan _
  | historyDecay u n => exact shape_unit
  | testRequest v id serial pack reps fence bytes => exact shape_need hw (shape_via)
  | testBusyTimeout => exact .leaf _
  | testDigest g => exact .leaf _
  | testItemTimeout => exact .leaf _
  | testAbort => exact .leaf _
  | testNoResult id => exact .chan _
  | testEngineNotReady => exact .leaf _
  | testPeriod packs => exact .leaf _
  | heartbeat => exact .leaf _
  | hbTimeoutWrite v => exact .leaf _
  | heartbeatExpire => exact .leaf _
  | hostReset => exact shape_input rfl
  | fencePin => exact shape_input rfl
  | fenceDrained => exact .leaf _
  | unfence => exact .leaf _
  | leafReset => exact .always _ rfl
  | resetRelease ws => exact .always _ rfl
  | imageAccepted u =>
    cases u
    · exact .leaf _
    · exact .image rfl
  | selftestDone u r => exact shape_unit
  | restoreDone u => exact shape_unit
  | cfgLock => exact .leaf _
  | userBlockSave u hourly => exact shape_unit
  | inject place id kind arg arg2 dur count force safe => exact .ask _ _ _ _ _
  | injectCancel place id target => exact .ask _ _ _ _ _
  | injectEnd id => exact .chan _
  | marginReportSend u os => exact shape_unit
  | marginReport p g => exact shape_need hw (.chan _)
  | forecastEval => exact .chan _
  | forecast d g => exact shape_need hw (.leaf _)
  | lidOpen => exact .chan _
  | meshFault => exact .chan _
  | voltGlitch u => exact shape_unit
  | clockGlitch u => exact shape_unit
  | tempViolation u => exact shape_unit
  | hostAlarm => exact .leaf _
  | fuseBlowDone u ok => exact shape_unit
  | debugUnlockRequest v id serial => exact shape_need hw (shape_asker)
  | debugUnlockResponse v id serial dur sig => exact shape_need hw (shape_asker)
  | debugLock v id serial => exact shape_need hw (shape_asker)
  | debugExpiry u => exact shape_unit
  | challengeExpiry u => exact shape_unit
  | alarmClear v id serial sig => exact shape_need hw (shape_via)
  | keyRotate place id body => exact .ask _ _ _ _ _
  | registerWrite wr addr w poison => exact .leaf _
  | histSelWrite n => exact .leaf _
  | triggerWrite k off w => exact shape_need hw (.leaf _)
  | triggerEdge k => exact shape_need hw (.leaf _)
  | triggerPulseEnd k => exact shape_need hw (.leaf _)
  | capPopRead => exact .leaf _
  | sumRequest => exact .leaf _
  | summaryReady => exact .leaf _
  | resSelWrite k w => exact shape_need hw (.leaf _)
  | intFifoRead => exact .leaf _
  | flashRead => exact .leaf _
  | flashProgram => exact .leaf _
  | flashTrimAdd => exact .leaf _
  | flashStageDone => exact .leaf _
  | flashDone => exact .leaf _
  | sessionOpen ok addr => exact .box _ rfl
  | sessionIdleTimeout place => exact .box _ rfl
  | summary v id serial => exact shape_need hw (shape_via)
  | summaryPage1 place id seq => exact .ask _ _ _ _ _
  | regRead place id off n => exact .ask _ _ _ _ _
  | regWrite place id off v mask => exact .ask _ _ _ _ _
  | phaseStep place id utc delta at_ => exact .ask _ _ _ _ _
  | timePass place id utc delta at_ count => exact .ask _ _ _ _ _
  | fence v id serial => exact shape_need hw (shape_via)
  | fenceRelease v id serial => exact shape_need hw (shape_via)
  | close place id tag known => exact .ask _ _ _ _ _
  | forceArrive place id tag rank n there => exact .ask _ _ _ _ _
  | forceRelease place id tag n there => exact .ask _ _ _ _ _
  | restoreFactoryArm v id serial => exact shape_need hw (shape_asker)
  | restoreFactoryConfirm v id serial code force => exact shape_need hw (shape_asker)
  | armExpiry u => exact shape_unit
  | imageWrite place id off last data => exact .ask _ _ _ _ _
  | calWrite place id body => exact .ask _ _ _ _ _
  | restart place id force safe => exact .ask _ _ _ _ _
  | restartWaitEnd => exact .restart rfl
  | packLoad place id off total last data => exact .ask _ _ _ _ _
  | replay place id body => exact .ask _ _ _ _ _
  | historyRead v id serial first count => exact shape_need hw (shape_via)
  | historyClear v id serial path => exact shape_need hw (shape_via)
  | logRead place id area tag first limit => exact .ask _ _ _ _ _
  | telemetry place target id stream first => exact .box _ rfl
  | telemetryStop place target id => exact .box _ rfl
  | telemetryTick => exact .box _ rfl
  | moduleStatus place id => exact .box _ rfl
  | cardConfig place id addr digest => exact .box _ rfl
  | mgmtRelay v =>
    cases v
    · exact shape_need (f := .noSuchPort) hw (.leaf _)
    · exact shape_need (f := .noSuchPort) hw (.chan _)
  | mgmtAnswer gs => exact .chan _
  | leafNoAnswer id => exact .chan _
  | feedUsable f => exact shape_need hw (.box _ rfl)
  | feedUndervolt f => exact shape_need hw (.box _ rfl)
  | feedOvervolt f => exact shape_need hw (.box _ rfl)
  | feedReversed f => exact shape_need hw (.box _ rfl)
  | feedAbsent f => exact shape_need hw (.box _ rfl)
  | powerWarn => exact .box _ rfl
  | busCollapse => exact .box _ rfl
  | sledSoftStartDone k => exact shape_need hw (.box _ rfl)
  | sledSoftStartTimeout k => exact shape_need hw (.box _ rfl)
  | sledOvercurrent k => exact shape_need hw (.box _ rfl)
  | sledTripRetry k => exact shape_need hw (.box _ rfl)
  | sledInserted k board => exact shape_need hw (.box _ rfl)
  | sledRemoved k => exact shape_need hw (.box _ rfl)
  | brickInserted k => exact shape_need hw (.box _ rfl)
  | brickRemoved k => exact shape_need hw (.box _ rfl)
  | fanInserted k => exact shape_need hw (.box _ rfl)
  | fanRemoved k => exact shape_need hw (.box _ rfl)
  | cardInserted selftestOk => exact .box _ rfl
  | cardRemoved => exact .box _ rfl
  | pmbusPoll r => exact .box _ rfl
  | fanDemand k pct => exact shape_need hw (.box _ rfl)
  | fanNoDemand k => exact shape_need hw (.box _ rfl)
  | thermalWarn k => exact shape_need hw (.box _ rfl)
  | thermalShutdown k => exact shape_need hw (.box _ rfl)
  | thermalRestored k => exact shape_need hw (.box _ rfl)
  | sledLidUnpowered k mesh => exact shape_need hw (.box _ rfl)
  | hubRefClockFail => exact .always _ rfl
  | sensorUpdate u n temp mv vmin => exact shape_need hw (shape_unit)
  | sensorStale u n => exact shape_need hw (shape_unit)
  | followerConfirm id => exact .chan _
  | holdoverUpdate => exact .chan _
  | regionEdge n x => exact shape_need hw (.leaf _)
  | forgetPair tag digest => exact .chan _
  | fenceInputDeasserted reset => exact shape_input rfl
  | engineVectorTest a pass => exact shape_need hw (shape_at)
  | sessionClosed place => exact .box _ rfl
  | badCommand place target cmd id => exact .box _ rfl
theorem need_two {a b : Bool} {f g : Fault} {k : Out} (h : (a && b) = false) : ∃ r, need a f (need b g k) = .fault r := by
  cases a
  · exact ⟨f, need_no rfl⟩
  · exact ⟨g, (need_ok rfl).trans (need_no h)⟩
/-- An ill-formed command faults. -/
theorem exec_ill (i : Instr) (s : State) (hw : i.wf = false) : ∃ r, exec i s = .fault r := by
  cases i with
  | lightDetected a lane power => exact need_two hw
  | trainFrame a own g testsDone => exact need_two hw
  | laneStuck a k => exact need_two hw
  | ident a g => exact ⟨_, need_no hw⟩
  | ancestry a g => exact ⟨_, need_no hw⟩
  | linkParams a g => exact ⟨_, need_no hw⟩
  | trainingTimeout a => exact ⟨_, need_no hw⟩
  | trainingNoLight a => exact ⟨_, need_no hw⟩
  | trainingRetry a => exact ⟨_, need_no hw⟩
  | duplicateOrder g => exact nomatch hw
  | lossOfSignal a fibreB => exact ⟨_, need_no hw⟩
  | missingSlots a => exact ⟨_, need_no hw⟩
  | frameLockLost a => exact ⟨_, need_no hw⟩
  | dataFrameReceived a line => exact ⟨_, need_no hw⟩
  | ackNak a g => exact ⟨_, need_no hw⟩
  | ackNakSend a => exact ⟨_, need_no hw⟩
  | nakRepeat a => exact ⟨_, need_no hw⟩
  | beatSend a => exact ⟨_, need_no hw⟩
  | beatReceived a g ok e => exact ⟨_, need_no hw⟩
  | blockRelease a => exact ⟨_, need_no hw⟩
  | gearAdvance a => exact ⟨_, need_no hw⟩
  | switchRule4 => exact nomatch hw
  | timeInfo a g => exact ⟨_, need_no hw⟩
  | stepNotice a g => exact ⟨_, need_no hw⟩
  | stepInstant u => exact nomatch hw
  | slewEnd u => exact nomatch hw
  | utcStepApply u => exact nomatch hw
  | timeSaturated u => exact nomatch hw
  | timeSnapLoRead k => exact ⟨_, need_no hw⟩
  | strictReport p g => exact ⟨_, need_no hw⟩
  | turnSched a g => exact ⟨_, need_no hw⟩
  | turnSlotDue p => exact ⟨_, need_no hw⟩
  | turnSlotForced p => exact ⟨_, need_no hw⟩
  | echoReturned a e => exact ⟨_, need_no hw⟩
  | echoNotReturned a => exact ⟨_, need_no hw⟩
  | calResult a g => exact ⟨_, need_no hw⟩
  | keyNonce a g => exact ⟨_, need_no hw⟩
  | keyWrapLo a g => exact ⟨_, need_no hw⟩
  | keyWrapHi a g => exact ⟨_, need_no hw⟩
  | keyConfirm a g => exact ⟨_, need_no hw⟩
  | keyConfirmTimeout a => exact ⟨_, need_no hw⟩
  | keySwitch a g => exact ⟨_, need_no hw⟩
  | noKeys a => exact ⟨_, need_no hw⟩
  | rekeyDue p => exact ⟨_, need_no hw⟩
  | rekeyRetry p => exact ⟨_, need_no hw⟩
  | tapTimePairSend n => exact ⟨_, need_no hw⟩
  | tapTimeReload n wa wb => exact ⟨_, need_no hw⟩
  | tapFireWord n w => exact ⟨_, need_no hw⟩
  | tapFire n x => exact ⟨_, need_no hw⟩
  | firedReport n w => exact ⟨_, need_no hw⟩
  | tapStepWord n wa wb => exact ⟨_, need_no hw⟩
  | tapStepApply n => exact ⟨_, need_no hw⟩
  | tapCfgAccess n off wr w => exact ⟨_, need_no hw⟩
  | tapDelayMeasure n roundTrip => exact ⟨_, need_no hw⟩
  | tapFault n => exact ⟨_, need_no hw⟩
  | regionClockStopped n => exact ⟨_, need_no hw⟩
  | lbArrive n k flag => exact need_two hw
  | lbReleaseTap n k => exact need_two hw
  | localGenTimeout k => exact ⟨_, need_no hw⟩
  | phaseStart n => exact ⟨_, need_no hw⟩
  | phaseDone n m after sample => exact ⟨_, need_no hw⟩
  | replicaSample n after slack => exact ⟨_, need_no hw⟩
  | tdcStartEdge u n e => exact ⟨_, need_no hw⟩
  | tdcStopEdge u n e => exact ⟨_, need_no hw⟩
  | tdcCoarseOverflow u n => exact ⟨_, need_no hw⟩
  | tdcLockAcquired u n start => exact ⟨_, need_no hw⟩
  | tdcLockLost u n start => exact ⟨_, need_no hw⟩
  | tdcLockTimeout u n => exact ⟨_, need_no hw⟩
  | tdcLoopRangeCheck u n v => exact ⟨_, need_no hw⟩
  | tdcHistogramDone u n start hist => exact ⟨_, need_no hw⟩
  | captureEdge k e more => exact ⟨_, need_no hw⟩
  | timeLineSend u => exact nomatch hw
  | timeLineReceived p g => exact ⟨_, need_no hw⟩
  | timeLineCombine => exact nomatch hw
  | millSettleWait => exact nomatch hw
  | leadLost => exact nomatch hw
  | followerConfirmTimeout id => exact nomatch hw
  | stepRelayCheck => exact nomatch hw
  | stepRelay p g => exact ⟨_, need_no hw⟩
  | refPulse r x => exact ⟨_, need_no hw⟩
  | refWindowMiss r => exact ⟨_, need_no hw⟩
  | refEdgeMiss r => exact ⟨_, need_no hw⟩
  | ptpSyncMiss => exact nomatch hw
  | ptpAnnounceTimeout => exact nomatch hw
  | gnssTimeInvalid => exact nomatch hw
  | gnssSurveyDone => exact nomatch hw
  | refFreqResult r m => exact ⟨_, need_no hw⟩
  | disagreeCleared => exact nomatch hw
  | refQualified r => exact ⟨_, need_no hw⟩
  | wtrEnd r => exact ⟨_, need_no hw⟩
  | switchCommit => exact nomatch hw
  | antOpen => exact nomatch hw
  | antShort => exact nomatch hw
  | antFeedRetry feed => exact nomatch hw
  | warmSet => exact nomatch hw
  | warmCleared => exact nomatch hw
  | holdoverSample => exact nomatch hw
  | ageingRefit => exact nomatch hw
  | outputEdge n => exact ⟨_, need_no hw⟩
  | outputMonitor n e => exact ⟨_, need_no hw⟩
  | outShort n => exact ⟨_, need_no hw⟩
  | outShortRetry n still => exact ⟨_, need_no hw⟩
  | outOpen x => exact ⟨_, need_no hw⟩
  | outCfgApply n => exact ⟨_, need_no hw⟩
  | joinGo k => exact ⟨_, need_no hw⟩
  | joinForward p gs => exact ⟨_, need_no hw⟩
  | joinAtMill p gs => exact ⟨_, need_no hw⟩
  | joinAtApex p gs => exact ⟨_, need_no hw⟩
  | routeUpdate p gs => exact ⟨_, need_no hw⟩
  | routeUpdateAck g => exact nomatch hw
  | routeUpdateResend tag => exact nomatch hw
  | routeUnreachable tag rank => exact nomatch hw
  | joinAck a g => exact ⟨_, need_no hw⟩
  | withdrawNotice g => exact nomatch hw
  | formTimeout tag => exact nomatch hw
  | arrive k pay freq => exact ⟨_, need_no hw⟩
  | arrivalToken p g => exact ⟨_, need_no hw⟩
  | arrivalPayload p gs => exact ⟨_, need_no hw⟩
  | levelCutoff tag n => exact nomatch hw
  | partialReceived p sender gs => exact ⟨_, need_no hw⟩
  | partialTimeout tag n sender => exact nomatch hw
  | decisionTime tag n => exact nomatch hw
  | unheardTimeout tag rank => exact nomatch hw
  | generationThreshed tag n => exact nomatch hw
  | launchWord a g => exact ⟨_, need_no hw⟩
  | launchFire k gen => exact ⟨_, need_no hw⟩
  | failureWord a g => exact ⟨_, need_no hw⟩
  | launchMissed k gen => exact ⟨_, need_no hw⟩
  | resultGranule v => exact ⟨_, need_no hw⟩
  | resultMissing k gen => exact ⟨_, need_no hw⟩
  | fenceNotice g => exact nomatch hw
  | suspendTimeout v => exact ⟨_, need_no hw⟩
  | autoJoin k d => exact need_two hw
  | reformNotice a g => exact ⟨_, need_no hw⟩
  | park k => exact ⟨_, need_no hw⟩
  | parkNotice g => exact nomatch hw
  | unpark k => exact ⟨_, need_no hw⟩
  | unparkNotice g => exact nomatch hw
  | leave v => exact ⟨_, need_no hw⟩
  | sheafClosed v => exact ⟨_, need_no hw⟩
  | outlierNote g => exact nomatch hw
  | taskComplete t ok => exact ⟨_, need_no hw⟩
  | thresherSteal t => exact ⟨_, need_no hw⟩
  | starvePromote => exact nomatch hw
  | loadWindow => exact nomatch hw
  | idleSelftest kind ix pass => exact ⟨_, need_no hw⟩
  | saturationEnter => exact nomatch hw
  | saturationExit => exact nomatch hw
  | clusterLost k => exact ⟨_, need_no hw⟩
  | captureDescriptor h g => exact ⟨_, need_no hw⟩
  | captureDataBeat h g nbytes eop => exact ⟨_, need_no hw⟩
  | captureIdleTimeout h => exact ⟨_, need_no hw⟩
  | captureOpenPacket p o0 o1 => exact ⟨_, need_no hw⟩
  | captureDataPacket p d0 gs => exact ⟨_, need_no hw⟩
  | captureClosePacket p c0 c1 => exact ⟨_, need_no hw⟩
  | captureCloseTimeout p k seq => exact ⟨_, need_no hw⟩
  | ledgerRoot => exact nomatch hw
  | retentionCheck => exact nomatch hw
  | siloMode d g => exact ⟨_, need_no hw⟩
  | regionMigrationDone n => exact ⟨_, need_no hw⟩
  | stackLost k => exact ⟨_, need_no hw⟩
  | replayRecord d r => exact ⟨_, need_no hw⟩
  | replayFetch p g => exact ⟨_, need_no hw⟩
  | replayFetchTimeout => exact nomatch hw
  | replayEnd v => exact ⟨_, need_no hw⟩
  | compareFind g d => exact nomatch hw
  | gleanerPassStart v => exact ⟨_, need_no hw⟩
  | gleanerGranule v => exact ⟨_, need_no hw⟩
  | bucketLeak u => exact nomatch hw
  | memberFingerprint p g => exact ⟨_, need_no hw⟩
  | runFingerprint gs => exact nomatch hw
  | hostFpWrite dum w => exact nomatch hw
  | mismatchClassify k gen => exact ⟨_, need_no hw⟩
  | mismatchNotice g => exact nomatch hw
  | pathSweepDone tag failed => exact nomatch hw
  | historyDecay u n => exact nomatch hw
  | testRequest v id serial pack reps fence bytes => exact ⟨_, need_no hw⟩
  | testBusyTimeout => exact nomatch hw
  | testDigest g => exact nomatch hw
  | testItemTimeout => exact nomatch hw
  | testAbort => exact nomatch hw
  | testNoResult id => exact nomatch hw
  | testEngineNotReady => exact nomatch hw
  | testPeriod packs => exact nomatch hw
  | heartbeat => exact nomatch hw
  | hbTimeoutWrite v => exact nomatch hw
  | heartbeatExpire => exact nomatch hw
  | hostReset => exact nomatch hw
  | fencePin => exact nomatch hw
  | fenceDrained => exact nomatch hw
  | unfence => exact nomatch hw
  | leafReset => exact nomatch hw
  | resetRelease ws => exact nomatch hw
  | imageAccepted u => exact nomatch hw
  | selftestDone u r => exact nomatch hw
  | restoreDone u => exact nomatch hw
  | cfgLock => exact nomatch hw
  | userBlockSave u hourly => exact nomatch hw
  | inject place id kind arg arg2 dur count force safe => exact nomatch hw
  | injectCancel place id target => exact nomatch hw
  | injectEnd id => exact nomatch hw
  | marginReportSend u os => exact nomatch hw
  | marginReport p g => exact ⟨_, need_no hw⟩
  | forecastEval => exact nomatch hw
  | forecast d g => exact ⟨_, need_no hw⟩
  | lidOpen => exact nomatch hw
  | meshFault => exact nomatch hw
  | voltGlitch u => exact nomatch hw
  | clockGlitch u => exact nomatch hw
  | tempViolation u => exact nomatch hw
  | hostAlarm => exact nomatch hw
  | fuseBlowDone u ok => exact nomatch hw
  | debugUnlockRequest v id serial => exact ⟨_, need_no hw⟩
  | debugUnlockResponse v id serial dur sig => exact ⟨_, need_no hw⟩
  | debugLock v id serial => exact ⟨_, need_no hw⟩
  | debugExpiry u => exact nomatch hw
  | challengeExpiry u => exact nomatch hw
  | alarmClear v id serial sig => exact ⟨_, need_no hw⟩
  | keyRotate place id body => exact nomatch hw
  | registerWrite wr addr w poison => exact nomatch hw
  | histSelWrite n => exact nomatch hw
  | triggerWrite k off w => exact ⟨_, need_no hw⟩
  | triggerEdge k => exact ⟨_, need_no hw⟩
  | triggerPulseEnd k => exact ⟨_, need_no hw⟩
  | capPopRead => exact nomatch hw
  | sumRequest => exact nomatch hw
  | summaryReady => exact nomatch hw
  | resSelWrite k w => exact ⟨_, need_no hw⟩
  | intFifoRead => exact nomatch hw
  | flashRead => exact nomatch hw
  | flashProgram => exact nomatch hw
  | flashTrimAdd => exact nomatch hw
  | flashStageDone => exact nomatch hw
  | flashDone => exact nomatch hw
  | sessionOpen ok addr => exact nomatch hw
  | sessionIdleTimeout place => exact nomatch hw
  | summary v id serial => exact ⟨_, need_no hw⟩
  | summaryPage1 place id seq => exact nomatch hw
  | regRead place id off n => exact nomatch hw
  | regWrite place id off v mask => exact nomatch hw
  | phaseStep place id utc delta at_ => exact nomatch hw
  | timePass place id utc delta at_ count => exact nomatch hw
  | fence v id serial => exact ⟨_, need_no hw⟩
  | fenceRelease v id serial => exact ⟨_, need_no hw⟩
  | close place id tag known => exact nomatch hw
  | forceArrive place id tag rank n there => exact nomatch hw
  | forceRelease place id tag n there => exact nomatch hw
  | restoreFactoryArm v id serial => exact ⟨_, need_no hw⟩
  | restoreFactoryConfirm v id serial code force => exact ⟨_, need_no hw⟩
  | armExpiry u => exact nomatch hw
  | imageWrite place id off last data => exact nomatch hw
  | calWrite place id body => exact nomatch hw
  | restart place id force safe => exact nomatch hw
  | restartWaitEnd => exact nomatch hw
  | packLoad place id off total last data => exact nomatch hw
  | replay place id body => exact nomatch hw
  | historyRead v id serial first count => exact ⟨_, need_no hw⟩
  | historyClear v id serial path => exact ⟨_, need_no hw⟩
  | logRead place id area tag first limit => exact nomatch hw
  | telemetry place target id stream first => exact nomatch hw
  | telemetryStop place target id => exact nomatch hw
  | telemetryTick => exact nomatch hw
  | moduleStatus place id => exact nomatch hw
  | cardConfig place id addr digest => exact nomatch hw
  | mgmtRelay v => exact ⟨_, need_no hw⟩
  | mgmtAnswer gs => exact nomatch hw
  | leafNoAnswer id => exact nomatch hw
  | feedUsable f => exact ⟨_, need_no hw⟩
  | feedUndervolt f => exact ⟨_, need_no hw⟩
  | feedOvervolt f => exact ⟨_, need_no hw⟩
  | feedReversed f => exact ⟨_, need_no hw⟩
  | feedAbsent f => exact ⟨_, need_no hw⟩
  | powerWarn => exact nomatch hw
  | busCollapse => exact nomatch hw
  | sledSoftStartDone k => exact ⟨_, need_no hw⟩
  | sledSoftStartTimeout k => exact ⟨_, need_no hw⟩
  | sledOvercurrent k => exact ⟨_, need_no hw⟩
  | sledTripRetry k => exact ⟨_, need_no hw⟩
  | sledInserted k board => exact ⟨_, need_no hw⟩
  | sledRemoved k => exact ⟨_, need_no hw⟩
  | brickInserted k => exact ⟨_, need_no hw⟩
  | brickRemoved k => exact ⟨_, need_no hw⟩
  | fanInserted k => exact ⟨_, need_no hw⟩
  | fanRemoved k => exact ⟨_, need_no hw⟩
  | cardInserted selftestOk => exact nomatch hw
  | cardRemoved => exact nomatch hw
  | pmbusPoll r => exact nomatch hw
  | fanDemand k pct => exact ⟨_, need_no hw⟩
  | fanNoDemand k => exact ⟨_, need_no hw⟩
  | thermalWarn k => exact ⟨_, need_no hw⟩
  | thermalShutdown k => exact ⟨_, need_no hw⟩
  | thermalRestored k => exact ⟨_, need_no hw⟩
  | sledLidUnpowered k mesh => exact ⟨_, need_no hw⟩
  | hubRefClockFail => exact nomatch hw
  | sensorUpdate u n temp mv vmin => exact ⟨_, need_no hw⟩
  | sensorStale u n => exact ⟨_, need_no hw⟩
  | followerConfirm id => exact nomatch hw
  | holdoverUpdate => exact nomatch hw
  | regionEdge n x => exact ⟨_, need_no hw⟩
  | forgetPair tag digest => exact nomatch hw
  | fenceInputDeasserted reset => exact nomatch hw
  | engineVectorTest a pass => exact ⟨_, need_no hw⟩
  | sessionClosed place => exact nomatch hw
  | badCommand place target cmd id => exact nomatch hw

end Sys2Proof.Laws
end

