-- ==== Sys2Proof/Laws/Tab.lean ====
section
/-! SUPPORT. The sparse array: what a read finds after a write, and that every operation keeps the canonical form. -/
namespace Sys2Proof.Laws
open Sys2Proof.Machine

variable {α : Type} {d : α}

/-- A key below all of an array's keys is not listed. -/
theorem tabGet_below {t : Tab α} {m k : Nat} (h : tabAbove m t = true) (hk : k ≤ m) : tabGet d t k = d := by
  induction t with
  | nil => rfl
  | cons x t ih =>
    obtain ⟨j, a⟩ := x
    simp only [tabAbove, Bool.and_eq_true, decide_eq_true_eq] at h
    have hj : j ≠ k := by omega
    simp only [tabGet, hj, if_false]
    exact ih h.2
/-- A bound below another bounds too. -/
theorem tabAbove_le {t : Tab α} {m n : Nat} (h : tabAbove n t = true) (hm : m ≤ n) : tabAbove m t = true := by
  induction t with
  | nil => rfl
  | cons x t ih =>
    obtain ⟨j, a⟩ := x
    simp only [tabAbove, Bool.and_eq_true, decide_eq_true_eq] at h ⊢
    exact ⟨by omega, ih h.2⟩
/-! ### The parts of a write -/
theorem tabAbove_drop {t : Tab α} {m : Nat} (k : Nat) (h : tabAbove m t = true) : tabAbove m (tabDrop k t) = true := by
  induction t with
  | nil => rfl
  | cons x t ih =>
    obtain ⟨j, b⟩ := x
    simp only [tabAbove, Bool.and_eq_true, decide_eq_true_eq] at h
    simp only [tabDrop]
    split
    · exact ih h.2
    · simp [tabAbove, h.1, ih h.2]
theorem tabAbove_put {t : Tab α} {m k : Nat} (a : α) (h : tabAbove m t = true) (hk : m < k) : tabAbove m (tabPut k a t) = true := by
  induction t with
  | nil => simp [tabPut, tabAbove, hk]
  | cons x t ih =>
    obtain ⟨j, b⟩ := x
    simp only [tabAbove, Bool.and_eq_true, decide_eq_true_eq] at h
    simp only [tabPut]
    split <;> simp [tabAbove, hk, h.1, h.2, ih h.2]
theorem tabGet_drop_same (t : Tab α) (k : Nat) : tabGet d (tabDrop k t) k = d := by
  induction t with
  | nil => rfl
  | cons x t ih =>
    obtain ⟨j, b⟩ := x
    simp only [tabDrop]
    split
    · exact ih
    · simp only [tabGet]; rw [if_neg ‹_›]; exact ih
theorem tabGet_drop_other {t : Tab α} {k j : Nat} (hj : j ≠ k) : tabGet d (tabDrop k t) j = tabGet d t j := by
  induction t with
  | nil => rfl
  | cons x t ih =>
    obtain ⟨i, b⟩ := x
    simp only [tabDrop]
    split
    · rename_i hi
      simp only [tabGet]
      rw [if_neg (by omega)]
      exact ih
    · simp only [tabGet, ih]
theorem tabGet_put_other {t : Tab α} {k j : Nat} (a : α) (hj : j ≠ k) : tabGet d (tabPut k a t) j = tabGet d t j := by
  induction t with
  | nil => simp only [tabPut, tabGet]; rw [if_neg (by omega)]
  | cons x t ih =>
    obtain ⟨i, b⟩ := x
    simp only [tabPut]
    split
    · simp only [tabGet]; rw [if_neg (by omega)]
    · simp only [tabGet, ih]
theorem tabGet_put_drop (t : Tab α) (k : Nat) (a : α) : tabGet d (tabPut k a (tabDrop k t)) k = a := by
  induction t with
  | nil => simp [tabDrop, tabPut, tabGet]
  | cons x t ih =>
    obtain ⟨j, b⟩ := x
    simp only [tabDrop]
    split
    · exact ih
    · simp only [tabPut]
      split
      · simp [tabGet]
      · simp only [tabGet]; rw [if_neg ‹_›]; exact ih
theorem tabDrop_key (t : Tab α) (k : Nat) : ∀ x ∈ tabDrop k t, x.1 ≠ k := by
  induction t with
  | nil => intro x hx; cases hx
  | cons y t ih =>
    obtain ⟨j, b⟩ := y
    intro x hx
    simp only [tabDrop] at hx
    split at hx
    · exact ih x hx
    · rcases List.mem_cons.mp hx with rfl | hx
      · assumption
      · exact ih x hx
variable [DecidableEq α]

/-! ### A write -/
theorem tabAbove_set {t : Tab α} {m k : Nat} {a : α} (h : tabAbove m t = true) (hk : m < k) : tabAbove m (tabSet d t k a) = true := by
  unfold tabSet
  split
  · exact tabAbove_drop k h
  · exact tabAbove_put a (tabAbove_drop k h) hk
theorem tabDrop_wf {t : Tab α} (k : Nat) (h : tabWf d t = true) : tabWf d (tabDrop k t) = true := by
  induction t with
  | nil => rfl
  | cons x t ih =>
    obtain ⟨j, b⟩ := x
    simp only [tabWf, Bool.and_eq_true, decide_eq_true_eq] at h
    simp only [tabDrop]
    split
    · exact ih h.2
    · simp [tabWf, h.1.1, tabAbove_drop k h.1.2, ih h.2]
theorem tabPut_wf {t : Tab α} {k : Nat} {a : α} (ha : a ≠ d) (hk : ∀ x ∈ t, x.1 ≠ k) (h : tabWf d t = true) : tabWf d (tabPut k a t) = true := by
  induction t with
  | nil => simp [tabPut, tabWf, tabAbove, ha]
  | cons x t ih =>
    obtain ⟨j, b⟩ := x
    simp only [tabWf, Bool.and_eq_true, decide_eq_true_eq] at h
    simp only [tabPut]
    split
    · rename_i hlt
      simp [tabWf, tabAbove, ha, hlt, h, tabAbove_le h.1.2 (Nat.le_of_lt hlt)]
    · have hj : j ≠ k := hk (j, b) (List.mem_cons_self)
      have hjk : j < k := by omega
      simp [tabWf, h.1.1, tabAbove_put a h.1.2 hjk, ih (fun x hx => hk x (List.mem_cons_of_mem _ hx)) h.2]
/-- A write keeps the canonical form. -/
theorem tabSet_wf {t : Tab α} {k : Nat} {a : α} (h : tabWf d t = true) : tabWf d (tabSet d t k a) = true := by
  unfold tabSet
  split
  · exact tabDrop_wf k h
  · exact tabPut_wf ‹_› (tabDrop_key t k) (tabDrop_wf k h)
/-- What was written is read. -/
@[simp] theorem tabGet_set_same (t : Tab α) (k : Nat) (a : α) : tabGet d (tabSet d t k a) k = a := by
  unfold tabSet
  split
  · rename_i h; rw [h]; exact tabGet_drop_same t k
  · exact tabGet_put_drop t k a
/-- A write leaves every other key. -/
theorem tabGet_set_other {t : Tab α} {k j : Nat} {a : α} (hj : j ≠ k) : tabGet d (tabSet d t k a) j = tabGet d t j := by
  unfold tabSet
  split
  · exact tabGet_drop_other hj
  · rw [tabGet_put_other a hj, tabGet_drop_other hj]
theorem tabGet_set (t : Tab α) (k j : Nat) (a : α) : tabGet d (tabSet d t k a) j = if j = k then a else tabGet d t j := by
  split
  · rename_i h; rw [h]; exact tabGet_set_same t k a
  · exact tabGet_set_other ‹_›
/-- Changing one entry keeps the canonical form. -/
theorem tabUpd_wf {t : Tab α} {k : Nat} {f : α → α} (h : tabWf d t = true) : tabWf d (tabUpd d t k f) = true := tabSet_wf h
/-- Changing every entry keeps bounds and the canonical form. -/
theorem tabMap_wf {f : Nat → α → α} {t : Tab α} (h : tabWf d t = true) :
    tabWf d (tabMap d f t) = true ∧ ∀ m, tabAbove m t = true → tabAbove m (tabMap d f t) = true := by
  induction t with
  | nil => exact ⟨rfl, fun _ h => h⟩
  | cons x t ih =>
    obtain ⟨j, b⟩ := x
    simp only [tabWf, Bool.and_eq_true, decide_eq_true_eq] at h
    obtain ⟨i1, i2⟩ := ih h.2
    simp only [tabMap]
    split
    · refine ⟨i1, fun m hm => ?_⟩
      simp only [tabAbove, Bool.and_eq_true, decide_eq_true_eq] at hm
      exact i2 m hm.2
    · rename_i hf
      refine ⟨by simp [tabWf, hf, i1, i2 j h.1.2], fun m hm => ?_⟩
      simp only [tabAbove, Bool.and_eq_true, decide_eq_true_eq] at hm ⊢
      exact ⟨hm.1, i2 m hm.2⟩
/-- Writing consecutive entries keeps the canonical form. -/
theorem tabWriteList_wf {l : List α} : ∀ {t : Tab α} {k : Nat}, tabWf d t = true → tabWf d (tabWriteList d t k l) = true := by
  induction l with
  | nil => intro t k h; exact h
  | cons a l ih => intro t k h; exact ih (tabSet_wf h)

end Sys2Proof.Laws
end

