-- ==== Sys2Proof/Laws/State.lean ====
section
/-! SUPPORT. What each write of one part of the state leaves, field by field, and what a read finds after it. -/
namespace Sys2Proof.Laws
open Sys2Proof.Machine

/-! ### setLeafPort -/
@[simp] theorem setLeafPort_inReset (l : Leaf) (d : Nat) (p : Port) : (setLeafPort l d p).inReset = l.inReset := by unfold setLeafPort; split <;> rfl
@[simp] theorem setLeafPort_clkFail (l : Leaf) (d : Nat) (p : Port) : (setLeafPort l d p).clkFail = l.clkFail := by unfold setLeafPort; split <;> rfl
@[simp] theorem setLeafPort_dark (l : Leaf) (d : Nat) (p : Port) : (setLeafPort l d p).dark = l.dark := by unfold setLeafPort; split <;> rfl
@[simp] theorem setLeafPort_serial (l : Leaf) (d : Nat) (p : Port) : (setLeafPort l d p).serial = l.serial := by unfold setLeafPort; split <;> rfl
@[simp] theorem setLeafPort_version (l : Leaf) (d : Nat) (p : Port) : (setLeafPort l d p).version = l.version := by unfold setLeafPort; split <;> rfl
@[simp] theorem setLeafPort_hostType (l : Leaf) (d : Nat) (p : Port) : (setLeafPort l d p).hostType = l.hostType := by unfold setLeafPort; split <;> rfl
@[simp] theorem setLeafPort_tapsSeen (l : Leaf) (d : Nat) (p : Port) : (setLeafPort l d p).tapsSeen = l.tapsSeen := by unfold setLeafPort; split <;> rfl
@[simp] theorem setLeafPort_fpaW (l : Leaf) (d : Nat) (p : Port) : (setLeafPort l d p).fpaW = l.fpaW := by unfold setLeafPort; split <;> rfl
@[simp] theorem setLeafPort_fpaB (l : Leaf) (d : Nat) (p : Port) : (setLeafPort l d p).fpaB = l.fpaB := by unfold setLeafPort; split <;> rfl
@[simp] theorem setLeafPort_hostFw (l : Leaf) (d : Nat) (p : Port) : (setLeafPort l d p).hostFw = l.hostFw := by unfold setLeafPort; split <;> rfl
@[simp] theorem setLeafPort_hostDum (l : Leaf) (d : Nat) (p : Port) : (setLeafPort l d p).hostDum = l.hostDum := by unfold setLeafPort; split <;> rfl
@[simp] theorem setLeafPort_lockedWrite (l : Leaf) (d : Nat) (p : Port) : (setLeafPort l d p).lockedWrite = l.lockedWrite := by unfold setLeafPort; split <;> rfl
@[simp] theorem setLeafPort_slotCmdBad (l : Leaf) (d : Nat) (p : Port) : (setLeafPort l d p).slotCmdBad = l.slotCmdBad := by unfold setLeafPort; split <;> rfl
@[simp] theorem setLeafPort_ints (l : Leaf) (d : Nat) (p : Port) : (setLeafPort l d p).ints = l.ints := by unfold setLeafPort; split <;> rfl
@[simp] theorem setLeafPort_time (l : Leaf) (d : Nat) (p : Port) : (setLeafPort l d p).time = l.time := by unfold setLeafPort; split <;> rfl
@[simp] theorem setLeafPort_snaps (l : Leaf) (d : Nat) (p : Port) : (setLeafPort l d p).snaps = l.snaps := by unfold setLeafPort; split <;> rfl
@[simp] theorem setLeafPort_tsel (l : Leaf) (d : Nat) (p : Port) : (setLeafPort l d p).tsel = l.tsel := by unfold setLeafPort; split <;> rfl
@[simp] theorem setLeafPort_domW (l : Leaf) (d : Nat) (p : Port) : (setLeafPort l d p).domW = l.domW := by unfold setLeafPort; split <;> rfl
@[simp] theorem setLeafPort_domB (l : Leaf) (d : Nat) (p : Port) : (setLeafPort l d p).domB = l.domB := by unfold setLeafPort; split <;> rfl
@[simp] theorem setLeafPort_sharedMods (l : Leaf) (d : Nat) (p : Port) : (setLeafPort l d p).sharedMods = l.sharedMods := by unfold setLeafPort; split <;> rfl
@[simp] theorem setLeafPort_wiring (l : Leaf) (d : Nat) (p : Port) : (setLeafPort l d p).wiring = l.wiring := by unfold setLeafPort; split <;> rfl
@[simp] theorem setLeafPort_mapW (l : Leaf) (d : Nat) (p : Port) : (setLeafPort l d p).mapW = l.mapW := by unfold setLeafPort; split <;> rfl
@[simp] theorem setLeafPort_mapB (l : Leaf) (d : Nat) (p : Port) : (setLeafPort l d p).mapB = l.mapB := by unfold setLeafPort; split <;> rfl
@[simp] theorem setLeafPort_tdcs (l : Leaf) (d : Nat) (p : Port) : (setLeafPort l d p).tdcs = l.tdcs := by unfold setLeafPort; split <;> rfl
@[simp] theorem setLeafPort_taps (l : Leaf) (d : Nat) (p : Port) : (setLeafPort l d p).taps = l.taps := by unfold setLeafPort; split <;> rfl
@[simp] theorem setLeafPort_chans (l : Leaf) (d : Nat) (p : Port) : (setLeafPort l d p).chans = l.chans := by unfold setLeafPort; split <;> rfl
@[simp] theorem setLeafPort_slots (l : Leaf) (d : Nat) (p : Port) : (setLeafPort l d p).slots = l.slots := by unfold setLeafPort; split <;> rfl
@[simp] theorem setLeafPort_progSel (l : Leaf) (d : Nat) (p : Port) : (setLeafPort l d p).progSel = l.progSel := by unfold setLeafPort; split <;> rfl
@[simp] theorem setLeafPort_apertures (l : Leaf) (d : Nat) (p : Port) : (setLeafPort l d p).apertures = l.apertures := by unfold setLeafPort; split <;> rfl
@[simp] theorem setLeafPort_triggers (l : Leaf) (d : Nat) (p : Port) : (setLeafPort l d p).triggers = l.triggers := by unfold setLeafPort; split <;> rfl
@[simp] theorem setLeafPort_trigLate (l : Leaf) (d : Nat) (p : Port) : (setLeafPort l d p).trigLate = l.trigLate := by unfold setLeafPort; split <;> rfl
@[simp] theorem setLeafPort_trigDropped (l : Leaf) (d : Nat) (p : Port) : (setLeafPort l d p).trigDropped = l.trigDropped := by unfold setLeafPort; split <;> rfl
@[simp] theorem setLeafPort_caps (l : Leaf) (d : Nat) (p : Port) : (setLeafPort l d p).caps = l.caps := by unfold setLeafPort; split <;> rfl
@[simp] theorem setLeafPort_capDelay (l : Leaf) (d : Nat) (p : Port) : (setLeafPort l d p).capDelay = l.capDelay := by unfold setLeafPort; split <;> rfl
@[simp] theorem setLeafPort_capp (l : Leaf) (d : Nat) (p : Port) : (setLeafPort l d p).capp = l.capp := by unfold setLeafPort; split <;> rfl
@[simp] theorem setLeafPort_fence (l : Leaf) (d : Nat) (p : Port) : (setLeafPort l d p).fence = l.fence := by unfold setLeafPort; split <;> rfl
@[simp] theorem setLeafPort_tests (l : Leaf) (d : Nat) (p : Port) : (setLeafPort l d p).tests = l.tests := by unfold setLeafPort; split <;> rfl
@[simp] theorem setLeafPort_mmCount (l : Leaf) (d : Nat) (p : Port) : (setLeafPort l d p).mmCount = l.mmCount := by unfold setLeafPort; split <;> rfl
@[simp] theorem setLeafPort_history (l : Leaf) (d : Nat) (p : Port) : (setLeafPort l d p).history = l.history := by unfold setLeafPort; split <;> rfl
@[simp] theorem setLeafPort_histSel (l : Leaf) (d : Nat) (p : Port) : (setLeafPort l d p).histSel = l.histSel := by unfold setLeafPort; split <;> rfl
@[simp] theorem setLeafPort_histEntry (l : Leaf) (d : Nat) (p : Port) : (setLeafPort l d p).histEntry = l.histEntry := by unfold setLeafPort; split <;> rfl
@[simp] theorem setLeafPort_code (l : Leaf) (d : Nat) (p : Port) : (setLeafPort l d p).code = l.code := by unfold setLeafPort; split <;> rfl
@[simp] theorem setLeafPort_encoderBad (l : Leaf) (d : Nat) (p : Port) : (setLeafPort l d p).encoderBad = l.encoderBad := by unfold setLeafPort; split <;> rfl
@[simp] theorem setLeafPort_start (l : Leaf) (d : Nat) (p : Port) : (setLeafPort l d p).start = l.start := by unfold setLeafPort; split <;> rfl
@[simp] theorem setLeafPort_sec (l : Leaf) (d : Nat) (p : Port) : (setLeafPort l d p).sec = l.sec := by unfold setLeafPort; split <;> rfl
@[simp] theorem setLeafPort_sum (l : Leaf) (d : Nat) (p : Port) : (setLeafPort l d p).sum = l.sum := by unfold setLeafPort; split <;> rfl
@[simp] theorem setLeafPort_mgmtSum (l : Leaf) (d : Nat) (p : Port) : (setLeafPort l d p).mgmtSum = l.mgmtSum := by unfold setLeafPort; split <;> rfl
@[simp] theorem setLeafPort_fwin (l : Leaf) (d : Nat) (p : Port) : (setLeafPort l d p).fwin = l.fwin := by unfold setLeafPort; split <;> rfl
@[simp] theorem setLeafPort_answers (l : Leaf) (d : Nat) (p : Port) : (setLeafPort l d p).answers = l.answers := by unfold setLeafPort; split <;> rfl
@[simp] theorem setLeafPort_sensors (l : Leaf) (d : Nat) (p : Port) : (setLeafPort l d p).sensors = l.sensors := by unfold setLeafPort; split <;> rfl
@[simp] theorem setLeafPort_rdata (l : Leaf) (d : Nat) (p : Port) : (setLeafPort l d p).rdata = l.rdata := by unfold setLeafPort; split <;> rfl
@[simp] theorem setLeafPort_resp (l : Leaf) (d : Nat) (p : Port) : (setLeafPort l d p).resp = l.resp := by unfold setLeafPort; split <;> rfl
@[simp] theorem setLeafPort_free (l : Leaf) (d : Nat) (p : Port) : (setLeafPort l d p).free = l.free := by unfold setLeafPort; split <;> rfl
/-! ### setLeafDom -/
@[simp] theorem setLeafDom_inReset (l : Leaf) (d : Nat) (x : DomLoop) : (setLeafDom l d x).inReset = l.inReset := by unfold setLeafDom; split <;> rfl
@[simp] theorem setLeafDom_clkFail (l : Leaf) (d : Nat) (x : DomLoop) : (setLeafDom l d x).clkFail = l.clkFail := by unfold setLeafDom; split <;> rfl
@[simp] theorem setLeafDom_dark (l : Leaf) (d : Nat) (x : DomLoop) : (setLeafDom l d x).dark = l.dark := by unfold setLeafDom; split <;> rfl
@[simp] theorem setLeafDom_serial (l : Leaf) (d : Nat) (x : DomLoop) : (setLeafDom l d x).serial = l.serial := by unfold setLeafDom; split <;> rfl
@[simp] theorem setLeafDom_version (l : Leaf) (d : Nat) (x : DomLoop) : (setLeafDom l d x).version = l.version := by unfold setLeafDom; split <;> rfl
@[simp] theorem setLeafDom_hostType (l : Leaf) (d : Nat) (x : DomLoop) : (setLeafDom l d x).hostType = l.hostType := by unfold setLeafDom; split <;> rfl
@[simp] theorem setLeafDom_tapsSeen (l : Leaf) (d : Nat) (x : DomLoop) : (setLeafDom l d x).tapsSeen = l.tapsSeen := by unfold setLeafDom; split <;> rfl
@[simp] theorem setLeafDom_fpaW (l : Leaf) (d : Nat) (x : DomLoop) : (setLeafDom l d x).fpaW = l.fpaW := by unfold setLeafDom; split <;> rfl
@[simp] theorem setLeafDom_fpaB (l : Leaf) (d : Nat) (x : DomLoop) : (setLeafDom l d x).fpaB = l.fpaB := by unfold setLeafDom; split <;> rfl
@[simp] theorem setLeafDom_hostFw (l : Leaf) (d : Nat) (x : DomLoop) : (setLeafDom l d x).hostFw = l.hostFw := by unfold setLeafDom; split <;> rfl
@[simp] theorem setLeafDom_hostDum (l : Leaf) (d : Nat) (x : DomLoop) : (setLeafDom l d x).hostDum = l.hostDum := by unfold setLeafDom; split <;> rfl
@[simp] theorem setLeafDom_lockedWrite (l : Leaf) (d : Nat) (x : DomLoop) : (setLeafDom l d x).lockedWrite = l.lockedWrite := by unfold setLeafDom; split <;> rfl
@[simp] theorem setLeafDom_slotCmdBad (l : Leaf) (d : Nat) (x : DomLoop) : (setLeafDom l d x).slotCmdBad = l.slotCmdBad := by unfold setLeafDom; split <;> rfl
@[simp] theorem setLeafDom_ints (l : Leaf) (d : Nat) (x : DomLoop) : (setLeafDom l d x).ints = l.ints := by unfold setLeafDom; split <;> rfl
@[simp] theorem setLeafDom_time (l : Leaf) (d : Nat) (x : DomLoop) : (setLeafDom l d x).time = l.time := by unfold setLeafDom; split <;> rfl
@[simp] theorem setLeafDom_snaps (l : Leaf) (d : Nat) (x : DomLoop) : (setLeafDom l d x).snaps = l.snaps := by unfold setLeafDom; split <;> rfl
@[simp] theorem setLeafDom_tsel (l : Leaf) (d : Nat) (x : DomLoop) : (setLeafDom l d x).tsel = l.tsel := by unfold setLeafDom; split <;> rfl
@[simp] theorem setLeafDom_port0 (l : Leaf) (d : Nat) (x : DomLoop) : (setLeafDom l d x).port0 = l.port0 := by unfold setLeafDom; split <;> rfl
@[simp] theorem setLeafDom_port1 (l : Leaf) (d : Nat) (x : DomLoop) : (setLeafDom l d x).port1 = l.port1 := by unfold setLeafDom; split <;> rfl
@[simp] theorem setLeafDom_sharedMods (l : Leaf) (d : Nat) (x : DomLoop) : (setLeafDom l d x).sharedMods = l.sharedMods := by unfold setLeafDom; split <;> rfl
@[simp] theorem setLeafDom_wiring (l : Leaf) (d : Nat) (x : DomLoop) : (setLeafDom l d x).wiring = l.wiring := by unfold setLeafDom; split <;> rfl
@[simp] theorem setLeafDom_mapW (l : Leaf) (d : Nat) (x : DomLoop) : (setLeafDom l d x).mapW = l.mapW := by unfold setLeafDom; split <;> rfl
@[simp] theorem setLeafDom_mapB (l : Leaf) (d : Nat) (x : DomLoop) : (setLeafDom l d x).mapB = l.mapB := by unfold setLeafDom; split <;> rfl
@[simp] theorem setLeafDom_tdcs (l : Leaf) (d : Nat) (x : DomLoop) : (setLeafDom l d x).tdcs = l.tdcs := by unfold setLeafDom; split <;> rfl
@[simp] theorem setLeafDom_taps (l : Leaf) (d : Nat) (x : DomLoop) : (setLeafDom l d x).taps = l.taps := by unfold setLeafDom; split <;> rfl
@[simp] theorem setLeafDom_chans (l : Leaf) (d : Nat) (x : DomLoop) : (setLeafDom l d x).chans = l.chans := by unfold setLeafDom; split <;> rfl
@[simp] theorem setLeafDom_slots (l : Leaf) (d : Nat) (x : DomLoop) : (setLeafDom l d x).slots = l.slots := by unfold setLeafDom; split <;> rfl
@[simp] theorem setLeafDom_progSel (l : Leaf) (d : Nat) (x : DomLoop) : (setLeafDom l d x).progSel = l.progSel := by unfold setLeafDom; split <;> rfl
@[simp] theorem setLeafDom_apertures (l : Leaf) (d : Nat) (x : DomLoop) : (setLeafDom l d x).apertures = l.apertures := by unfold setLeafDom; split <;> rfl
@[simp] theorem setLeafDom_triggers (l : Leaf) (d : Nat) (x : DomLoop) : (setLeafDom l d x).triggers = l.triggers := by unfold setLeafDom; split <;> rfl
@[simp] theorem setLeafDom_trigLate (l : Leaf) (d : Nat) (x : DomLoop) : (setLeafDom l d x).trigLate = l.trigLate := by unfold setLeafDom; split <;> rfl
@[simp] theorem setLeafDom_trigDropped (l : Leaf) (d : Nat) (x : DomLoop) : (setLeafDom l d x).trigDropped = l.trigDropped := by unfold setLeafDom; split <;> rfl
@[simp] theorem setLeafDom_caps (l : Leaf) (d : Nat) (x : DomLoop) : (setLeafDom l d x).caps = l.caps := by unfold setLeafDom; split <;> rfl
@[simp] theorem setLeafDom_capDelay (l : Leaf) (d : Nat) (x : DomLoop) : (setLeafDom l d x).capDelay = l.capDelay := by unfold setLeafDom; split <;> rfl
@[simp] theorem setLeafDom_capp (l : Leaf) (d : Nat) (x : DomLoop) : (setLeafDom l d x).capp = l.capp := by unfold setLeafDom; split <;> rfl
@[simp] theorem setLeafDom_fence (l : Leaf) (d : Nat) (x : DomLoop) : (setLeafDom l d x).fence = l.fence := by unfold setLeafDom; split <;> rfl
@[simp] theorem setLeafDom_tests (l : Leaf) (d : Nat) (x : DomLoop) : (setLeafDom l d x).tests = l.tests := by unfold setLeafDom; split <;> rfl
@[simp] theorem setLeafDom_mmCount (l : Leaf) (d : Nat) (x : DomLoop) : (setLeafDom l d x).mmCount = l.mmCount := by unfold setLeafDom; split <;> rfl
@[simp] theorem setLeafDom_history (l : Leaf) (d : Nat) (x : DomLoop) : (setLeafDom l d x).history = l.history := by unfold setLeafDom; split <;> rfl
@[simp] theorem setLeafDom_histSel (l : Leaf) (d : Nat) (x : DomLoop) : (setLeafDom l d x).histSel = l.histSel := by unfold setLeafDom; split <;> rfl
@[simp] theorem setLeafDom_histEntry (l : Leaf) (d : Nat) (x : DomLoop) : (setLeafDom l d x).histEntry = l.histEntry := by unfold setLeafDom; split <;> rfl
@[simp] theorem setLeafDom_code (l : Leaf) (d : Nat) (x : DomLoop) : (setLeafDom l d x).code = l.code := by unfold setLeafDom; split <;> rfl
@[simp] theorem setLeafDom_encoderBad (l : Leaf) (d : Nat) (x : DomLoop) : (setLeafDom l d x).encoderBad = l.encoderBad := by unfold setLeafDom; split <;> rfl
@[simp] theorem setLeafDom_start (l : Leaf) (d : Nat) (x : DomLoop) : (setLeafDom l d x).start = l.start := by unfold setLeafDom; split <;> rfl
@[simp] theorem setLeafDom_sec (l : Leaf) (d : Nat) (x : DomLoop) : (setLeafDom l d x).sec = l.sec := by unfold setLeafDom; split <;> rfl
@[simp] theorem setLeafDom_sum (l : Leaf) (d : Nat) (x : DomLoop) : (setLeafDom l d x).sum = l.sum := by unfold setLeafDom; split <;> rfl
@[simp] theorem setLeafDom_mgmtSum (l : Leaf) (d : Nat) (x : DomLoop) : (setLeafDom l d x).mgmtSum = l.mgmtSum := by unfold setLeafDom; split <;> rfl
@[simp] theorem setLeafDom_fwin (l : Leaf) (d : Nat) (x : DomLoop) : (setLeafDom l d x).fwin = l.fwin := by unfold setLeafDom; split <;> rfl
@[simp] theorem setLeafDom_answers (l : Leaf) (d : Nat) (x : DomLoop) : (setLeafDom l d x).answers = l.answers := by unfold setLeafDom; split <;> rfl
@[simp] theorem setLeafDom_sensors (l : Leaf) (d : Nat) (x : DomLoop) : (setLeafDom l d x).sensors = l.sensors := by unfold setLeafDom; split <;> rfl
@[simp] theorem setLeafDom_rdata (l : Leaf) (d : Nat) (x : DomLoop) : (setLeafDom l d x).rdata = l.rdata := by unfold setLeafDom; split <;> rfl
@[simp] theorem setLeafDom_resp (l : Leaf) (d : Nat) (x : DomLoop) : (setLeafDom l d x).resp = l.resp := by unfold setLeafDom; split <;> rfl
@[simp] theorem setLeafDom_free (l : Leaf) (d : Nat) (x : DomLoop) : (setLeafDom l d x).free = l.free := by unfold setLeafDom; split <;> rfl
/-! ### setTap -/
@[simp] theorem setTap_inReset (l : Leaf) (n : Nat) (t : Tap) : (setTap l n t).inReset = l.inReset := rfl
@[simp] theorem setTap_clkFail (l : Leaf) (n : Nat) (t : Tap) : (setTap l n t).clkFail = l.clkFail := rfl
@[simp] theorem setTap_dark (l : Leaf) (n : Nat) (t : Tap) : (setTap l n t).dark = l.dark := rfl
@[simp] theorem setTap_serial (l : Leaf) (n : Nat) (t : Tap) : (setTap l n t).serial = l.serial := rfl
@[simp] theorem setTap_version (l : Leaf) (n : Nat) (t : Tap) : (setTap l n t).version = l.version := rfl
@[simp] theorem setTap_hostType (l : Leaf) (n : Nat) (t : Tap) : (setTap l n t).hostType = l.hostType := rfl
@[simp] theorem setTap_tapsSeen (l : Leaf) (n : Nat) (t : Tap) : (setTap l n t).tapsSeen = l.tapsSeen := rfl
@[simp] theorem setTap_fpaW (l : Leaf) (n : Nat) (t : Tap) : (setTap l n t).fpaW = l.fpaW := rfl
@[simp] theorem setTap_fpaB (l : Leaf) (n : Nat) (t : Tap) : (setTap l n t).fpaB = l.fpaB := rfl
@[simp] theorem setTap_hostFw (l : Leaf) (n : Nat) (t : Tap) : (setTap l n t).hostFw = l.hostFw := rfl
@[simp] theorem setTap_hostDum (l : Leaf) (n : Nat) (t : Tap) : (setTap l n t).hostDum = l.hostDum := rfl
@[simp] theorem setTap_lockedWrite (l : Leaf) (n : Nat) (t : Tap) : (setTap l n t).lockedWrite = l.lockedWrite := rfl
@[simp] theorem setTap_slotCmdBad (l : Leaf) (n : Nat) (t : Tap) : (setTap l n t).slotCmdBad = l.slotCmdBad := rfl
@[simp] theorem setTap_ints (l : Leaf) (n : Nat) (t : Tap) : (setTap l n t).ints = l.ints := rfl
@[simp] theorem setTap_time (l : Leaf) (n : Nat) (t : Tap) : (setTap l n t).time = l.time := rfl
@[simp] theorem setTap_snaps (l : Leaf) (n : Nat) (t : Tap) : (setTap l n t).snaps = l.snaps := rfl
@[simp] theorem setTap_tsel (l : Leaf) (n : Nat) (t : Tap) : (setTap l n t).tsel = l.tsel := rfl
@[simp] theorem setTap_domW (l : Leaf) (n : Nat) (t : Tap) : (setTap l n t).domW = l.domW := rfl
@[simp] theorem setTap_domB (l : Leaf) (n : Nat) (t : Tap) : (setTap l n t).domB = l.domB := rfl
@[simp] theorem setTap_port0 (l : Leaf) (n : Nat) (t : Tap) : (setTap l n t).port0 = l.port0 := rfl
@[simp] theorem setTap_port1 (l : Leaf) (n : Nat) (t : Tap) : (setTap l n t).port1 = l.port1 := rfl
@[simp] theorem setTap_sharedMods (l : Leaf) (n : Nat) (t : Tap) : (setTap l n t).sharedMods = l.sharedMods := rfl
@[simp] theorem setTap_wiring (l : Leaf) (n : Nat) (t : Tap) : (setTap l n t).wiring = l.wiring := rfl
@[simp] theorem setTap_mapW (l : Leaf) (n : Nat) (t : Tap) : (setTap l n t).mapW = l.mapW := rfl
@[simp] theorem setTap_mapB (l : Leaf) (n : Nat) (t : Tap) : (setTap l n t).mapB = l.mapB := rfl
@[simp] theorem setTap_tdcs (l : Leaf) (n : Nat) (t : Tap) : (setTap l n t).tdcs = l.tdcs := rfl
@[simp] theorem setTap_chans (l : Leaf) (n : Nat) (t : Tap) : (setTap l n t).chans = l.chans := rfl
@[simp] theorem setTap_slots (l : Leaf) (n : Nat) (t : Tap) : (setTap l n t).slots = l.slots := rfl
@[simp] theorem setTap_progSel (l : Leaf) (n : Nat) (t : Tap) : (setTap l n t).progSel = l.progSel := rfl
@[simp] theorem setTap_apertures (l : Leaf) (n : Nat) (t : Tap) : (setTap l n t).apertures = l.apertures := rfl
@[simp] theorem setTap_triggers (l : Leaf) (n : Nat) (t : Tap) : (setTap l n t).triggers = l.triggers := rfl
@[simp] theorem setTap_trigLate (l : Leaf) (n : Nat) (t : Tap) : (setTap l n t).trigLate = l.trigLate := rfl
@[simp] theorem setTap_trigDropped (l : Leaf) (n : Nat) (t : Tap) : (setTap l n t).trigDropped = l.trigDropped := rfl
@[simp] theorem setTap_caps (l : Leaf) (n : Nat) (t : Tap) : (setTap l n t).caps = l.caps := rfl
@[simp] theorem setTap_capDelay (l : Leaf) (n : Nat) (t : Tap) : (setTap l n t).capDelay = l.capDelay := rfl
@[simp] theorem setTap_capp (l : Leaf) (n : Nat) (t : Tap) : (setTap l n t).capp = l.capp := rfl
@[simp] theorem setTap_fence (l : Leaf) (n : Nat) (t : Tap) : (setTap l n t).fence = l.fence := rfl
@[simp] theorem setTap_tests (l : Leaf) (n : Nat) (t : Tap) : (setTap l n t).tests = l.tests := rfl
@[simp] theorem setTap_mmCount (l : Leaf) (n : Nat) (t : Tap) : (setTap l n t).mmCount = l.mmCount := rfl
@[simp] theorem setTap_history (l : Leaf) (n : Nat) (t : Tap) : (setTap l n t).history = l.history := rfl
@[simp] theorem setTap_histSel (l : Leaf) (n : Nat) (t : Tap) : (setTap l n t).histSel = l.histSel := rfl
@[simp] theorem setTap_histEntry (l : Leaf) (n : Nat) (t : Tap) : (setTap l n t).histEntry = l.histEntry := rfl
@[simp] theorem setTap_code (l : Leaf) (n : Nat) (t : Tap) : (setTap l n t).code = l.code := rfl
@[simp] theorem setTap_encoderBad (l : Leaf) (n : Nat) (t : Tap) : (setTap l n t).encoderBad = l.encoderBad := rfl
@[simp] theorem setTap_start (l : Leaf) (n : Nat) (t : Tap) : (setTap l n t).start = l.start := rfl
@[simp] theorem setTap_sec (l : Leaf) (n : Nat) (t : Tap) : (setTap l n t).sec = l.sec := rfl
@[simp] theorem setTap_sum (l : Leaf) (n : Nat) (t : Tap) : (setTap l n t).sum = l.sum := rfl
@[simp] theorem setTap_mgmtSum (l : Leaf) (n : Nat) (t : Tap) : (setTap l n t).mgmtSum = l.mgmtSum := rfl
@[simp] theorem setTap_fwin (l : Leaf) (n : Nat) (t : Tap) : (setTap l n t).fwin = l.fwin := rfl
@[simp] theorem setTap_answers (l : Leaf) (n : Nat) (t : Tap) : (setTap l n t).answers = l.answers := rfl
@[simp] theorem setTap_sensors (l : Leaf) (n : Nat) (t : Tap) : (setTap l n t).sensors = l.sensors := rfl
@[simp] theorem setTap_rdata (l : Leaf) (n : Nat) (t : Tap) : (setTap l n t).rdata = l.rdata := rfl
@[simp] theorem setTap_resp (l : Leaf) (n : Nat) (t : Tap) : (setTap l n t).resp = l.resp := rfl
@[simp] theorem setTap_free (l : Leaf) (n : Nat) (t : Tap) : (setTap l n t).free = l.free := rfl
/-! ### setSlot -/
@[simp] theorem setSlot_inReset (l : Leaf) (k : Nat) (x : Slot) : (setSlot l k x).inReset = l.inReset := rfl
@[simp] theorem setSlot_clkFail (l : Leaf) (k : Nat) (x : Slot) : (setSlot l k x).clkFail = l.clkFail := rfl
@[simp] theorem setSlot_dark (l : Leaf) (k : Nat) (x : Slot) : (setSlot l k x).dark = l.dark := rfl
@[simp] theorem setSlot_serial (l : Leaf) (k : Nat) (x : Slot) : (setSlot l k x).serial = l.serial := rfl
@[simp] theorem setSlot_version (l : Leaf) (k : Nat) (x : Slot) : (setSlot l k x).version = l.version := rfl
@[simp] theorem setSlot_hostType (l : Leaf) (k : Nat) (x : Slot) : (setSlot l k x).hostType = l.hostType := rfl
@[simp] theorem setSlot_tapsSeen (l : Leaf) (k : Nat) (x : Slot) : (setSlot l k x).tapsSeen = l.tapsSeen := rfl
@[simp] theorem setSlot_fpaW (l : Leaf) (k : Nat) (x : Slot) : (setSlot l k x).fpaW = l.fpaW := rfl
@[simp] theorem setSlot_fpaB (l : Leaf) (k : Nat) (x : Slot) : (setSlot l k x).fpaB = l.fpaB := rfl
@[simp] theorem setSlot_hostFw (l : Leaf) (k : Nat) (x : Slot) : (setSlot l k x).hostFw = l.hostFw := rfl
@[simp] theorem setSlot_hostDum (l : Leaf) (k : Nat) (x : Slot) : (setSlot l k x).hostDum = l.hostDum := rfl
@[simp] theorem setSlot_lockedWrite (l : Leaf) (k : Nat) (x : Slot) : (setSlot l k x).lockedWrite = l.lockedWrite := rfl
@[simp] theorem setSlot_slotCmdBad (l : Leaf) (k : Nat) (x : Slot) : (setSlot l k x).slotCmdBad = l.slotCmdBad := rfl
@[simp] theorem setSlot_ints (l : Leaf) (k : Nat) (x : Slot) : (setSlot l k x).ints = l.ints := rfl
@[simp] theorem setSlot_time (l : Leaf) (k : Nat) (x : Slot) : (setSlot l k x).time = l.time := rfl
@[simp] theorem setSlot_snaps (l : Leaf) (k : Nat) (x : Slot) : (setSlot l k x).snaps = l.snaps := rfl
@[simp] theorem setSlot_tsel (l : Leaf) (k : Nat) (x : Slot) : (setSlot l k x).tsel = l.tsel := rfl
@[simp] theorem setSlot_domW (l : Leaf) (k : Nat) (x : Slot) : (setSlot l k x).domW = l.domW := rfl
@[simp] theorem setSlot_domB (l : Leaf) (k : Nat) (x : Slot) : (setSlot l k x).domB = l.domB := rfl
@[simp] theorem setSlot_port0 (l : Leaf) (k : Nat) (x : Slot) : (setSlot l k x).port0 = l.port0 := rfl
@[simp] theorem setSlot_port1 (l : Leaf) (k : Nat) (x : Slot) : (setSlot l k x).port1 = l.port1 := rfl
@[simp] theorem setSlot_sharedMods (l : Leaf) (k : Nat) (x : Slot) : (setSlot l k x).sharedMods = l.sharedMods := rfl
@[simp] theorem setSlot_wiring (l : Leaf) (k : Nat) (x : Slot) : (setSlot l k x).wiring = l.wiring := rfl
@[simp] theorem setSlot_mapW (l : Leaf) (k : Nat) (x : Slot) : (setSlot l k x).mapW = l.mapW := rfl
@[simp] theorem setSlot_mapB (l : Leaf) (k : Nat) (x : Slot) : (setSlot l k x).mapB = l.mapB := rfl
@[simp] theorem setSlot_tdcs (l : Leaf) (k : Nat) (x : Slot) : (setSlot l k x).tdcs = l.tdcs := rfl
@[simp] theorem setSlot_taps (l : Leaf) (k : Nat) (x : Slot) : (setSlot l k x).taps = l.taps := rfl
@[simp] theorem setSlot_chans (l : Leaf) (k : Nat) (x : Slot) : (setSlot l k x).chans = l.chans := rfl
@[simp] theorem setSlot_progSel (l : Leaf) (k : Nat) (x : Slot) : (setSlot l k x).progSel = l.progSel := rfl
@[simp] theorem setSlot_apertures (l : Leaf) (k : Nat) (x : Slot) : (setSlot l k x).apertures = l.apertures := rfl
@[simp] theorem setSlot_triggers (l : Leaf) (k : Nat) (x : Slot) : (setSlot l k x).triggers = l.triggers := rfl
@[simp] theorem setSlot_trigLate (l : Leaf) (k : Nat) (x : Slot) : (setSlot l k x).trigLate = l.trigLate := rfl
@[simp] theorem setSlot_trigDropped (l : Leaf) (k : Nat) (x : Slot) : (setSlot l k x).trigDropped = l.trigDropped := rfl
@[simp] theorem setSlot_caps (l : Leaf) (k : Nat) (x : Slot) : (setSlot l k x).caps = l.caps := rfl
@[simp] theorem setSlot_capDelay (l : Leaf) (k : Nat) (x : Slot) : (setSlot l k x).capDelay = l.capDelay := rfl
@[simp] theorem setSlot_capp (l : Leaf) (k : Nat) (x : Slot) : (setSlot l k x).capp = l.capp := rfl
@[simp] theorem setSlot_fence (l : Leaf) (k : Nat) (x : Slot) : (setSlot l k x).fence = l.fence := rfl
@[simp] theorem setSlot_tests (l : Leaf) (k : Nat) (x : Slot) : (setSlot l k x).tests = l.tests := rfl
@[simp] theorem setSlot_mmCount (l : Leaf) (k : Nat) (x : Slot) : (setSlot l k x).mmCount = l.mmCount := rfl
@[simp] theorem setSlot_history (l : Leaf) (k : Nat) (x : Slot) : (setSlot l k x).history = l.history := rfl
@[simp] theorem setSlot_histSel (l : Leaf) (k : Nat) (x : Slot) : (setSlot l k x).histSel = l.histSel := rfl
@[simp] theorem setSlot_histEntry (l : Leaf) (k : Nat) (x : Slot) : (setSlot l k x).histEntry = l.histEntry := rfl
@[simp] theorem setSlot_code (l : Leaf) (k : Nat) (x : Slot) : (setSlot l k x).code = l.code := rfl
@[simp] theorem setSlot_encoderBad (l : Leaf) (k : Nat) (x : Slot) : (setSlot l k x).encoderBad = l.encoderBad := rfl
@[simp] theorem setSlot_start (l : Leaf) (k : Nat) (x : Slot) : (setSlot l k x).start = l.start := rfl
@[simp] theorem setSlot_sec (l : Leaf) (k : Nat) (x : Slot) : (setSlot l k x).sec = l.sec := rfl
@[simp] theorem setSlot_sum (l : Leaf) (k : Nat) (x : Slot) : (setSlot l k x).sum = l.sum := rfl
@[simp] theorem setSlot_mgmtSum (l : Leaf) (k : Nat) (x : Slot) : (setSlot l k x).mgmtSum = l.mgmtSum := rfl
@[simp] theorem setSlot_fwin (l : Leaf) (k : Nat) (x : Slot) : (setSlot l k x).fwin = l.fwin := rfl
@[simp] theorem setSlot_answers (l : Leaf) (k : Nat) (x : Slot) : (setSlot l k x).answers = l.answers := rfl
@[simp] theorem setSlot_sensors (l : Leaf) (k : Nat) (x : Slot) : (setSlot l k x).sensors = l.sensors := rfl
@[simp] theorem setSlot_rdata (l : Leaf) (k : Nat) (x : Slot) : (setSlot l k x).rdata = l.rdata := rfl
@[simp] theorem setSlot_resp (l : Leaf) (k : Nat) (x : Slot) : (setSlot l k x).resp = l.resp := rfl
@[simp] theorem setSlot_free (l : Leaf) (k : Nat) (x : Slot) : (setSlot l k x).free = l.free := rfl
/-! ### setLeafTdc -/
@[simp] theorem setLeafTdc_inReset (l : Leaf) (n : Nat) (t : Tdc) : (setLeafTdc l n t).inReset = l.inReset := rfl
@[simp] theorem setLeafTdc_clkFail (l : Leaf) (n : Nat) (t : Tdc) : (setLeafTdc l n t).clkFail = l.clkFail := rfl
@[simp] theorem setLeafTdc_dark (l : Leaf) (n : Nat) (t : Tdc) : (setLeafTdc l n t).dark = l.dark := rfl
@[simp] theorem setLeafTdc_serial (l : Leaf) (n : Nat) (t : Tdc) : (setLeafTdc l n t).serial = l.serial := rfl
@[simp] theorem setLeafTdc_version (l : Leaf) (n : Nat) (t : Tdc) : (setLeafTdc l n t).version = l.version := rfl
@[simp] theorem setLeafTdc_hostType (l : Leaf) (n : Nat) (t : Tdc) : (setLeafTdc l n t).hostType = l.hostType := rfl
@[simp] theorem setLeafTdc_tapsSeen (l : Leaf) (n : Nat) (t : Tdc) : (setLeafTdc l n t).tapsSeen = l.tapsSeen := rfl
@[simp] theorem setLeafTdc_fpaW (l : Leaf) (n : Nat) (t : Tdc) : (setLeafTdc l n t).fpaW = l.fpaW := rfl
@[simp] theorem setLeafTdc_fpaB (l : Leaf) (n : Nat) (t : Tdc) : (setLeafTdc l n t).fpaB = l.fpaB := rfl
@[simp] theorem setLeafTdc_hostFw (l : Leaf) (n : Nat) (t : Tdc) : (setLeafTdc l n t).hostFw = l.hostFw := rfl
@[simp] theorem setLeafTdc_hostDum (l : Leaf) (n : Nat) (t : Tdc) : (setLeafTdc l n t).hostDum = l.hostDum := rfl
@[simp] theorem setLeafTdc_lockedWrite (l : Leaf) (n : Nat) (t : Tdc) : (setLeafTdc l n t).lockedWrite = l.lockedWrite := rfl
@[simp] theorem setLeafTdc_slotCmdBad (l : Leaf) (n : Nat) (t : Tdc) : (setLeafTdc l n t).slotCmdBad = l.slotCmdBad := rfl
@[simp] theorem setLeafTdc_ints (l : Leaf) (n : Nat) (t : Tdc) : (setLeafTdc l n t).ints = l.ints := rfl
@[simp] theorem setLeafTdc_time (l : Leaf) (n : Nat) (t : Tdc) : (setLeafTdc l n t).time = l.time := rfl
@[simp] theorem setLeafTdc_snaps (l : Leaf) (n : Nat) (t : Tdc) : (setLeafTdc l n t).snaps = l.snaps := rfl
@[simp] theorem setLeafTdc_tsel (l : Leaf) (n : Nat) (t : Tdc) : (setLeafTdc l n t).tsel = l.tsel := rfl
@[simp] theorem setLeafTdc_domW (l : Leaf) (n : Nat) (t : Tdc) : (setLeafTdc l n t).domW = l.domW := rfl
@[simp] theorem setLeafTdc_domB (l : Leaf) (n : Nat) (t : Tdc) : (setLeafTdc l n t).domB = l.domB := rfl
@[simp] theorem setLeafTdc_port0 (l : Leaf) (n : Nat) (t : Tdc) : (setLeafTdc l n t).port0 = l.port0 := rfl
@[simp] theorem setLeafTdc_port1 (l : Leaf) (n : Nat) (t : Tdc) : (setLeafTdc l n t).port1 = l.port1 := rfl
@[simp] theorem setLeafTdc_sharedMods (l : Leaf) (n : Nat) (t : Tdc) : (setLeafTdc l n t).sharedMods = l.sharedMods := rfl
@[simp] theorem setLeafTdc_wiring (l : Leaf) (n : Nat) (t : Tdc) : (setLeafTdc l n t).wiring = l.wiring := rfl
@[simp] theorem setLeafTdc_mapW (l : Leaf) (n : Nat) (t : Tdc) : (setLeafTdc l n t).mapW = l.mapW := rfl
@[simp] theorem setLeafTdc_mapB (l : Leaf) (n : Nat) (t : Tdc) : (setLeafTdc l n t).mapB = l.mapB := rfl
@[simp] theorem setLeafTdc_taps (l : Leaf) (n : Nat) (t : Tdc) : (setLeafTdc l n t).taps = l.taps := rfl
@[simp] theorem setLeafTdc_chans (l : Leaf) (n : Nat) (t : Tdc) : (setLeafTdc l n t).chans = l.chans := rfl
@[simp] theorem setLeafTdc_slots (l : Leaf) (n : Nat) (t : Tdc) : (setLeafTdc l n t).slots = l.slots := rfl
@[simp] theorem setLeafTdc_progSel (l : Leaf) (n : Nat) (t : Tdc) : (setLeafTdc l n t).progSel = l.progSel := rfl
@[simp] theorem setLeafTdc_apertures (l : Leaf) (n : Nat) (t : Tdc) : (setLeafTdc l n t).apertures = l.apertures := rfl
@[simp] theorem setLeafTdc_triggers (l : Leaf) (n : Nat) (t : Tdc) : (setLeafTdc l n t).triggers = l.triggers := rfl
@[simp] theorem setLeafTdc_trigLate (l : Leaf) (n : Nat) (t : Tdc) : (setLeafTdc l n t).trigLate = l.trigLate := rfl
@[simp] theorem setLeafTdc_trigDropped (l : Leaf) (n : Nat) (t : Tdc) : (setLeafTdc l n t).trigDropped = l.trigDropped := rfl
@[simp] theorem setLeafTdc_caps (l : Leaf) (n : Nat) (t : Tdc) : (setLeafTdc l n t).caps = l.caps := rfl
@[simp] theorem setLeafTdc_capDelay (l : Leaf) (n : Nat) (t : Tdc) : (setLeafTdc l n t).capDelay = l.capDelay := rfl
@[simp] theorem setLeafTdc_capp (l : Leaf) (n : Nat) (t : Tdc) : (setLeafTdc l n t).capp = l.capp := rfl
@[simp] theorem setLeafTdc_fence (l : Leaf) (n : Nat) (t : Tdc) : (setLeafTdc l n t).fence = l.fence := rfl
@[simp] theorem setLeafTdc_tests (l : Leaf) (n : Nat) (t : Tdc) : (setLeafTdc l n t).tests = l.tests := rfl
@[simp] theorem setLeafTdc_mmCount (l : Leaf) (n : Nat) (t : Tdc) : (setLeafTdc l n t).mmCount = l.mmCount := rfl
@[simp] theorem setLeafTdc_history (l : Leaf) (n : Nat) (t : Tdc) : (setLeafTdc l n t).history = l.history := rfl
@[simp] theorem setLeafTdc_histSel (l : Leaf) (n : Nat) (t : Tdc) : (setLeafTdc l n t).histSel = l.histSel := rfl
@[simp] theorem setLeafTdc_histEntry (l : Leaf) (n : Nat) (t : Tdc) : (setLeafTdc l n t).histEntry = l.histEntry := rfl
@[simp] theorem setLeafTdc_code (l : Leaf) (n : Nat) (t : Tdc) : (setLeafTdc l n t).code = l.code := rfl
@[simp] theorem setLeafTdc_encoderBad (l : Leaf) (n : Nat) (t : Tdc) : (setLeafTdc l n t).encoderBad = l.encoderBad := rfl
@[simp] theorem setLeafTdc_start (l : Leaf) (n : Nat) (t : Tdc) : (setLeafTdc l n t).start = l.start := rfl
@[simp] theorem setLeafTdc_sec (l : Leaf) (n : Nat) (t : Tdc) : (setLeafTdc l n t).sec = l.sec := rfl
@[simp] theorem setLeafTdc_sum (l : Leaf) (n : Nat) (t : Tdc) : (setLeafTdc l n t).sum = l.sum := rfl
@[simp] theorem setLeafTdc_mgmtSum (l : Leaf) (n : Nat) (t : Tdc) : (setLeafTdc l n t).mgmtSum = l.mgmtSum := rfl
@[simp] theorem setLeafTdc_fwin (l : Leaf) (n : Nat) (t : Tdc) : (setLeafTdc l n t).fwin = l.fwin := rfl
@[simp] theorem setLeafTdc_answers (l : Leaf) (n : Nat) (t : Tdc) : (setLeafTdc l n t).answers = l.answers := rfl
@[simp] theorem setLeafTdc_sensors (l : Leaf) (n : Nat) (t : Tdc) : (setLeafTdc l n t).sensors = l.sensors := rfl
@[simp] theorem setLeafTdc_rdata (l : Leaf) (n : Nat) (t : Tdc) : (setLeafTdc l n t).rdata = l.rdata := rfl
@[simp] theorem setLeafTdc_resp (l : Leaf) (n : Nat) (t : Tdc) : (setLeafTdc l n t).resp = l.resp := rfl
@[simp] theorem setLeafTdc_free (l : Leaf) (n : Nat) (t : Tdc) : (setLeafTdc l n t).free = l.free := rfl
/-! ### setTrig -/
@[simp] theorem setTrig_inReset (l : Leaf) (k : Nat) (t : Trigger) : (setTrig l k t).inReset = l.inReset := rfl
@[simp] theorem setTrig_clkFail (l : Leaf) (k : Nat) (t : Trigger) : (setTrig l k t).clkFail = l.clkFail := rfl
@[simp] theorem setTrig_dark (l : Leaf) (k : Nat) (t : Trigger) : (setTrig l k t).dark = l.dark := rfl
@[simp] theorem setTrig_serial (l : Leaf) (k : Nat) (t : Trigger) : (setTrig l k t).serial = l.serial := rfl
@[simp] theorem setTrig_version (l : Leaf) (k : Nat) (t : Trigger) : (setTrig l k t).version = l.version := rfl
@[simp] theorem setTrig_hostType (l : Leaf) (k : Nat) (t : Trigger) : (setTrig l k t).hostType = l.hostType := rfl
@[simp] theorem setTrig_tapsSeen (l : Leaf) (k : Nat) (t : Trigger) : (setTrig l k t).tapsSeen = l.tapsSeen := rfl
@[simp] theorem setTrig_fpaW (l : Leaf) (k : Nat) (t : Trigger) : (setTrig l k t).fpaW = l.fpaW := rfl
@[simp] theorem setTrig_fpaB (l : Leaf) (k : Nat) (t : Trigger) : (setTrig l k t).fpaB = l.fpaB := rfl
@[simp] theorem setTrig_hostFw (l : Leaf) (k : Nat) (t : Trigger) : (setTrig l k t).hostFw = l.hostFw := rfl
@[simp] theorem setTrig_hostDum (l : Leaf) (k : Nat) (t : Trigger) : (setTrig l k t).hostDum = l.hostDum := rfl
@[simp] theorem setTrig_lockedWrite (l : Leaf) (k : Nat) (t : Trigger) : (setTrig l k t).lockedWrite = l.lockedWrite := rfl
@[simp] theorem setTrig_slotCmdBad (l : Leaf) (k : Nat) (t : Trigger) : (setTrig l k t).slotCmdBad = l.slotCmdBad := rfl
@[simp] theorem setTrig_ints (l : Leaf) (k : Nat) (t : Trigger) : (setTrig l k t).ints = l.ints := rfl
@[simp] theorem setTrig_time (l : Leaf) (k : Nat) (t : Trigger) : (setTrig l k t).time = l.time := rfl
@[simp] theorem setTrig_snaps (l : Leaf) (k : Nat) (t : Trigger) : (setTrig l k t).snaps = l.snaps := rfl
@[simp] theorem setTrig_tsel (l : Leaf) (k : Nat) (t : Trigger) : (setTrig l k t).tsel = l.tsel := rfl
@[simp] theorem setTrig_domW (l : Leaf) (k : Nat) (t : Trigger) : (setTrig l k t).domW = l.domW := rfl
@[simp] theorem setTrig_domB (l : Leaf) (k : Nat) (t : Trigger) : (setTrig l k t).domB = l.domB := rfl
@[simp] theorem setTrig_port0 (l : Leaf) (k : Nat) (t : Trigger) : (setTrig l k t).port0 = l.port0 := rfl
@[simp] theorem setTrig_port1 (l : Leaf) (k : Nat) (t : Trigger) : (setTrig l k t).port1 = l.port1 := rfl
@[simp] theorem setTrig_sharedMods (l : Leaf) (k : Nat) (t : Trigger) : (setTrig l k t).sharedMods = l.sharedMods := rfl
@[simp] theorem setTrig_wiring (l : Leaf) (k : Nat) (t : Trigger) : (setTrig l k t).wiring = l.wiring := rfl
@[simp] theorem setTrig_mapW (l : Leaf) (k : Nat) (t : Trigger) : (setTrig l k t).mapW = l.mapW := rfl
@[simp] theorem setTrig_mapB (l : Leaf) (k : Nat) (t : Trigger) : (setTrig l k t).mapB = l.mapB := rfl
@[simp] theorem setTrig_tdcs (l : Leaf) (k : Nat) (t : Trigger) : (setTrig l k t).tdcs = l.tdcs := rfl
@[simp] theorem setTrig_taps (l : Leaf) (k : Nat) (t : Trigger) : (setTrig l k t).taps = l.taps := rfl
@[simp] theorem setTrig_chans (l : Leaf) (k : Nat) (t : Trigger) : (setTrig l k t).chans = l.chans := rfl
@[simp] theorem setTrig_slots (l : Leaf) (k : Nat) (t : Trigger) : (setTrig l k t).slots = l.slots := rfl
@[simp] theorem setTrig_progSel (l : Leaf) (k : Nat) (t : Trigger) : (setTrig l k t).progSel = l.progSel := rfl
@[simp] theorem setTrig_apertures (l : Leaf) (k : Nat) (t : Trigger) : (setTrig l k t).apertures = l.apertures := rfl
@[simp] theorem setTrig_trigLate (l : Leaf) (k : Nat) (t : Trigger) : (setTrig l k t).trigLate = l.trigLate := rfl
@[simp] theorem setTrig_trigDropped (l : Leaf) (k : Nat) (t : Trigger) : (setTrig l k t).trigDropped = l.trigDropped := rfl
@[simp] theorem setTrig_caps (l : Leaf) (k : Nat) (t : Trigger) : (setTrig l k t).caps = l.caps := rfl
@[simp] theorem setTrig_capDelay (l : Leaf) (k : Nat) (t : Trigger) : (setTrig l k t).capDelay = l.capDelay := rfl
@[simp] theorem setTrig_capp (l : Leaf) (k : Nat) (t : Trigger) : (setTrig l k t).capp = l.capp := rfl
@[simp] theorem setTrig_fence (l : Leaf) (k : Nat) (t : Trigger) : (setTrig l k t).fence = l.fence := rfl
@[simp] theorem setTrig_tests (l : Leaf) (k : Nat) (t : Trigger) : (setTrig l k t).tests = l.tests := rfl
@[simp] theorem setTrig_mmCount (l : Leaf) (k : Nat) (t : Trigger) : (setTrig l k t).mmCount = l.mmCount := rfl
@[simp] theorem setTrig_history (l : Leaf) (k : Nat) (t : Trigger) : (setTrig l k t).history = l.history := rfl
@[simp] theorem setTrig_histSel (l : Leaf) (k : Nat) (t : Trigger) : (setTrig l k t).histSel = l.histSel := rfl
@[simp] theorem setTrig_histEntry (l : Leaf) (k : Nat) (t : Trigger) : (setTrig l k t).histEntry = l.histEntry := rfl
@[simp] theorem setTrig_code (l : Leaf) (k : Nat) (t : Trigger) : (setTrig l k t).code = l.code := rfl
@[simp] theorem setTrig_encoderBad (l : Leaf) (k : Nat) (t : Trigger) : (setTrig l k t).encoderBad = l.encoderBad := rfl
@[simp] theorem setTrig_start (l : Leaf) (k : Nat) (t : Trigger) : (setTrig l k t).start = l.start := rfl
@[simp] theorem setTrig_sec (l : Leaf) (k : Nat) (t : Trigger) : (setTrig l k t).sec = l.sec := rfl
@[simp] theorem setTrig_sum (l : Leaf) (k : Nat) (t : Trigger) : (setTrig l k t).sum = l.sum := rfl
@[simp] theorem setTrig_mgmtSum (l : Leaf) (k : Nat) (t : Trigger) : (setTrig l k t).mgmtSum = l.mgmtSum := rfl
@[simp] theorem setTrig_fwin (l : Leaf) (k : Nat) (t : Trigger) : (setTrig l k t).fwin = l.fwin := rfl
@[simp] theorem setTrig_answers (l : Leaf) (k : Nat) (t : Trigger) : (setTrig l k t).answers = l.answers := rfl
@[simp] theorem setTrig_sensors (l : Leaf) (k : Nat) (t : Trigger) : (setTrig l k t).sensors = l.sensors := rfl
@[simp] theorem setTrig_rdata (l : Leaf) (k : Nat) (t : Trigger) : (setTrig l k t).rdata = l.rdata := rfl
@[simp] theorem setTrig_resp (l : Leaf) (k : Nat) (t : Trigger) : (setTrig l k t).resp = l.resp := rfl
@[simp] theorem setTrig_free (l : Leaf) (k : Nat) (t : Trigger) : (setTrig l k t).free = l.free := rfl
/-! ### setChanPort -/
@[simp] theorem setChanPort_fuses (c : Chan) (p : Nat) (x : Port) : (setChanPort c p x).fuses = c.fuses := rfl
@[simp] theorem setChanPort_serial (c : Chan) (p : Nat) (x : Port) : (setChanPort c p x).serial = c.serial := rfl
@[simp] theorem setChanPort_modSerial (c : Chan) (p : Nat) (x : Port) : (setChanPort c p x).modSerial = c.modSerial := rfl
@[simp] theorem setChanPort_yard (c : Chan) (p : Nat) (x : Port) : (setChanPort c p x).yard = c.yard := rfl
@[simp] theorem setChanPort_barn (c : Chan) (p : Nat) (x : Port) : (setChanPort c p x).barn = c.barn := rfl
@[simp] theorem setChanPort_clk (c : Chan) (p : Nat) (x : Port) : (setChanPort c p x).clk = c.clk := rfl
@[simp] theorem setChanPort_trained (c : Chan) (p : Nat) (x : Port) : (setChanPort c p x).trained = c.trained := rfl
@[simp] theorem setChanPort_ancestry (c : Chan) (p : Nat) (x : Port) : (setChanPort c p x).ancestry = c.ancestry := rfl
@[simp] theorem setChanPort_bundleBad (c : Chan) (p : Nat) (x : Port) : (setChanPort c p x).bundleBad = c.bundleBad := rfl
@[simp] theorem setChanPort_swapPend (c : Chan) (p : Nat) (x : Port) : (setChanPort c p x).swapPend = c.swapPend := rfl
@[simp] theorem setChanPort_mpoTold (c : Chan) (p : Nat) (x : Port) : (setChanPort c p x).mpoTold = c.mpoTold := rfl
@[simp] theorem setChanPort_posMismatch (c : Chan) (p : Nat) (x : Port) : (setChanPort c p x).posMismatch = c.posMismatch := rfl
@[simp] theorem setChanPort_echoes (c : Chan) (p : Nat) (x : Port) : (setChanPort c p x).echoes = c.echoes := rfl
@[simp] theorem setChanPort_strictSent (c : Chan) (p : Nat) (x : Port) : (setChanPort c p x).strictSent = c.strictSent := rfl
@[simp] theorem setChanPort_shv (c : Chan) (p : Nat) (x : Port) : (setChanPort c p x).shv = c.shv := rfl
@[simp] theorem setChanPort_gran (c : Chan) (p : Nat) (x : Port) : (setChanPort c p x).gran = c.gran := rfl
@[simp] theorem setChanPort_glean (c : Chan) (p : Nat) (x : Port) : (setChanPort c p x).glean = c.glean := rfl
@[simp] theorem setChanPort_start (c : Chan) (p : Nat) (x : Port) : (setChanPort c p x).start = c.start := rfl
@[simp] theorem setChanPort_sec (c : Chan) (p : Nat) (x : Port) : (setChanPort c p x).sec = c.sec := rfl
@[simp] theorem setChanPort_history (c : Chan) (p : Nat) (x : Port) : (setChanPort c p x).history = c.history := rfl
@[simp] theorem setChanPort_code (c : Chan) (p : Nat) (x : Port) : (setChanPort c p x).code = c.code := rfl
@[simp] theorem setChanPort_buckets (c : Chan) (p : Nat) (x : Port) : (setChanPort c p x).buckets = c.buckets := rfl
@[simp] theorem setChanPort_tele (c : Chan) (p : Nat) (x : Port) : (setChanPort c p x).tele = c.tele := rfl
@[simp] theorem setChanPort_answers (c : Chan) (p : Nat) (x : Port) : (setChanPort c p x).answers = c.answers := rfl
@[simp] theorem setChanPort_relays (c : Chan) (p : Nat) (x : Port) : (setChanPort c p x).relays = c.relays := rfl
@[simp] theorem setChanPort_passed (c : Chan) (p : Nat) (x : Port) : (setChanPort c p x).passed = c.passed := rfl
@[simp] theorem setChanPort_passQ (c : Chan) (p : Nat) (x : Port) : (setChanPort c p x).passQ = c.passQ := rfl
@[simp] theorem setChanPort_snaps (c : Chan) (p : Nat) (x : Port) : (setChanPort c p x).snaps = c.snaps := rfl
@[simp] theorem setChanPort_sumSeq (c : Chan) (p : Nat) (x : Port) : (setChanPort c p x).sumSeq = c.sumSeq := rfl
@[simp] theorem setChanPort_restart (c : Chan) (p : Nat) (x : Port) : (setChanPort c p x).restart = c.restart := rfl
@[simp] theorem setChanPort_inj (c : Chan) (p : Nat) (x : Port) : (setChanPort c p x).inj = c.inj := rfl
@[simp] theorem setChanPort_injPast (c : Chan) (p : Nat) (x : Port) : (setChanPort c p x).injPast = c.injPast := rfl
@[simp] theorem setChanPort_series (c : Chan) (p : Nat) (x : Port) : (setChanPort c p x).series = c.series := rfl
@[simp] theorem setChanPort_testWaits (c : Chan) (p : Nat) (x : Port) : (setChanPort c p x).testWaits = c.testWaits := rfl
@[simp] theorem setChanPort_unstamped (c : Chan) (p : Nat) (x : Port) : (setChanPort c p x).unstamped = c.unstamped := rfl
@[simp] theorem setChanPort_sensors (c : Chan) (p : Nat) (x : Port) : (setChanPort c p x).sensors = c.sensors := rfl
@[simp] theorem setChanPort_shadowFails (c : Chan) (p : Nat) (x : Port) : (setChanPort c p x).shadowFails = c.shadowFails := rfl
@[simp] theorem setChanPort_localShadow (c : Chan) (p : Nat) (x : Port) : (setChanPort c p x).localShadow = c.localShadow := rfl
@[simp] theorem setChanPort_mmNotices (c : Chan) (p : Nat) (x : Port) : (setChanPort c p x).mmNotices = c.mmNotices := rfl
@[simp] theorem setChanPort_pathSweeps (c : Chan) (p : Nat) (x : Port) : (setChanPort c p x).pathSweeps = c.pathSweeps := rfl
@[simp] theorem setChanPort_sweeps (c : Chan) (p : Nat) (x : Port) : (setChanPort c p x).sweeps = c.sweeps := rfl
@[simp] theorem setChanPort_lockedWrite (c : Chan) (p : Nat) (x : Port) : (setChanPort c p x).lockedWrite = c.lockedWrite := rfl
@[simp] theorem setChanPort_pwrWarn (c : Chan) (p : Nat) (x : Port) : (setChanPort c p x).pwrWarn = c.pwrWarn := rfl
@[simp] theorem setChanPort_thermWarn (c : Chan) (p : Nat) (x : Port) : (setChanPort c p x).thermWarn = c.thermWarn := rfl
@[simp] theorem setChanPort_fanDemand (c : Chan) (p : Nat) (x : Port) : (setChanPort c p x).fanDemand = c.fanDemand := rfl
@[simp] theorem setChanPort_oldVersion (c : Chan) (p : Nat) (x : Port) : (setChanPort c p x).oldVersion = c.oldVersion := rfl
@[simp] theorem setChanPort_free (c : Chan) (p : Nat) (x : Port) : (setChanPort c p x).free = c.free := rfl
/-! ### setChanTdc -/
@[simp] theorem setChanTdc_fuses (c : Chan) (n : Nat) (t : Tdc) : (setChanTdc c n t).fuses = c.fuses := rfl
@[simp] theorem setChanTdc_serial (c : Chan) (n : Nat) (t : Tdc) : (setChanTdc c n t).serial = c.serial := rfl
@[simp] theorem setChanTdc_modSerial (c : Chan) (n : Nat) (t : Tdc) : (setChanTdc c n t).modSerial = c.modSerial := rfl
@[simp] theorem setChanTdc_yard (c : Chan) (n : Nat) (t : Tdc) : (setChanTdc c n t).yard = c.yard := rfl
@[simp] theorem setChanTdc_barn (c : Chan) (n : Nat) (t : Tdc) : (setChanTdc c n t).barn = c.barn := rfl
@[simp] theorem setChanTdc_ports (c : Chan) (n : Nat) (t : Tdc) : (setChanTdc c n t).ports = c.ports := rfl
@[simp] theorem setChanTdc_trained (c : Chan) (n : Nat) (t : Tdc) : (setChanTdc c n t).trained = c.trained := rfl
@[simp] theorem setChanTdc_ancestry (c : Chan) (n : Nat) (t : Tdc) : (setChanTdc c n t).ancestry = c.ancestry := rfl
@[simp] theorem setChanTdc_bundleBad (c : Chan) (n : Nat) (t : Tdc) : (setChanTdc c n t).bundleBad = c.bundleBad := rfl
@[simp] theorem setChanTdc_swapPend (c : Chan) (n : Nat) (t : Tdc) : (setChanTdc c n t).swapPend = c.swapPend := rfl
@[simp] theorem setChanTdc_mpoTold (c : Chan) (n : Nat) (t : Tdc) : (setChanTdc c n t).mpoTold = c.mpoTold := rfl
@[simp] theorem setChanTdc_posMismatch (c : Chan) (n : Nat) (t : Tdc) : (setChanTdc c n t).posMismatch = c.posMismatch := rfl
@[simp] theorem setChanTdc_echoes (c : Chan) (n : Nat) (t : Tdc) : (setChanTdc c n t).echoes = c.echoes := rfl
@[simp] theorem setChanTdc_strictSent (c : Chan) (n : Nat) (t : Tdc) : (setChanTdc c n t).strictSent = c.strictSent := rfl
@[simp] theorem setChanTdc_shv (c : Chan) (n : Nat) (t : Tdc) : (setChanTdc c n t).shv = c.shv := rfl
@[simp] theorem setChanTdc_gran (c : Chan) (n : Nat) (t : Tdc) : (setChanTdc c n t).gran = c.gran := rfl
@[simp] theorem setChanTdc_glean (c : Chan) (n : Nat) (t : Tdc) : (setChanTdc c n t).glean = c.glean := rfl
@[simp] theorem setChanTdc_start (c : Chan) (n : Nat) (t : Tdc) : (setChanTdc c n t).start = c.start := rfl
@[simp] theorem setChanTdc_sec (c : Chan) (n : Nat) (t : Tdc) : (setChanTdc c n t).sec = c.sec := rfl
@[simp] theorem setChanTdc_history (c : Chan) (n : Nat) (t : Tdc) : (setChanTdc c n t).history = c.history := rfl
@[simp] theorem setChanTdc_code (c : Chan) (n : Nat) (t : Tdc) : (setChanTdc c n t).code = c.code := rfl
@[simp] theorem setChanTdc_buckets (c : Chan) (n : Nat) (t : Tdc) : (setChanTdc c n t).buckets = c.buckets := rfl
@[simp] theorem setChanTdc_tele (c : Chan) (n : Nat) (t : Tdc) : (setChanTdc c n t).tele = c.tele := rfl
@[simp] theorem setChanTdc_answers (c : Chan) (n : Nat) (t : Tdc) : (setChanTdc c n t).answers = c.answers := rfl
@[simp] theorem setChanTdc_relays (c : Chan) (n : Nat) (t : Tdc) : (setChanTdc c n t).relays = c.relays := rfl
@[simp] theorem setChanTdc_passed (c : Chan) (n : Nat) (t : Tdc) : (setChanTdc c n t).passed = c.passed := rfl
@[simp] theorem setChanTdc_passQ (c : Chan) (n : Nat) (t : Tdc) : (setChanTdc c n t).passQ = c.passQ := rfl
@[simp] theorem setChanTdc_snaps (c : Chan) (n : Nat) (t : Tdc) : (setChanTdc c n t).snaps = c.snaps := rfl
@[simp] theorem setChanTdc_sumSeq (c : Chan) (n : Nat) (t : Tdc) : (setChanTdc c n t).sumSeq = c.sumSeq := rfl
@[simp] theorem setChanTdc_restart (c : Chan) (n : Nat) (t : Tdc) : (setChanTdc c n t).restart = c.restart := rfl
@[simp] theorem setChanTdc_inj (c : Chan) (n : Nat) (t : Tdc) : (setChanTdc c n t).inj = c.inj := rfl
@[simp] theorem setChanTdc_injPast (c : Chan) (n : Nat) (t : Tdc) : (setChanTdc c n t).injPast = c.injPast := rfl
@[simp] theorem setChanTdc_series (c : Chan) (n : Nat) (t : Tdc) : (setChanTdc c n t).series = c.series := rfl
@[simp] theorem setChanTdc_testWaits (c : Chan) (n : Nat) (t : Tdc) : (setChanTdc c n t).testWaits = c.testWaits := rfl
@[simp] theorem setChanTdc_unstamped (c : Chan) (n : Nat) (t : Tdc) : (setChanTdc c n t).unstamped = c.unstamped := rfl
@[simp] theorem setChanTdc_sensors (c : Chan) (n : Nat) (t : Tdc) : (setChanTdc c n t).sensors = c.sensors := rfl
@[simp] theorem setChanTdc_shadowFails (c : Chan) (n : Nat) (t : Tdc) : (setChanTdc c n t).shadowFails = c.shadowFails := rfl
@[simp] theorem setChanTdc_localShadow (c : Chan) (n : Nat) (t : Tdc) : (setChanTdc c n t).localShadow = c.localShadow := rfl
@[simp] theorem setChanTdc_mmNotices (c : Chan) (n : Nat) (t : Tdc) : (setChanTdc c n t).mmNotices = c.mmNotices := rfl
@[simp] theorem setChanTdc_pathSweeps (c : Chan) (n : Nat) (t : Tdc) : (setChanTdc c n t).pathSweeps = c.pathSweeps := rfl
@[simp] theorem setChanTdc_sweeps (c : Chan) (n : Nat) (t : Tdc) : (setChanTdc c n t).sweeps = c.sweeps := rfl
@[simp] theorem setChanTdc_lockedWrite (c : Chan) (n : Nat) (t : Tdc) : (setChanTdc c n t).lockedWrite = c.lockedWrite := rfl
@[simp] theorem setChanTdc_pwrWarn (c : Chan) (n : Nat) (t : Tdc) : (setChanTdc c n t).pwrWarn = c.pwrWarn := rfl
@[simp] theorem setChanTdc_thermWarn (c : Chan) (n : Nat) (t : Tdc) : (setChanTdc c n t).thermWarn = c.thermWarn := rfl
@[simp] theorem setChanTdc_fanDemand (c : Chan) (n : Nat) (t : Tdc) : (setChanTdc c n t).fanDemand = c.fanDemand := rfl
@[simp] theorem setChanTdc_oldVersion (c : Chan) (n : Nat) (t : Tdc) : (setChanTdc c n t).oldVersion = c.oldVersion := rfl
@[simp] theorem setChanTdc_free (c : Chan) (n : Nat) (t : Tdc) : (setChanTdc c n t).free = c.free := rfl
/-! ### setRef -/
@[simp] theorem setRef_role (c : ChanClock) (r : Nat) (x : Ref) : (setRef c r x).role = c.role := rfl
@[simp] theorem setRef_domain (c : ChanClock) (r : Nat) (x : Ref) : (setRef c r x).domain = c.domain := rfl
@[simp] theorem setRef_time (c : ChanClock) (r : Nat) (x : Ref) : (setRef c r x).time = c.time := rfl
@[simp] theorem setRef_loop (c : ChanClock) (r : Nat) (x : Ref) : (setRef c r x).loop = c.loop := rfl
@[simp] theorem setRef_tdcs (c : ChanClock) (r : Nat) (x : Ref) : (setRef c r x).tdcs = c.tdcs := rfl
@[simp] theorem setRef_spareOf (c : ChanClock) (r : Nat) (x : Ref) : (setRef c r x).spareOf = c.spareOf := rfl
@[simp] theorem setRef_sel (c : ChanClock) (r : Nat) (x : Ref) : (setRef c r x).sel = c.sel := rfl
@[simp] theorem setRef_revertive (c : ChanClock) (r : Nat) (x : Ref) : (setRef c r x).revertive = c.revertive := rfl
@[simp] theorem setRef_wtrS (c : ChanClock) (r : Nat) (x : Ref) : (setRef c r x).wtrS = c.wtrS := rfl
@[simp] theorem setRef_hold (c : ChanClock) (r : Nat) (x : Ref) : (setRef c r x).hold = c.hold := rfl
@[simp] theorem setRef_gnss (c : ChanClock) (r : Nat) (x : Ref) : (setRef c r x).gnss = c.gnss := rfl
@[simp] theorem setRef_outs (c : ChanClock) (r : Nat) (x : Ref) : (setRef c r x).outs = c.outs := rfl
@[simp] theorem setRef_mill (c : ChanClock) (r : Nat) (x : Ref) : (setRef c r x).mill = c.mill := rfl
@[simp] theorem setRef_lines (c : ChanClock) (r : Nat) (x : Ref) : (setRef c r x).lines = c.lines := rfl
@[simp] theorem setRef_relayed (c : ChanClock) (r : Nat) (x : Ref) : (setRef c r x).relayed = c.relayed := rfl
/-! ### setOut -/
@[simp] theorem setOut_role (c : ChanClock) (n : Nat) (x : Output) : (setOut c n x).role = c.role := rfl
@[simp] theorem setOut_domain (c : ChanClock) (n : Nat) (x : Output) : (setOut c n x).domain = c.domain := rfl
@[simp] theorem setOut_time (c : ChanClock) (n : Nat) (x : Output) : (setOut c n x).time = c.time := rfl
@[simp] theorem setOut_loop (c : ChanClock) (n : Nat) (x : Output) : (setOut c n x).loop = c.loop := rfl
@[simp] theorem setOut_tdcs (c : ChanClock) (n : Nat) (x : Output) : (setOut c n x).tdcs = c.tdcs := rfl
@[simp] theorem setOut_spareOf (c : ChanClock) (n : Nat) (x : Output) : (setOut c n x).spareOf = c.spareOf := rfl
@[simp] theorem setOut_refs (c : ChanClock) (n : Nat) (x : Output) : (setOut c n x).refs = c.refs := rfl
@[simp] theorem setOut_sel (c : ChanClock) (n : Nat) (x : Output) : (setOut c n x).sel = c.sel := rfl
@[simp] theorem setOut_revertive (c : ChanClock) (n : Nat) (x : Output) : (setOut c n x).revertive = c.revertive := rfl
@[simp] theorem setOut_wtrS (c : ChanClock) (n : Nat) (x : Output) : (setOut c n x).wtrS = c.wtrS := rfl
@[simp] theorem setOut_hold (c : ChanClock) (n : Nat) (x : Output) : (setOut c n x).hold = c.hold := rfl
@[simp] theorem setOut_gnss (c : ChanClock) (n : Nat) (x : Output) : (setOut c n x).gnss = c.gnss := rfl
@[simp] theorem setOut_mill (c : ChanClock) (n : Nat) (x : Output) : (setOut c n x).mill = c.mill := rfl
@[simp] theorem setOut_lines (c : ChanClock) (n : Nat) (x : Output) : (setOut c n x).lines = c.lines := rfl
@[simp] theorem setOut_relayed (c : ChanClock) (n : Nat) (x : Output) : (setOut c n x).relayed = c.relayed := rfl
/-! ### setFeed -/
@[simp] theorem setFeed_serial (m : Module) (f : Nat) (x : Feed) : (setFeed m f x).serial = m.serial := rfl
@[simp] theorem setFeed_bricks (m : Module) (f : Nat) (x : Feed) : (setFeed m f x).bricks = m.bricks := rfl
@[simp] theorem setFeed_fans (m : Module) (f : Nat) (x : Feed) : (setFeed m f x).fans = m.fans := rfl
@[simp] theorem setFeed_sleds (m : Module) (f : Nat) (x : Feed) : (setFeed m f x).sleds = m.sleds := rfl
@[simp] theorem setFeed_card (m : Module) (f : Nat) (x : Feed) : (setFeed m f x).card = m.card := rfl
@[simp] theorem setFeed_cool (m : Module) (f : Nat) (x : Feed) : (setFeed m f x).cool = m.cool := rfl
@[simp] theorem setFeed_past (m : Module) (f : Nat) (x : Feed) : (setFeed m f x).past = m.past := rfl
@[simp] theorem setFeed_busOn (m : Module) (f : Nat) (x : Feed) : (setFeed m f x).busOn = m.busOn := rfl
@[simp] theorem setFeed_busMv (m : Module) (f : Nat) (x : Feed) : (setFeed m f x).busMv = m.busMv := rfl
@[simp] theorem setFeed_inputW (m : Module) (f : Nat) (x : Feed) : (setFeed m f x).inputW = m.inputW := rfl
@[simp] theorem setFeed_pwrWarn (m : Module) (f : Nat) (x : Feed) : (setFeed m f x).pwrWarn = m.pwrWarn := rfl
@[simp] theorem setFeed_thermalWarn (m : Module) (f : Nat) (x : Feed) : (setFeed m f x).thermalWarn = m.thermalWarn := rfl
@[simp] theorem setFeed_feedLoss (m : Module) (f : Nat) (x : Feed) : (setFeed m f x).feedLoss = m.feedLoss := rfl
@[simp] theorem setFeed_brickFault (m : Module) (f : Nat) (x : Feed) : (setFeed m f x).brickFault = m.brickFault := rfl
@[simp] theorem setFeed_efuseTrip (m : Module) (f : Nat) (x : Feed) : (setFeed m f x).efuseTrip = m.efuseTrip := rfl
@[simp] theorem setFeed_thermalOff (m : Module) (f : Nat) (x : Feed) : (setFeed m f x).thermalOff = m.thermalOff := rfl
@[simp] theorem setFeed_words (m : Module) (f : Nat) (x : Feed) : (setFeed m f x).words = m.words := rfl
@[simp] theorem setFeed_free (m : Module) (f : Nat) (x : Feed) : (setFeed m f x).free = m.free := rfl
/-! ### setBrick -/
@[simp] theorem setBrick_serial (m : Module) (k : Nat) (x : Brick) : (setBrick m k x).serial = m.serial := rfl
@[simp] theorem setBrick_feeds (m : Module) (k : Nat) (x : Brick) : (setBrick m k x).feeds = m.feeds := rfl
@[simp] theorem setBrick_fans (m : Module) (k : Nat) (x : Brick) : (setBrick m k x).fans = m.fans := rfl
@[simp] theorem setBrick_sleds (m : Module) (k : Nat) (x : Brick) : (setBrick m k x).sleds = m.sleds := rfl
@[simp] theorem setBrick_card (m : Module) (k : Nat) (x : Brick) : (setBrick m k x).card = m.card := rfl
@[simp] theorem setBrick_cool (m : Module) (k : Nat) (x : Brick) : (setBrick m k x).cool = m.cool := rfl
@[simp] theorem setBrick_past (m : Module) (k : Nat) (x : Brick) : (setBrick m k x).past = m.past := rfl
@[simp] theorem setBrick_busOn (m : Module) (k : Nat) (x : Brick) : (setBrick m k x).busOn = m.busOn := rfl
@[simp] theorem setBrick_busMv (m : Module) (k : Nat) (x : Brick) : (setBrick m k x).busMv = m.busMv := rfl
@[simp] theorem setBrick_inputW (m : Module) (k : Nat) (x : Brick) : (setBrick m k x).inputW = m.inputW := rfl
@[simp] theorem setBrick_pwrWarn (m : Module) (k : Nat) (x : Brick) : (setBrick m k x).pwrWarn = m.pwrWarn := rfl
@[simp] theorem setBrick_thermalWarn (m : Module) (k : Nat) (x : Brick) : (setBrick m k x).thermalWarn = m.thermalWarn := rfl
@[simp] theorem setBrick_feedLoss (m : Module) (k : Nat) (x : Brick) : (setBrick m k x).feedLoss = m.feedLoss := rfl
@[simp] theorem setBrick_brickFault (m : Module) (k : Nat) (x : Brick) : (setBrick m k x).brickFault = m.brickFault := rfl
@[simp] theorem setBrick_efuseTrip (m : Module) (k : Nat) (x : Brick) : (setBrick m k x).efuseTrip = m.efuseTrip := rfl
@[simp] theorem setBrick_thermalOff (m : Module) (k : Nat) (x : Brick) : (setBrick m k x).thermalOff = m.thermalOff := rfl
@[simp] theorem setBrick_words (m : Module) (k : Nat) (x : Brick) : (setBrick m k x).words = m.words := rfl
@[simp] theorem setBrick_free (m : Module) (k : Nat) (x : Brick) : (setBrick m k x).free = m.free := rfl
/-! ### setFan -/
@[simp] theorem setFan_serial (m : Module) (k : Nat) (x : FanTray) : (setFan m k x).serial = m.serial := rfl
@[simp] theorem setFan_feeds (m : Module) (k : Nat) (x : FanTray) : (setFan m k x).feeds = m.feeds := rfl
@[simp] theorem setFan_bricks (m : Module) (k : Nat) (x : FanTray) : (setFan m k x).bricks = m.bricks := rfl
@[simp] theorem setFan_sleds (m : Module) (k : Nat) (x : FanTray) : (setFan m k x).sleds = m.sleds := rfl
@[simp] theorem setFan_card (m : Module) (k : Nat) (x : FanTray) : (setFan m k x).card = m.card := rfl
@[simp] theorem setFan_cool (m : Module) (k : Nat) (x : FanTray) : (setFan m k x).cool = m.cool := rfl
@[simp] theorem setFan_past (m : Module) (k : Nat) (x : FanTray) : (setFan m k x).past = m.past := rfl
@[simp] theorem setFan_busOn (m : Module) (k : Nat) (x : FanTray) : (setFan m k x).busOn = m.busOn := rfl
@[simp] theorem setFan_busMv (m : Module) (k : Nat) (x : FanTray) : (setFan m k x).busMv = m.busMv := rfl
@[simp] theorem setFan_inputW (m : Module) (k : Nat) (x : FanTray) : (setFan m k x).inputW = m.inputW := rfl
@[simp] theorem setFan_pwrWarn (m : Module) (k : Nat) (x : FanTray) : (setFan m k x).pwrWarn = m.pwrWarn := rfl
@[simp] theorem setFan_thermalWarn (m : Module) (k : Nat) (x : FanTray) : (setFan m k x).thermalWarn = m.thermalWarn := rfl
@[simp] theorem setFan_feedLoss (m : Module) (k : Nat) (x : FanTray) : (setFan m k x).feedLoss = m.feedLoss := rfl
@[simp] theorem setFan_brickFault (m : Module) (k : Nat) (x : FanTray) : (setFan m k x).brickFault = m.brickFault := rfl
@[simp] theorem setFan_efuseTrip (m : Module) (k : Nat) (x : FanTray) : (setFan m k x).efuseTrip = m.efuseTrip := rfl
@[simp] theorem setFan_thermalOff (m : Module) (k : Nat) (x : FanTray) : (setFan m k x).thermalOff = m.thermalOff := rfl
@[simp] theorem setFan_words (m : Module) (k : Nat) (x : FanTray) : (setFan m k x).words = m.words := rfl
@[simp] theorem setFan_free (m : Module) (k : Nat) (x : FanTray) : (setFan m k x).free = m.free := rfl
/-! ### setSled -/
@[simp] theorem setSled_serial (m : Module) (k : Nat) (x : Sled) : (setSled m k x).serial = m.serial := rfl
@[simp] theorem setSled_feeds (m : Module) (k : Nat) (x : Sled) : (setSled m k x).feeds = m.feeds := rfl
@[simp] theorem setSled_bricks (m : Module) (k : Nat) (x : Sled) : (setSled m k x).bricks = m.bricks := rfl
@[simp] theorem setSled_fans (m : Module) (k : Nat) (x : Sled) : (setSled m k x).fans = m.fans := rfl
@[simp] theorem setSled_card (m : Module) (k : Nat) (x : Sled) : (setSled m k x).card = m.card := rfl
@[simp] theorem setSled_cool (m : Module) (k : Nat) (x : Sled) : (setSled m k x).cool = m.cool := rfl
@[simp] theorem setSled_past (m : Module) (k : Nat) (x : Sled) : (setSled m k x).past = m.past := rfl
@[simp] theorem setSled_busOn (m : Module) (k : Nat) (x : Sled) : (setSled m k x).busOn = m.busOn := rfl
@[simp] theorem setSled_busMv (m : Module) (k : Nat) (x : Sled) : (setSled m k x).busMv = m.busMv := rfl
@[simp] theorem setSled_inputW (m : Module) (k : Nat) (x : Sled) : (setSled m k x).inputW = m.inputW := rfl
@[simp] theorem setSled_pwrWarn (m : Module) (k : Nat) (x : Sled) : (setSled m k x).pwrWarn = m.pwrWarn := rfl
@[simp] theorem setSled_thermalWarn (m : Module) (k : Nat) (x : Sled) : (setSled m k x).thermalWarn = m.thermalWarn := rfl
@[simp] theorem setSled_feedLoss (m : Module) (k : Nat) (x : Sled) : (setSled m k x).feedLoss = m.feedLoss := rfl
@[simp] theorem setSled_brickFault (m : Module) (k : Nat) (x : Sled) : (setSled m k x).brickFault = m.brickFault := rfl
@[simp] theorem setSled_efuseTrip (m : Module) (k : Nat) (x : Sled) : (setSled m k x).efuseTrip = m.efuseTrip := rfl
@[simp] theorem setSled_thermalOff (m : Module) (k : Nat) (x : Sled) : (setSled m k x).thermalOff = m.thermalOff := rfl
@[simp] theorem setSled_words (m : Module) (k : Nat) (x : Sled) : (setSled m k x).words = m.words := rfl
@[simp] theorem setSled_free (m : Module) (k : Nat) (x : Sled) : (setSled m k x).free = m.free := rfl
/-! ### The state with another unit -/
@[simp] theorem withLeaf_leaf (s : State) (l : Leaf) : (s.withLeaf l).leaf = l := rfl
@[simp] theorem withLeaf_box (s : State) (l : Leaf) : (s.withLeaf l).box = s.box := rfl
@[simp] theorem withLeaf_pending (s : State) (l : Leaf) : (s.withLeaf l).pending = s.pending := rfl
@[simp] theorem withBox_leaf (s : State) (b : Box) : (s.withBox b).leaf = s.leaf := rfl
@[simp] theorem withBox_box (s : State) (b : Box) : (s.withBox b).box = b := rfl
@[simp] theorem withBox_pending (s : State) (b : Box) : (s.withBox b).pending = s.pending := rfl
/-! ### Reads of what was written -/
@[simp] theorem leafTap_setTap_same (l : Leaf) (n : Nat) (x : Tap) : leafTap (setTap l n x) n = x := tabGet_set_same _ _ _
theorem leafTap_setTap_other (l : Leaf) {j n : Nat} (h : j ≠ n) (x : Tap) : leafTap (setTap l n x) j = leafTap l j := tabGet_set_other h
@[simp] theorem leafSlot_setSlot_same (l : Leaf) (k : Nat) (x : Slot) : leafSlot (setSlot l k x) k = x := tabGet_set_same _ _ _
theorem leafSlot_setSlot_other (l : Leaf) {j k : Nat} (h : j ≠ k) (x : Slot) : leafSlot (setSlot l k x) j = leafSlot l j := tabGet_set_other h
@[simp] theorem leafTdc_setLeafTdc_same (l : Leaf) (n : Nat) (x : Tdc) : leafTdc (setLeafTdc l n x) n = x := tabGet_set_same _ _ _
theorem leafTdc_setLeafTdc_other (l : Leaf) {j n : Nat} (h : j ≠ n) (x : Tdc) : leafTdc (setLeafTdc l n x) j = leafTdc l j := tabGet_set_other h
@[simp] theorem leafTrig_setTrig_same (l : Leaf) (k : Nat) (x : Trigger) : leafTrig (setTrig l k x) k = x := tabGet_set_same _ _ _
theorem leafTrig_setTrig_other (l : Leaf) {j k : Nat} (h : j ≠ k) (x : Trigger) : leafTrig (setTrig l k x) j = leafTrig l j := tabGet_set_other h
@[simp] theorem chanPort_setChanPort_same (c : Chan) (p : Nat) (x : Port) : chanPort (setChanPort c p x) p = x := tabGet_set_same _ _ _
theorem chanPort_setChanPort_other (c : Chan) {j p : Nat} (h : j ≠ p) (x : Port) : chanPort (setChanPort c p x) j = chanPort c j := tabGet_set_other h
@[simp] theorem refAt_setRef_same (c : ChanClock) (r : Nat) (x : Ref) : refAt (setRef c r x) r = x := tabGet_set_same _ _ _
theorem refAt_setRef_other (c : ChanClock) {j r : Nat} (h : j ≠ r) (x : Ref) : refAt (setRef c r x) j = refAt c j := tabGet_set_other h
@[simp] theorem outAt_setOut_same (c : ChanClock) (n : Nat) (x : Output) : outAt (setOut c n x) n = x := tabGet_set_same _ _ _
theorem outAt_setOut_other (c : ChanClock) {j n : Nat} (h : j ≠ n) (x : Output) : outAt (setOut c n x) j = outAt c j := tabGet_set_other h
@[simp] theorem feedAt_setFeed_same (m : Module) (f : Nat) (x : Feed) : feedAt (setFeed m f x) f = x := tabGet_set_same _ _ _
theorem feedAt_setFeed_other (m : Module) {j f : Nat} (h : j ≠ f) (x : Feed) : feedAt (setFeed m f x) j = feedAt m j := tabGet_set_other h
@[simp] theorem brickAt_setBrick_same (m : Module) (k : Nat) (x : Brick) : brickAt (setBrick m k x) k = x := tabGet_set_same _ _ _
theorem brickAt_setBrick_other (m : Module) {j k : Nat} (h : j ≠ k) (x : Brick) : brickAt (setBrick m k x) j = brickAt m j := tabGet_set_other h
@[simp] theorem fanAt_setFan_same (m : Module) (k : Nat) (x : FanTray) : fanAt (setFan m k x) k = x := tabGet_set_same _ _ _
theorem fanAt_setFan_other (m : Module) {j k : Nat} (h : j ≠ k) (x : FanTray) : fanAt (setFan m k x) j = fanAt m j := tabGet_set_other h
@[simp] theorem sledAt_setSled_same (m : Module) (k : Nat) (x : Sled) : sledAt (setSled m k x) k = x := tabGet_set_same _ _ _
theorem sledAt_setSled_other (m : Module) {j k : Nat} (h : j ≠ k) (x : Sled) : sledAt (setSled m k x) j = sledAt m j := tabGet_set_other h
theorem leafPort_setLeafPort_same (l : Leaf) (d : Nat) (p : Port) : leafPort (setLeafPort l d p) d = p := by
  unfold leafPort setLeafPort; split <;> rfl
theorem leafDom_setLeafDom_same (l : Leaf) (d : Nat) (x : DomLoop) : leafDom (setLeafDom l d x) d = x := by
  unfold leafDom setLeafDom; split <;> rfl

end Sys2Proof.Laws
end

