-- ==== Sys2Proof/Laws/Supply.lean ====
section
/-! SUPPORT. The module's supply, tables and sessions: each operation and each row of the module keeps them in order, and so does a command at the channel. -/
namespace Sys2Proof.Laws
open Sys2Proof.Machine

/-- What a step keeps of the module (Safety). -/
def ModOk (m : Module) : Prop := m.tablesWf = true ∧ m.supplyOk = true ∧ m.card.sessionsOk = true
/-- The places that the card's sessions hold. -/
def cardPlaces (c : Card) : List Nat := c.sessions.map Session.place
theorem sessionsOk_places {c d : Card} (h : cardPlaces d = cardPlaces c) (k : c.sessionsOk = true) : d.sessionsOk = true := by
  unfold Card.sessionsOk cardPlaces at *
  rw [h]
  have : d.sessions.length = c.sessions.length := by simpa using congrArg List.length h
  rw [this]; exact k
theorem modOk_card {m : Module} {c : Card} (h : ModOk m) (k : c.sessionsOk = true) : ModOk { m with card := c } := ⟨h.1, h.2.1, k⟩
theorem modOk_places {m : Module} {c : Card} (h : ModOk m) (k : cardPlaces c = cardPlaces m.card) : ModOk { m with card := c } := modOk_card h (sessionsOk_places k h.2.2)
theorem tablesWf_iff {m : Module} : m.tablesWf = true ↔ tabWf {} m.feeds = true ∧ tabWf {} m.bricks = true ∧ tabWf {} m.fans = true ∧ tabWf {} m.sleds = true ∧ tabWf 0#64 m.words = true ∧ tabWf none m.cool = true := by
  unfold Module.tablesWf; simp [and_assoc]
theorem modOk_feed {m : Module} (k x) (h : ModOk m) : ModOk (setFeed m k x) := by
  refine ⟨?_, h.2⟩; have := tablesWf_iff.mp h.1; exact tablesWf_iff.mpr ⟨tabSet_wf this.1, this.2⟩
theorem modOk_brick {m : Module} (k x) (h : ModOk m) : ModOk (setBrick m k x) := by
  refine ⟨?_, h.2⟩; have := tablesWf_iff.mp h.1; exact tablesWf_iff.mpr ⟨this.1, tabSet_wf this.2.1, this.2.2⟩
theorem modOk_fan {m : Module} (k x) (h : ModOk m) : ModOk (setFan m k x) := by
  refine ⟨?_, h.2⟩; have := tablesWf_iff.mp h.1; exact tablesWf_iff.mpr ⟨this.1, this.2.1, tabSet_wf this.2.2.1, this.2.2.2⟩
theorem sledAt_setSled {m : Module} (h : tabWf {} m.sleds = true) (s j : Nat) (x : Sled) :
    sledAt (setSled m s x) j = if j = s then x else sledAt m j := by
  unfold sledAt setSled
  split
  · subst j; exact tabGet_set_same _ _ _
  · exact tabGet_set_other ‹_›
theorem supplyOk_at {m : Module} (h : m.supplyOk = true) (s : Nat) (hs : s < 2) : Sled.ok m.busOn (sledAt m s) = true := by
  unfold Module.supplyOk at h
  simp at h
  rcases (by omega : s = 0 ∨ s = 1) with rfl | rfl
  · exact h.1
  · exact h.2
theorem modOk_sled {m : Module} (s x) (h : ModOk m) (k : Sled.ok m.busOn x = true) : ModOk (setSled m s x) := by
  have w := tablesWf_iff.mp h.1
  have hw := sledAt_setSled w.2.2.2.1 s
  refine ⟨tablesWf_iff.mpr ⟨w.1, w.2.1, w.2.2.1, tabSet_wf w.2.2.2.1, w.2.2.2.2⟩, ?_, h.2.2⟩
  have := h.2.1
  unfold Module.supplyOk at *
  rw [hw, hw]
  simp only [Bool.and_eq_true] at *
  constructor <;> split <;> simp_all [setSled]
theorem modOk_fold {α} (f : Module → α → Module) (hf : ∀ m a, ModOk m → ModOk (f m a)) (l : List α) : ∀ m, ModOk m → ModOk (l.foldl f m) := by
  induction l with
  | nil => exact fun m h => h
  | cons a l ih => exact fun m h => ih _ (hf m a h)
theorem modOk_boxFold {α} (f : Box → α → Box) (hf : ∀ b a, ModOk b.mod → ModOk (f b a).mod) (l : List α) : ∀ b : Box, ModOk b.mod → ModOk (l.foldl f b).mod := by
  induction l with
  | nil => exact fun m h => h
  | cons a l ih => exact fun m h => ih _ (hf m a h)
theorem sessionSend_places (now p m c) : cardPlaces (sessionSend now p m c) = cardPlaces c := by
  unfold sessionSend sessionUpd cardPlaces
  simp only [List.map_map]
  congr 1; funext x; simp only [Function.comp]; split <;> rfl
theorem sessionUpd_places (c : Card) (p) (f : Session → Session) (hf : ∀ s, (f s).place = s.place) : cardPlaces (sessionUpd c p f) = cardPlaces c := by
  unfold sessionUpd cardPlaces
  simp only [List.map_map]
  congr 1; funext x; simp only [Function.comp]; split <;> simp [hf]
theorem deliver_places (now ca an) (l : List CardWait) : ∀ k : Card, cardPlaces (l.foldl (fun (k : Card) w => match answerReady w ca an with
      | some a => sessionSend now w.place (answerMsg w.target w.repeat_ a) k
      | none => { k with waits := k.waits ++ [w] }) k) = cardPlaces k := by
  induction l with
  | nil => exact fun k => rfl
  | cons w l ih =>
    intro k
    simp only [List.foldl_cons]
    rw [ih]
    split
    · exact sessionSend_places _ _ _ _
    · rfl
theorem cardTake_places (b : Box) : cardPlaces (cardTake b).mod.card = cardPlaces b.mod.card := by
  unfold cardTake
  split
  · simp only [cardPlaces, List.map_map]
    have := deliver_places (boxClock b) b.chan.answers b.mod.card.answers b.mod.card.waits { b.mod.card with waits := [] }
    unfold cardPlaces at this
    rw [← this]
    unfold deliver
    congr 1; funext x; simp only [Function.comp, teleSub_place]
  · rfl
theorem pumpBox_places (b : Box) : cardPlaces (pumpBox b).mod.card = cardPlaces b.mod.card := cardTake_places _
/-- Since when hot sleds are cool is kept in canonical form. -/
theorem modOk_cool {m : Module} (now : Nat) (h : ModOk m) : ModOk (coolSettle now m) := by
  have w := tablesWf_iff.mp h.1
  exact ⟨tablesWf_iff.mpr ⟨w.1, w.2.1, w.2.2.1, w.2.2.2.1, w.2.2.2.2.1, tabSet_wf (tabSet_wf w.2.2.2.2.2)⟩, h.2⟩
theorem cardTake_mod (b : Box) : (cardTake b).mod = { b.mod with card := (cardTake b).mod.card } := by
  unfold cardTake
  split <;> rfl
theorem modOk_pump {b : Box} (h : ModOk b.mod) : ModOk (pumpBox b).mod := by
  unfold pumpBox
  rw [cardTake_mod]
  exact modOk_places (modOk_cool _ h) (cardTake_places _)
theorem modOk_cardEv {b : Box} (e v) (h : ModOk b.mod) : ModOk (cardEv e v b).mod := by
  unfold cardEv; split
  · exact modOk_places h rfl
  · exact h
theorem modOk_boxEv {b : Box} (e v) (h : ModOk b.mod) : ModOk (boxEv e v b).mod := by
  unfold boxEv; apply modOk_cardEv; unfold sledEv; split <;> exact h
theorem modOk_boxError {b : Box} (k i) (h : ModOk b.mod) : ModOk (boxError k i b).1.mod := by
  unfold boxError; split <;> exact h
theorem modOk_now {m : Module} {c0 : Card} (now ns p t cmd id st force) (h : ModOk m) (k : cardPlaces c0 = cardPlaces m.card) : ModOk { m with card := answerNow now ns p t cmd id st force c0 } :=
  modOk_places h ((sessionSend_places _ _ _ _).trans k)
theorem modOk_ask {b : Box} (p cmd id force run) (h : ModOk b.mod) : ModOk (askChan p cmd id force run b).mod := by
  unfold askChan
  simp only
  split
  · exact h
  · split
    · exact h
    · split
      · exact modOk_pump (modOk_now _ _ _ _ _ _ _ _ h (sessionUpd_places _ _ _ (fun _ => rfl)))
      · split
        · exact modOk_places h (sessionUpd_places _ _ _ (fun _ => rfl))
        · apply modOk_pump
          cases (run b.chan).2 with
          | held a => exact modOk_places h (sessionUpd_places _ _ _ (fun _ => rfl))
          | now st => exact modOk_now _ _ _ _ _ _ _ _ h (sessionUpd_places _ _ _ (fun _ => rfl))
theorem modOk_askCard {b : Box} (p cmd id force body) (f : Module → Module × Bytes) (hf : ∀ m, ModOk m → ModOk (f m).1) (h : ModOk b.mod) :
    ModOk (askCard p cmd id force body f b).mod := by
  unfold askCard
  simp only
  split
  · exact h
  · split
    · exact h
    · have h0 := modOk_places h (sessionUpd_places b.mod.card p (fun s => { s with lastAt := boxClock b }) (fun _ => rfl))
      split
      · exact modOk_pump (modOk_now _ _ _ _ _ _ _ _ h (sessionUpd_places _ _ _ (fun _ => rfl)))
      · split
        · exact modOk_pump (modOk_now _ _ _ _ _ _ _ _ h (sessionUpd_places _ _ _ (fun _ => rfl)))
        · split
          · exact modOk_pump (modOk_places h (sessionUpd_places _ _ _ (fun _ => rfl)))
          · exact modOk_pump (modOk_now _ _ _ _ _ _ _ _ h (sessionUpd_places _ _ _ (fun _ => rfl)))
          · apply modOk_pump
            exact modOk_places (hf _ h0) rfl
theorem modOk_sub {b : Box} (p t) (f : Session → Session) (hf : ∀ s, (f s).place = s.place) (h : ModOk b.mod) : ModOk (subAt p t f b).mod := by
  unfold subAt
  exact modOk_pump (modOk_places h (sessionUpd_places _ _ _ (fun s => by split <;> simp [hf])))
theorem modOk_askTel {b : Box} (p t id body) (h : ModOk b.mod) : ModOk (askTelemetry p t id body b).mod := by
  unfold askTelemetry; split
  · exact modOk_askCard _ _ _ _ _ _ (fun m h => h) h
  · split
    · exact modOk_places h (sessionUpd_places _ _ _ (fun _ => rfl))
    · exact modOk_ask _ _ _ _ _ h
theorem sledOk_iff {b : Bool} {x : Sled} : Sled.ok b x = true ↔ ((x.powered = false ∧ x.starting = false) ∨ (x.present = true ∧ b = true ∧ x.efuseOff = false ∧ x.thermalOff = false)) ∧
   (x.powered = false ∨ x.starting = false) ∧ (x.efuseOff = decide (2 ≤ x.trips)) ∧ (x.thermalOff = false ∨ (x.present = true ∧ x.efuseOff = false)) := by
  unfold Sled.ok
  simp only [Bool.and_eq_true, Bool.or_eq_true, Bool.not_eq_true', beq_iff_eq, Bool.or_eq_false_iff, Bool.and_eq_false_iff]
  tauto
theorem sledOk_down {x : Sled} {b : Bool} (t : Nat) (h : Sled.ok b x = true) :
    Sled.ok b { x with powered := false, starting := false, safe := false, since := t } = true := by
  have := sledOk_iff.mp h; exact sledOk_iff.mpr ⟨.inl ⟨rfl, rfl⟩, .inl rfl, this.2.2.1, this.2.2.2⟩
theorem modOk_down {b : Box} (s : Nat) (f : Sled → Sled) (h : ModOk b.mod)
    (hf : Sled.ok b.mod.busOn (f { sledAt b.mod s with powered := false, starting := false, safe := false, since := boxClock b }) = true) : ModOk (sledDown s f b).mod := by
  unfold sledDown
  simp only
  have h1 := modOk_sled s _ h hf
  split
  · exact modOk_places (modOk_fold _ (fun m a k => modOk_fan _ _ k) (List.range 4) _ h1) rfl
  · exact modOk_fold _ (fun m a k => modOk_fan _ _ k) (List.range 4) _ h1
theorem modOk_start {m : Module} (now : Nat) (h : ModOk m) (hb : m.busOn = true) : ModOk (sledsStart now m) ∧ (sledsStart now m).busOn = true := by
  have : ∀ (l : List Nat), (∀ s ∈ l, s < 2) → ∀ m : Module, ModOk m → m.busOn = true → ModOk (l.foldl (fun (a : Module) s =>
    let x := sledAt a s
    if x.present && !x.powered && !x.efuseOff && !x.thermalOff then setSled a s { x with starting := true, since := now } else a) m) ∧ (l.foldl (fun (a : Module) s =>
    let x := sledAt a s
    if x.present && !x.powered && !x.efuseOff && !x.thermalOff then setSled a s { x with starting := true, since := now } else a) m).busOn = true := by
    intro l
    induction l with
    | nil => exact fun _ m h hb => ⟨h, hb⟩
    | cons s l ih =>
      intro hl m h hb
      simp only [List.foldl_cons]
      apply ih (fun s hs => hl s (List.mem_cons_of_mem _ hs))
      · split
        · apply modOk_sled _ _ h
          have := supplyOk_at h.2.1 s (hl s (List.mem_cons_self))
          unfold Sled.ok at *; simp_all
        · exact h
      · split
        · exact hb
        · exact hb
  exact this _ (by simp) m h hb
theorem modOk_bus {m : Module} (h : ModOk m) : ModOk { m with busOn := true } := by
  refine ⟨h.1, ?_, h.2.2⟩
  have := h.2.1
  unfold Module.supplyOk Sled.ok at *
  simp only [sledAt] at *
  simp only [Bool.and_eq_true, Bool.or_eq_true, Bool.not_eq_true', beq_iff_eq, decide_eq_true_eq] at *
  tauto
theorem modOk_rise {m : Module} (now : Nat) (h : ModOk m) : ModOk (busRise now m) := by
  unfold busRise; split
  · exact (modOk_start _ (modOk_bus h) rfl).1
  · exact h
theorem modOk_warnFalls {b : Box} (h : ModOk b.mod) : ModOk (warnFalls b).mod := by
  unfold warnFalls; split
  · simp only; split
    · exact modOk_cardEv _ _ h
    · exact modOk_cardEv _ _ h
  · exact h
theorem modOk_cardStart {m : Module} (h : ModOk m) : ModOk (cardStart m) := by
  have w := tablesWf_iff.mp h.1
  exact ⟨tablesWf_iff.mpr ⟨w.1, w.2.1, w.2.2.1, w.2.2.2.1, rfl, w.2.2.2.2.2⟩, h.2.1, rfl⟩
theorem modOk_move {b : Box} (f l st e) (h : ModOk b.mod) : ModOk (feedMove f l st e b).mod := by
  unfold feedMove; simp only; split
  · apply modOk_pump; cases e
    · exact modOk_feed _ _ h
    · exact modOk_boxEv _ _ (modOk_feed _ _ h)
  · exact h
theorem modOk_trip {b : Box} (s) (hs : s < 2) (ht : (sledAt b.mod s).thermalOff = false) (h : ModOk b.mod) : ModOk (sledTrip s b).mod := by
  unfold sledTrip
  simp only
  have h1 : ModOk (sledDown s (fun x => { x with trips := (sledAt b.mod s).trips + 1, efuseOff := decide (2 ≤ (sledAt b.mod s).trips + 1) }) b).mod := by
    apply modOk_down s _ h
    exact sledOk_iff.mpr ⟨.inl ⟨rfl, rfl⟩, .inl rfl, rfl, .inl ht⟩
  apply modOk_pump; split
  · exact modOk_boxEv _ _ h1
  · exact h1
theorem noHeat {m : Module} (h : ModOk m) (s) (hs : s < 2) (hp : (sledAt m s).powered = true ∨ (sledAt m s).starting = true) : (sledAt m s).thermalOff = false := by
  have := sledOk_iff.mp (supplyOk_at h.2.1 s hs)
  rcases this.1 with ⟨a, b⟩ | ⟨_, _, _, d⟩
  · rcases hp with hp | hp <;> simp_all
  · exact d
theorem modOk_sessionOpen {b : Box} (ok a) (h : ModOk b.mod) : ModOk (boxSessionOpen ok a b).mod := by
  unfold boxSessionOpen
  simp only
  split
  · exact h
  · rename_i hc
    split
    · exact modOk_pump (modOk_cardEv _ _ h)
    · split
      · exact h
      · rename_i p hp
        refine modOk_card h ?_
        have hn := List.find?_some hp
        have hm := List.mem_of_find?_eq_some hp
        have hl := h.2.2
        simp only [Bool.not_eq_true', not_or, Nat.not_le] at hc
        unfold Card.sessionsOk at *
        simp only [Bool.and_eq_true, decide_eq_true_eq] at *
        refine ⟨⟨?_, ?_⟩, ?_⟩
        · simp; omega
        · rw [List.map_append]
          refine List.nodup_append.mpr ⟨hl.1.2, by simp, ?_⟩
          intro a ha c hc2 e
          simp only [List.map_cons, List.map_nil, List.mem_singleton] at hc2
          subst hc2; subst e
          obtain ⟨x, hx, hxp⟩ := List.mem_map.mp ha
          have : sessionAt b.mod.card a = none := by simpa using hn
          unfold sessionAt at this
          have := List.find?_eq_none.mp this x hx
          simp [hxp] at this
        · simp only [List.map_append, List.all_append, Bool.and_eq_true]
          refine ⟨hl.2, ?_⟩
          have := List.mem_range.mp hm
          simpa using this
theorem sessionsOk_sublist {c : Card} {l : List Session} (hl : l.Sublist c.sessions) (k : c.sessionsOk = true) : ∀ w, ({ c with sessions := l, waits := w } : Card).sessionsOk = true := by
  intro w
  unfold Card.sessionsOk at *
  simp only [Bool.and_eq_true, decide_eq_true_eq] at *
  refine ⟨⟨hl.length_le.trans k.1.1, (hl.map _).nodup k.1.2⟩, ?_⟩
  exact List.all_eq_true.mpr (fun p hp => List.all_eq_true.mp k.2 p ((hl.map _).subset hp))
theorem modOk_sessionEnd {m : Module} (p) (h : ModOk m) : ModOk { m with card := sessionEnd p m.card } := modOk_card h (sessionsOk_sublist List.filter_sublist h.2.2 _)
/-! ### The module's clock -/
theorem modOk_past {m : Module} (p : Nat) (h : ModOk m) : ModOk { m with past := p } := h
theorem modOk_to {b : Box} (t : Nat) (h : ModOk b.mod) : ModOk (boxTo t b).mod := by
  unfold boxTo
  split
  · exact h
  · split
    · exact h
    · exact modOk_past _ h
/-- A row that names a deadline keeps what its action keeps wherever the deadline stands. -/
theorem modOk_at {b : Box} (due : Module → Option Nat) (act : Box → Box) (h : ModOk b.mod)
    (ha : ∀ x : Box, ModOk x.mod → (due x.mod).isSome = true → ModOk (act x).mod) : ModOk (boxAt due act b).mod := by
  unfold boxAt
  split
  · exact h
  · simp only
    split
    · rename_i t _ k
      refine ha _ (modOk_to t h) ?_
      cases hd : due (boxTo t b).mod with
      | none => rw [hd] at k; cases k
      | some _ => rfl
    · exact modOk_to _ h
theorem modOk_startBox {b : Box} (held : Bool) (h : ModOk b.mod) : ModOk (boxStart held b).mod := modOk_past _ h
theorem modOk_restart {b : Box} (h : ModOk b.mod) : ModOk (boxRestart b).mod := by
  unfold boxRestart
  simp only
  split
  · exact modOk_past _ h
  · exact h
theorem modOk_sessionIdle {b : Box} (p) (h : ModOk b.mod) : ModOk (boxSessionIdle p b).mod :=
  modOk_at _ _ h (fun _ k _ => modOk_sessionEnd p k)
theorem modOk_askUnknown {b : Box} (p t c i) (h : ModOk b.mod) : ModOk (askUnknown p t c i b).mod := by
  unfold askUnknown; simp only; split
  · exact h
  · split
    · exact modOk_now _ _ _ _ _ _ _ _ h (sessionUpd_places _ _ _ (fun _ => rfl))
    · exact modOk_places h (sessionUpd_places _ _ _ (fun _ => rfl))
theorem teleDrain_place (a c d) (s : Session) : (teleDrain a c d s).place = s.place := by unfold teleDrain; split <;> rfl
theorem subscribe_place (t st f k at_) (s : Session) : (subscribe t st f k at_ s).place = s.place := by unfold subscribe; simp only; split <;> rfl
theorem modOk_telemetry {b : Box} (p t i st f) (h : ModOk b.mod) : ModOk (boxTelemetry p t i st f b).mod := by
  unfold boxTelemetry; simp only; split
  · exact modOk_sub _ _ _ (fun s => subscribe_place _ _ _ _ _ s) (modOk_askTel _ _ _ _ h)
  · exact modOk_askTel _ _ _ _ h
theorem modOk_telemetryStop {b : Box} (p t i) (h : ModOk b.mod) : ModOk (boxTelemetryStop p t i b).mod := by
  unfold boxTelemetryStop; simp only; split
  · exact modOk_sub _ _ _ (fun s => rfl) (modOk_askTel _ _ _ _ h)
  · exact modOk_askTel _ _ _ _ h
theorem modOk_telemetryTick {b : Box} (h : ModOk b.mod) : ModOk (boxTick b).mod := by
  unfold boxTick
  simp only
  apply modOk_pump
  refine modOk_places h ?_
  simp only [cardPlaces, List.map_map]
  congr 1; funext x; simp [teleDrain_place]
theorem modOk_feedUsable {b : Box} (f) (h : ModOk b.mod) : ModOk (boxFeedUsable f b).mod := by
  unfold boxFeedUsable; simp only; split
  · exact h
  · exact modOk_pump (modOk_rise _ (modOk_warnFalls (modOk_boxEv _ _ (modOk_feed _ _ h))))
theorem modOk_feedUndervolt {b : Box} (f) (h : ModOk b.mod) : ModOk (boxFeedUndervolt f b).mod := by
  unfold boxFeedUndervolt; simp only
  apply modOk_move; split <;> exact h
theorem modOk_powerWarn {b : Box} (h : ModOk b.mod) : ModOk (boxPowerWarn b).mod := by
  unfold boxPowerWarn; simp only; split
  · exact h
  · apply modOk_pump
    have : ModOk (boxEv .powerWarn [] { b with mod := { b.mod with pwrWarn := true } }).mod := modOk_boxEv _ _ h
    split <;> exact this
theorem modOk_busOff {m : Module} (h : ModOk m) (h0 : (sledAt m 0).powered = false ∧ (sledAt m 0).starting = false)
   (h1 : (sledAt m 1).powered = false ∧ (sledAt m 1).starting = false) : ModOk { m with busOn := false, pwrWarn := false, thermalWarn := false } := by
  refine ⟨h.1, ?_, h.2.2⟩
  have := h.2.1
  unfold Module.supplyOk at *
  simp only [Bool.and_eq_true] at *
  have a := sledOk_iff.mp this.1
  have b := sledOk_iff.mp this.2
  exact ⟨sledOk_iff.mpr ⟨.inl h0, a.2⟩, sledOk_iff.mpr ⟨.inl h1, b.2⟩⟩
theorem foldl_sleds {α} (f : Module → α → Module) (hf : ∀ m a, (f m a).sleds = m.sleds) (l : List α) : ∀ m, (l.foldl f m).sleds = m.sleds := by
  induction l with
  | nil => exact fun m => rfl
  | cons a l ih => exact fun m => (ih _).trans (hf m a)
theorem sledDown_sleds (s f) (b : Box) : (sledDown s f b).mod.sleds = (setSled b.mod s (f { sledAt b.mod s with powered := false, starting := false, safe := false, since := boxClock b })).sleds := by
  unfold sledDown
  simp only
  split
  · show Module.sleds (List.foldl _ _ _) = _
    apply foldl_sleds; intros; rfl
  · show Module.sleds (List.foldl _ _ _) = _
    apply foldl_sleds; intros; rfl
theorem sledAt_sledDown (s j f) (b : Box) (h : tabWf {} b.mod.sleds = true) : sledAt (sledDown s f b).mod j =
   if j = s then f { sledAt b.mod s with powered := false, starting := false, safe := false, since := boxClock b } else sledAt b.mod j := by
  rw [← sledAt_setSled h]
  unfold sledAt
  rw [sledDown_sleds]
  rfl
theorem modOk_busCollapse {b : Box} (h : ModOk b.mod) : ModOk (boxBusCollapse b).mod := by
  unfold boxBusCollapse; split
  · apply modOk_cardStart
    have k0 : ModOk (sledDown 0 id b).mod := modOk_down _ _ h (sledOk_down _ (supplyOk_at h.2.1 0 (by decide)))
    have k1 : ModOk (sledDown 1 id (sledDown 0 id b)).mod := modOk_down _ _ k0 (sledOk_down _ (supplyOk_at k0.2.1 1 (by decide)))
    apply modOk_busOff k1
    · rw [sledAt_sledDown _ _ _ _ (tablesWf_iff.mp k0.1).2.2.2.1, if_neg (by decide), sledAt_sledDown _ _ _ _ (tablesWf_iff.mp h.1).2.2.2.1]
      exact ⟨rfl, rfl⟩
    · rw [sledAt_sledDown _ _ _ _ (tablesWf_iff.mp k0.1).2.2.2.1]
      simp
  · exact h
theorem modOk_softStart {b : Box} (s) (hs : s < 2) (h : ModOk b.mod) : ModOk (boxSoftStart s b).mod := by
  unfold boxSoftStart; simp only; split
  · rename_i hst
    have : ModOk (setSled b.mod s { sledAt b.mod s with starting := false, powered := true }) := by
      apply modOk_sled _ _ h
      have := sledOk_iff.mp (supplyOk_at h.2.1 s hs)
      refine sledOk_iff.mpr ⟨.inr ?_, .inr rfl, this.2.2⟩
      rcases this.1 with ⟨_, b⟩ | k
      · simp_all
      · exact k
    split
    · exact modOk_pump (modOk_past _ this)
    · exact this
  · exact h
theorem modOk_softStartTimeout {b : Box} (s) (hs : s < 2) (h : ModOk b.mod) : ModOk (boxSoftStartTimeout s b).mod := by
  refine modOk_at _ _ h (fun x k d => ?_)
  split at d
  · exact modOk_trip s hs (noHeat k s hs (.inr ‹_›)) k
  · cases d
theorem modOk_overcurrent {b : Box} (s) (hs : s < 2) (h : ModOk b.mod) : ModOk (boxOvercurrent s b).mod := by
  unfold boxOvercurrent; split
  · exact modOk_trip s hs (noHeat h s hs (.inl ‹_›)) h
  · exact h
theorem modOk_tripRetry {b : Box} (s) (hs : s < 2) (h : ModOk b.mod) : ModOk (boxTripRetry s b).mod := by
  refine modOk_at _ _ h (fun x k hd => ?_)
  simp only at hd
  split at hd
  · rename_i hc
    simp only [Bool.and_eq_true, Bool.not_eq_true', decide_eq_true_eq] at hc
    obtain ⟨⟨⟨⟨⟨a, b1⟩, c⟩, d⟩, e⟩, f⟩ := hc
    apply modOk_sled _ _ k
    have := sledOk_iff.mp (supplyOk_at k.2.1 s hs)
    have he : (sledAt x.mod s).efuseOff = false := by rw [this.2.2.1, b1]; rfl
    exact sledOk_iff.mpr ⟨.inr ⟨a, f, he, e⟩, .inl c, this.2.2⟩
  · cases hd
theorem modOk_sledInserted {b : Box} (s r) (h : ModOk b.mod) : ModOk (boxSledInserted s r b).mod := by
  unfold boxSledInserted; simp only; split
  · exact h
  · apply modOk_pump; apply modOk_boxEv
    apply modOk_sled _ _ h
    refine sledOk_iff.mpr ⟨?_, .inl rfl, rfl, .inl rfl⟩
    show (_ ∧ b.mod.busOn = false) ∨ _
    cases hb : b.mod.busOn
    · exact .inl ⟨rfl, rfl⟩
    · exact .inr ⟨rfl, rfl, rfl, rfl⟩
theorem modOk_sledRemoved {b : Box} (s) (h : ModOk b.mod) : ModOk (boxSledRemoved s b).mod := by
  unfold boxSledRemoved; split
  · apply modOk_pump; apply modOk_boxEv; apply modOk_down _ _ h
    exact sledOk_iff.mpr ⟨.inl ⟨rfl, rfl⟩, .inl rfl, rfl, .inl rfl⟩
  · exact h
theorem modOk_brickInserted {b : Box} (k) (h : ModOk b.mod) : ModOk (boxBrickInserted k b).mod := by
  unfold boxBrickInserted; simp only; split
  · exact h
  · exact modOk_pump (modOk_rise _ (modOk_boxEv _ _ (modOk_brick _ _ h)))
theorem modOk_brickRemoved {b : Box} (k) (h : ModOk b.mod) : ModOk (boxBrickRemoved k b).mod := by
  unfold boxBrickRemoved; split
  · exact modOk_pump (modOk_boxEv _ _ (modOk_brick _ _ h))
  · exact h
theorem modOk_fanInserted {b : Box} (k) (h : ModOk b.mod) : ModOk (boxFanInserted k b).mod := by
  unfold boxFanInserted; split
  · exact h
  · exact modOk_pump (modOk_boxEv _ _ (modOk_fan _ _ h))
theorem modOk_fanRemoved {b : Box} (k) (h : ModOk b.mod) : ModOk (boxFanRemoved k b).mod := by
  unfold boxFanRemoved; split
  · exact modOk_pump (modOk_boxEv _ _ (modOk_fan _ _ h))
  · exact h
theorem modOk_cardInserted {b : Box} (ok) (h : ModOk b.mod) : ModOk (boxCardInserted ok b).mod := by
  unfold boxCardInserted; simp only; split
  · exact h
  · have k : ModOk (boxEv .cardInserted [] { b with mod := cardStart { b.mod with card := { present := true } } }).mod :=
      modOk_boxEv _ _ (modOk_cardStart (modOk_card h rfl))
    apply modOk_pump; split
    · exact k
    · exact modOk_boxError _ _ k
theorem modOk_cardRemoved {b : Box} (h : ModOk b.mod) : ModOk (boxCardRemoved b).mod := by
  unfold boxCardRemoved; split
  · exact modOk_card h rfl
  · exact h
theorem modOk_lidUnpowered {b : Box} (s mesh) (hs : s < 2) (h : ModOk b.mod) : ModOk (boxLidUnpowered s mesh b).mod := by
  unfold boxLidUnpowered; simp only; split
  · exact h
  · apply modOk_sled _ _ h
    have := supplyOk_at h.2.1 s hs
    split <;> exact this
theorem modOk_image {b : Box} (h : ModOk b.mod) : ModOk (boxImage b).mod := by
  unfold boxImage; simp only; split
  · exact h
  · apply modOk_pump; exact modOk_sled _ _ h (supplyOk_at h.2.1 0 (by decide))
theorem modOk_pollBrick {b : Box} (k r) (h : ModOk b.mod) : ModOk (pollBrick k r b).mod := by
  unfold pollBrick; simp only; split
  · exact h
  · split
    · split
      · exact modOk_brick _ _ (modOk_boxError _ _ (modOk_boxEv _ _ (modOk_brick _ _ h)))
      · exact modOk_boxError _ _ (modOk_boxEv _ _ (modOk_brick _ _ h))
    · exact modOk_brick _ _ h
theorem modOk_pollFan {b : Box} (k r) (h : ModOk b.mod) : ModOk (pollFan k r b).mod := by
  unfold pollFan; simp only; split
  · exact h
  · split
    · split
      · exact modOk_fan _ _ (modOk_boxError _ _ (modOk_boxEv _ _ (modOk_fan _ _ h)))
      · exact modOk_boxError _ _ (modOk_boxEv _ _ (modOk_fan _ _ h))
    · exact modOk_fan _ _ h
theorem modOk_foldi {α} (n : Nat) (f : Module → α × Nat → Module) (hf : ∀ m a, a.2 < n → ModOk m → ModOk (f m a)) (l : List (α × Nat)) (hl : ∀ a ∈ l, a.2 < n) : ∀ m, ModOk m → ModOk (l.foldl f m) := by
  induction l with
  | nil => exact fun m h => h
  | cons a l ih => exact fun m h => ih (fun x hx => hl x (List.mem_cons_of_mem _ hx)) _ (hf m a (hl a (List.mem_cons_self)) h)
theorem zipIdx_lt {α} (n) (l : List α) : ∀ a ∈ (l.take n).zipIdx, a.2 < n := by
  intro a ha
  have := List.snd_lt_of_mem_zipIdx ha
  simp at this
  omega
theorem modOk_pollTake {m : Module} (r) (h : ModOk m) : ModOk (pollTake r m) := by
  unfold pollTake
  extract_lets m1 m2
  have h1 : ModOk m1 := modOk_fold _ (fun m a k => modOk_feed _ _ k) _ _ h
  have h2 : ModOk m2 := modOk_foldi 2 _ (by intro m a hn k; apply modOk_sled _ _ k; exact supplyOk_at k.2.1 a.2 hn) _ (zipIdx_lt 2 r.sleds) _ h1
  exact ⟨h2.1, h2.2.1, h2.2.2⟩
theorem tabWf_foldl (l : List (Nat × Word)) : ∀ t : Tab Word, tabWf 0#64 t = true → tabWf 0#64 (l.foldl (fun (t : Tab Word) x => tabSet 0#64 t x.1 x.2) t) = true := by
  induction l with
  | nil => exact fun t h => h
  | cons a l ih => exact fun t h => ih _ (tabSet_wf h)
theorem modOk_poll {b : Box} (r) (h : ModOk b.mod) : ModOk (boxPoll r b).mod := by
  unfold boxPoll
  extract_lets b1 b2 w
  have h1 : ModOk b1.mod := modOk_boxFold _ (fun b a k => modOk_pollBrick _ _ k) _ _ (modOk_pollTake r h)
  have h2 : ModOk b2.mod := modOk_boxFold _ (fun b a k => modOk_pollFan _ _ k) _ _ h1
  have v := tablesWf_iff.mp h2.1
  have hw : tabWf 0#64 w = true := tabWf_foldl _ _ v.2.2.2.2.1
  clear_value w b2
  apply modOk_pump
  exact ⟨tablesWf_iff.mpr ⟨v.1, v.2.1, v.2.2.1, v.2.2.2.1, hw, v.2.2.2.2.2⟩, h2.2.1, h2.2.2⟩
theorem modOk_fanDemand {b : Box} (s p) (h : ModOk b.mod) : ModOk (boxFanDemand s p b).mod := by
  unfold boxFanDemand; simp only; split
  · exact modOk_fold _ (fun m a k => modOk_fan _ _ k) (List.range 4) _ h
  · exact h
theorem modOk_thermalWarn {b : Box} (s) (h : ModOk b.mod) : ModOk (boxThermalWarn s b).mod := by
  unfold boxThermalWarn; simp only; split
  · apply modOk_pump
    have : ModOk (boxEv .thermalWarn [s] { b with mod := { b.mod with thermalWarn := true } }).mod := modOk_boxEv _ _ h
    split <;> exact this
  · exact h
theorem modOk_thermalShutdown {b : Box} (s) (hs : s < 2) (h : ModOk b.mod) : ModOk (boxThermalShutdown s b).mod := by
  unfold boxThermalShutdown; simp only; split
  · rename_i hc
    have hp : (sledAt b.mod s).powered = true := by simp only [Bool.and_eq_true] at hc; exact hc.1
    have k : ModOk (sledDown s (fun x => { x with thermalOff := true }) b).mod := by
      apply modOk_down _ _ h
      have := sledOk_iff.mp (supplyOk_at h.2.1 s hs)
      refine sledOk_iff.mpr ⟨.inl ⟨rfl, rfl⟩, .inl rfl, this.2.2.1, .inr ?_⟩
      rcases this.1 with ⟨a, _⟩ | k
      · rw [a] at hp; cases hp
      · exact ⟨k.1, k.2.2.1⟩
    apply modOk_pump; apply modOk_boxEv
    generalize sledDown s (fun x => { x with thermalOff := true }) b = d at k
    exact ⟨k.1, k.2.1, k.2.2⟩
  · exact h
theorem modOk_thermalRestored {b : Box} (s) (hs : s < 2) (h : ModOk b.mod) : ModOk (boxThermalRestored s b).mod := by
  refine modOk_at _ _ h (fun x g hd => ?_)
  split at hd
  · rename_i ht
    apply modOk_pump; apply modOk_boxEv
    apply modOk_sled _ _ g
    have := sledOk_iff.mp (supplyOk_at g.2.1 s hs)
    have hh : (sledAt x.mod s).present = true ∧ (sledAt x.mod s).efuseOff = false := by
      rcases this.2.2.2 with k | k
      · rw [k] at ht; cases ht
      · exact k
    have hp : (sledAt x.mod s).powered = false := by
      rcases this.1 with k | k
      · exact k.1
      · rw [k.2.2.2] at ht; cases ht
    refine sledOk_iff.mpr ⟨?_, .inl hp, this.2.2.1, .inl rfl⟩
    show (_ ∧ x.mod.busOn = false) ∨ _
    cases hb : x.mod.busOn
    · exact .inl ⟨hp, rfl⟩
    · exact .inr ⟨hh.1, rfl, hh.2, rfl⟩
  · cases hd
theorem modOk_atModule (i : Instr) (s t : State) (ha : i.atModule = true) (hw : i.wf = true) (h : ModOk s.box.mod) (e : exec i s = .next t) : ModOk t.box.mod := by
  cases i with
  | sessionOpen ok a => cases e; exact modOk_sessionOpen _ _ h
  | sessionIdleTimeout p => cases e; exact modOk_sessionIdle _ h
  | sessionClosed p => cases e; exact modOk_sessionEnd _ h
  | badCommand p t c i => cases e; exact modOk_askUnknown _ _ _ _ h
  | telemetry p t i st f => cases e; exact modOk_telemetry _ _ _ _ _ h
  | telemetryStop p t i => cases e; exact modOk_telemetryStop _ _ _ h
  | telemetryTick => cases e; exact modOk_telemetryTick h
  | moduleStatus p i => cases e; exact modOk_askCard _ _ _ _ _ _ (fun m k => k) h
  | cardConfig p i a d => cases e; exact modOk_askCard _ _ _ _ _ _ (fun m k => modOk_places k rfl) h
  | feedUsable f => have k1 := need_next e; cases k1.2; exact modOk_feedUsable _ h
  | feedUndervolt f => have k1 := need_next e; cases k1.2; exact modOk_feedUndervolt _ h
  | feedOvervolt f => have k1 := need_next e; cases k1.2; exact modOk_move _ _ _ _ h
  | feedReversed f => have k1 := need_next e; cases k1.2; exact modOk_move _ _ _ _ h
  | feedAbsent f => have k1 := need_next e; cases k1.2; exact modOk_move _ _ _ _ h
  | sledSoftStartDone k => have k1 := need_next e; cases k1.2; exact modOk_softStart _ (of_decide_eq_true k1.1) h
  | sledSoftStartTimeout k => have k1 := need_next e; cases k1.2; exact modOk_softStartTimeout _ (of_decide_eq_true k1.1) h
  | sledOvercurrent k => have k1 := need_next e; cases k1.2; exact modOk_overcurrent _ (of_decide_eq_true k1.1) h
  | sledTripRetry k => have k1 := need_next e; cases k1.2; exact modOk_tripRetry _ (of_decide_eq_true k1.1) h
  | sledInserted k b => have k1 := need_next e; cases k1.2; exact modOk_sledInserted _ _ h
  | sledRemoved k => have k1 := need_next e; cases k1.2; exact modOk_sledRemoved _ h
  | brickInserted k => have k1 := need_next e; cases k1.2; exact modOk_brickInserted _ h
  | brickRemoved k => have k1 := need_next e; cases k1.2; exact modOk_brickRemoved _ h
  | fanInserted k => have k1 := need_next e; cases k1.2; exact modOk_fanInserted _ h
  | fanRemoved k => have k1 := need_next e; cases k1.2; exact modOk_fanRemoved _ h
  | fanDemand k p => have k1 := need_next e; cases k1.2; exact modOk_fanDemand _ _ h
  | thermalWarn k => have k1 := need_next e; cases k1.2; exact modOk_thermalWarn _ h
  | thermalShutdown k => have k1 := need_next e; cases k1.2; exact modOk_thermalShutdown _ (of_decide_eq_true k1.1) h
  | thermalRestored k => have k1 := need_next e; cases k1.2; exact modOk_thermalRestored _ (of_decide_eq_true k1.1) h
  | sledLidUnpowered k m => have k1 := need_next e; cases k1.2; exact modOk_lidUnpowered _ _ (of_decide_eq_true k1.1) h
  | fanNoDemand k => have k1 := need_next e; cases k1.2; exact modOk_at _ _ h (fun _ g _ => modOk_fan _ _ g)
  | powerWarn => cases e; exact modOk_powerWarn h
  | busCollapse => cases e; exact modOk_busCollapse h
  | cardInserted ok => cases e; exact modOk_cardInserted _ h
  | cardRemoved => cases e; exact modOk_cardRemoved h
  | pmbusPoll r => cases e; exact modOk_poll _ h
  | _ => cases ha

theorem modOk_step {b : Box} (f) (h : ModOk b.mod) : ModOk (chanStep f b).mod := by
  unfold chanStep; split
  · exact modOk_pump h
  · exact h

end Sys2Proof.Laws
end

