-- ==== Sys2Proof/Machine/Flags.lean ====
section
/-! DEFINITION. What the machine shows on pins and indicators, computed from the state (R523, R555, R567). -/
namespace Sys2Proof.Machine

/-- `leaf_int` (R523). -/
def intPin (s : State) : Bool := leafInt s.leaf
/-- `leaf_clk_fail` (R567). -/
def clkFailPin (s : State) : Bool := s.leaf.clkFail
/-- `TIME_UNALIGNED` (R172, R455). -/
def unalignedFlag (s : State) : Bool := timeUnaligned s.leaf
/-- LED `PWR` of sled k: lit while the sled is supplied (R555). -/
def ledPwr (k : Nat) (s : State) : Bool := (sledAt s.box.mod k).powered
/-- LED `FAULT` of sled 0: lit while a standing alarm shows in its `ALARMS` word (R533, R555). -/
def ledFault (s : State) : Bool := chanPowered s.box.mod && decide (alarmsWord s.box.chan ≠ 0#64)
/-- LED `SAFE` of sled k: every leaf beneath its channel has its other domain `LOCKED`, as last polled (R555). -/
def ledSafe (k : Nat) (s : State) : Bool := (sledAt s.box.mod k).safe

end Sys2Proof.Machine
end

