-- ==== Sys2Proof/Tests/Slice0.lean ====
section
/-! SUPPORT. Tests: an ill-formed command for each range check, values from the spec's own examples and tables, and for every statement with
hypotheses a state that meets them. -/
namespace Sys2Proof.Tests
open Sys2Proof.Machine

/-! ### Helpers -/
/-- Does a command answer a next state? -/
def runs (i : Instr) (s : State) : Bool := match exec i s with | .next _ => true | _ => false
/-- Does a command answer this fault, and is it ill-formed? -/
def stops (i : Instr) (f : Fault) (s : State) : Bool := !i.wf && (match exec i s with | .fault g => decide (g = f) | _ => false)
/-- The next state, or the same one. -/
def after (i : Instr) (s : State) : State := match exec i s with | .next t => t | _ => s
/-- The machine with its leaf out of reset, past the first 10 µs, in which an access is held (R568). -/
def live : State := { State.reset with leaf := { inReset := false, time := { edges := 12801 } } }
/-- With a session of the card open. -/
def asking : State := after (.sessionOpen true 1) live
/-- With the leaf's host fenced by its heartbeat. -/
def fenced : State := { live with leaf := leafFence 1 live.leaf }
/-- A leaf held so, and a channel so. -/
def withLeafOf (l : Leaf) : State := { live with leaf := { l with inReset := false, time := { l.time with edges := 12801 } } }

/-- The channel's sled after its first trip. -/
def tripped1 : State := State.reset.withBox (boxOvercurrent 0 State.reset.box)

/-! ### Ill-formed commands -/
theorem test_ill_port_leaf : stops (.ident (.leaf 2) 0#256) .noSuchPort live = true := by decide
theorem test_ill_port_chan : stops (.ident (.chan 272) 0#256) .noSuchPort live = true := by decide
theorem test_ill_lane_light : stops (.lightDetected (.leaf 0) 2 0) .noSuchLane live = true := by decide
theorem test_ill_lane_own : stops (.trainFrame (.chan 0) 2 0#256 false) .noSuchLane live = true := by decide
theorem test_ill_lane_stuck : stops (.laneStuck (.leaf 1) 4) .noSuchLane live = true := by decide
theorem test_ill_context : stops (.timeSnapLoRead 4) .noSuchContext live = true := by decide
theorem test_ill_local_channel : stops (.localGenTimeout 4) .noSuchContext live = true := by decide
theorem test_ill_lbarrive_tap : stops (.lbArrive 64 0 false) .noSuchTap live = true := by decide
theorem test_ill_lbarrive_chan : stops (.lbArrive 0 4 false) .noSuchContext live = true := by decide
theorem test_ill_down_port : stops (.strictReport 272 0#256) .noSuchPort live = true := by decide
theorem test_ill_tap : stops (.tapTimePairSend 64) .noSuchTap live = true := by decide
theorem test_ill_tdc_leaf : stops (.tdcStartEdge .leaf 4 { ones := 0 }) .noSuchTdc live = true := by decide
theorem test_ill_tdc_chan : stops (.tdcStartEdge .chan 64 { ones := 0 }) .noSuchTdc live = true := by decide
theorem test_ill_pin : stops (.captureEdge 7 { ones := 0 } [(8, { ones := 0 })]) .noSuchPin live = true := by decide
theorem test_ill_reference : stops (.refPulse 4 (.sync 0 0)) .noSuchReference live = true := by decide
theorem test_ill_output : stops (.outputEdge 16) .noSuchOutput live = true := by decide
theorem test_ill_slot : stops (.joinGo 32) .noSuchSlot live = true := by decide
theorem test_ill_result_slot : stops (.resultGranule (.leaf 0 32 0 0 0 false { data := 0#256 })) .noSuchSlot live = true := by decide
theorem test_ill_result_domain : stops (.resultGranule (.leaf 2 0 0 0 0 false { data := 0#256 })) .noSuchSlot live = true := by decide
theorem test_ill_suspended_slot : stops (.suspendTimeout (.hub 32)) .noSuchSlot live = true := by decide
theorem test_ill_domain : stops (.autoJoin 0 2) .noSuchPort live = true := by decide
theorem test_ill_leave_slot : stops (.leave (.leaf 32)) .noSuchSlot live = true := by decide
theorem test_ill_closed_domain : stops (.sheafClosed (.leaf 2 0 0 0)) .noSuchPort live = true := by decide
theorem test_ill_closed_slot : stops (.sheafClosed (.leaf 0 32 0 0)) .noSuchPort live = true := by decide
theorem test_ill_closed_level : stops (.sheafClosed (.level 272 0#256)) .noSuchPort live = true := by decide
theorem test_ill_thresher : stops (.taskComplete 64 true) .noSuchEngine live = true := by decide
theorem test_ill_selftest_thresher : stops (.idleSelftest 1 64 true) .noSuchEngine live = true := by decide
theorem test_ill_selftest_digest : stops (.idleSelftest 2 16 true) .noSuchEngine live = true := by decide
theorem test_ill_selftest_kind : stops (.idleSelftest 4 0 true) .noSuchEngine live = true := by decide
theorem test_ill_cluster : stops (.clusterLost 4) .noSuchEngine live = true := by decide
theorem test_ill_handle : stops (.captureDescriptor 16 0#256) .noSuchHandle live = true := by decide
theorem test_ill_region : stops (.regionMigrationDone 3072) .noSuchRegion live = true := by decide
theorem test_ill_stack : stops (.stackLost 16) .noSuchRegion live = true := by decide
theorem test_ill_replay_end : stops (.replayEnd (.leaf 2)) .noSuchPort live = true := by decide
theorem test_ill_pass_region : stops (.gleanerPassStart (some (.region 3073))) .noSuchRegion live = true := by decide
theorem test_ill_pass_slice : stops (.gleanerPassStart (some (.slice 4))) .noSuchRegion live = true := by decide
theorem test_ill_glean_slice : stops (.gleanerGranule (.chan (.slice 4) 0 0 false 0 0)) .noSuchRegion live = true := by decide
theorem test_ill_relay_via : stops (.summary (.relay 2) 1 0) .noSuchPort live = true := by decide
theorem test_ill_relay_asker : stops (.debugLock (.relay 2) 1 0) .noSuchPort live = true := by decide
theorem test_ill_relay : stops (.mgmtRelay (.leaf 2 1 0 false [])) .noSuchPort live = true := by decide
theorem test_ill_feed : stops (.feedUsable 2) .noSuchPart live = true := by decide
theorem test_ill_sled : stops (.sledSoftStartDone 2) .noSuchPart live = true := by decide
theorem test_ill_fan : stops (.fanInserted 4) .noSuchPart live = true := by decide
theorem test_ill_sensor : stops (.sensorUpdate .leaf 4 0 0 0) .noSuchSensor live = true := by decide

/-! ### Values of the spec's examples -/
/-- The example under R27: Wheat barn 17 of yard 3, port 200. -/
theorem test_fpa_wheat : childFpa { clk := { role := 1 }, yard := some 3, barn := some 17 } 200 = 0x068E4000 := by decide
/-- The example under R27: Barley barn 17 of yard 3, port 37. -/
theorem test_fpa_barley : childFpa { clk := { role := 1, domain := 1 }, yard := some 3, barn := some 17 } 37 = 0x86892800 := by decide
/-- The example before R111: the residuals of the nominal table. -/
theorem test_tdc_nominal : residual [] 37 = 7500 ∧ residual [] 201 = 40300 := by decide
/-- The example before R111: 1,280 periods, fine codes 37 and 201, nominal table. -/
theorem test_tdc_interval :
    (tdcStop 0 { edges := 1280 } { ones := 201 } (tdcStart {} { ones := 37 } {})).result.value = 65503200 := by decide
/-- R111: a second start while measuring is ignored and counted. -/
theorem test_tdc_busy : (tdcStart { edges := 9 } { ones := 5 } (tdcStart {} { ones := 37 } {})).busyCtr.count = 1 ∧ (tdcStart { edges := 9 } { ones := 5 } (tdcStart {} { ones := 37 } {})).startFine = 37 := by decide
/-- The example after R149: the delay of fibre A, 588.000 ns, to the unit. -/
theorem test_echo_delay : echoDelay (1186385 * 65536 / 1000) (1850 * 65536 / 1000) (2410 * 65536 / 1000) 6125 = 588 * 65536 := by decide
/-- The table under R367: symbol 5 corrupted by 0x40 gives these syndromes, and is corrected at position 9. -/
theorem test_code_symbol5 :
    (List.range 4).map (rsSyndrome (Nat.xor (rsEncode 0x1234 0x56 false) (0x40 <<< 40)) 0x56) = [0x40, 0x26, 0x8F, 0x27] ∧
    rsOutcome (Nat.xor (rsEncode 0x1234 0x56 false) (0x40 <<< 40)) 0x56 = .corrected 9 0x40 := by decide +kernel
/-- The table under R367: a fold that differs by 0x01 in its low byte. -/
theorem test_code_misdirected :
    (List.range 4).map (rsSyndrome (rsEncode 0x1234 0x34 false) 0x35) = [0x01, 0x25, 0x65, 0xD0] ∧
    rsOutcome (rsEncode 0x1234 0x34 false) 0x35 = .misdirected := by decide +kernel
/-- R369: the mask's syndrome. -/
theorem test_code_poison : (List.range 4).map (rsSyndrome (rsEncode 0x1234 0x56 true) 0x56) = [0, 0, 0, 0x9F] := by decide +kernel
/-- The example after R213: output 11 of channel 5 first rises at or after 3,600,000,000,000 ns at 3,600,000,002,150 ns. -/
theorem test_output_instant : outNext 2150000 9600000 (3600000000000000 - 1) = 3600000002150000 := by decide
/-- The four contributions of the example after R276. -/
def members : List Gran := [0xBF0000004B800000#256, 0xBF8000003F800000#256, 0x3F000000#256, 0x3E800000#256]
/-- The example after R276: the words of the crumb block. -/
theorem test_crumb_block :
    (crumbBlock 5 (members.zipIdx.foldl (fun b x => blockAdd 5 0 x.2 b { data := x.1 }) (emptyBlock 5))).map (fun g => granWords g.data) =
      [[0x0000000500000003, 0x4, 0x0000200000380000, 0x0000000400000004], [0x300000, 0, 0, 0]] := by decide +kernel
/-- The example before R280: the eight contributions in either order glaze to 0x4B80_0001. -/
theorem test_glaze_order :
    (glaze (accB 5) 5 ([0x4B800000, 0x3F800000, 0x3F000000, 0x3E800000, 0x3F000000, 0x3E800000, 0x3E000000, 0x3E000000].foldl (fun a x => laneAdd 5 0 0 a x) {})).bits = 0x4B800001 ∧
    (glaze (accB 5) 5 ([0x3E000000, 0x3E000000, 0x3F800000, 0x3E800000, 0x3F000000, 0x3E800000, 0x3F000000, 0x4B800000].foldl (fun a x => laneAdd 5 0 0 a x) {})).bits = 0x4B800001 := by decide +kernel
/-- The example before R407: in generation 1,204,543 the factor of FP32 shadow lane 0 is 2^-65, in units of 2^-149. -/
theorem test_shadow_lane : shadowFactor 5 (1204543 / 32) 0 = 2 ^ (149 - 65) := by decide +kernel
/-- The example after R413: thresher 37 of a channel. -/
theorem test_unit_path : unitPath 1 1 37 = 0x1010250000000000 := by decide
/-- The example of the register map: `JOIN_DONE` for slot 3 reads 0x00_039F in its low 24 bits. -/
theorem test_int_join : (after .intFifoRead (withLeafOf { ints := { fifo := [{ cause := 31, index := 3, detail := 0, time := 0 }] } })).leaf.rdata = 0x00039F#64 := by decide
/-- The example of the register map: `LAUNCH`, slot 3, branch 1 reads 0x01_03A5. -/
theorem test_int_launch : (after .intFifoRead (withLeafOf { ints := { fifo := [{ cause := 37, index := 3, detail := 1, time := 0 }] } })).leaf.rdata = 0x0103A5#64 := by decide
/-- R521 as the example of the register map numbers them: `JOIN_DONE` 31, `LAUNCH` 37. -/
theorem test_causes : Ev.cause .joinDone = some 31 ∧ Ev.cause .launch = some 37 := by decide
/-- The example of the register map: block 0x0_8600 is slot 3's, and 0x0_8640 its `TAG`. -/
theorem test_slot_tag : (leafSlot (after (.registerWrite true 0x8640 0x00A71001#64 false) live).leaf 3).jTag = 0x00A71001 := by decide
/-- R69: the first event not counted sets `OVF`. -/
theorem test_counter_ovf : ctrInc { count := 2 ^ 32 - 1 } = { count := 2 ^ 32 - 1, ovf := true } := by decide
/-- R445: `HB_TIMEOUT_US` takes 10 to 10,000,000. -/
theorem test_hb_range : (after (.hbTimeoutWrite 9) live).leaf.fence.hbTimeout = 10000 ∧ (after (.hbTimeoutWrite 10) live).leaf.fence.hbTimeout = 10 := by decide
/-- R429, R430: the heartbeat's expiry fences the host with cause `HEARTBEAT`, bit 0. -/
theorem test_hb_expiry : (after .heartbeatExpire (withLeafOf { fence := { hbArmed := true, hbTimeout := 10 } })).leaf.fence.causes = 1 := by decide
/-- R434: with `host_rst_n` still asserted an `UNFENCE` is refused and counted. -/
theorem test_unfence_refused : (after .unfence (after .hostReset live)).leaf.fence.unfenceRefused.count = 1 := by decide
/-- R544: a reversed feed is not restored by a usable voltage. -/
theorem test_feed_reversed :
    (feedAt (after (.feedUsable 0) (after (.feedReversed 0) (after (.feedAbsent 0) State.reset))).box.mod 0).state = .reversed := by decide
/-- R550: after the first trip the controller tries again, after the second the sled stays off. -/
theorem test_second_trip : (sledAt tripped1.box.mod 0).starting = false ∧ (sledAt (after (.sledTripRetry 0) tripped1).box.mod 0).starting = true ∧
    (sledAt (after (.sledTripRetry 0) (after (.sledOvercurrent 0) (after (.sledSoftStartDone 0) (after (.sledTripRetry 0) tripped1)))).box.mod 0).starting = false := by decide
/-- R526: a ninth session is turned away. -/
theorem test_ninth_session :
    ((List.range 9).foldl (fun s a => after (.sessionOpen true a) s) State.reset).box.mod.card.sessions.length = 8 := by decide
/-- R198: of equal priorities the lower index is best; the selected one stays. -/
theorem test_best_reference :
    bestOf { role := 3, refs := [(1, { state := .qualified, priority := 2 }), (2, { state := .qualified, priority := 2 })] } (List.range 4) = some 1 ∧
    bestOf { role := 3, sel := { selected := some 2 }, refs := [(1, { state := .qualified, priority := 2 }), (2, { state := .selected, priority := 2 })] } (List.range 4) = some 2 := by decide
/-- R415: the third error of a site within a day is `PERMANENT`. -/
theorem test_third_error : (histError 512 7 3 (histError 512 7 2 (histError 512 7 1 {}).1).1).2.2 = 3 := by decide +kernel
/-- A step on an empty queue counts an edge of the leaf's time clock. -/
theorem test_idle_edge : (match step live with | .next t => t.leaf.time.edges | _ => 0) = 12802 := by decide
/-- No word of the table spells a command: it gives no bits. -/
theorem test_no_words : decodeTableWord 64 0 = none ∧ (State.reset.withFetchWord 64 0) = State.reset := by decide

/-! ### States that meet the statements' hypotheses -/
/-- For every family: the leaf runs, the channel answers on its links, a session may ask. -/
theorem witness_rows : leafRuns asking.leaf = true ∧ chanPowered asking.box.mod = true ∧ asking.box.chan.start.phase ≠ 4 ∧ asking.canAsk 0 := by
  unfold State.canAsk; decide
theorem witness_rows_link : runs (.laneStuck (.leaf 1) 3) asking = true ∧ runs (.laneStuck (.chan 271) 3) asking = true ∧
    runs (.lightDetected (.chan 0) 1 9) asking = true := by decide
theorem witness_rows_key : runs (.keyNonce (.leaf 1) 0#256) asking = true ∧ runs (.keyNonce (.chan 271) 0#256) asking = true := by decide
theorem witness_rows_time : runs (.timeSnapLoRead 3) asking = true ∧ runs (.strictReport 271 0#256) asking = true := by decide
theorem witness_rows_taps : runs (.tapTimePairSend 63) asking = true ∧ runs (.lbArrive 63 3 true) asking = true := by decide
theorem witness_rows_tdc : runs (.tdcStartEdge .leaf 3 { ones := 256 }) asking = true ∧ runs (.tdcStartEdge .chan 63 { ones := 256, after := 1 }) asking = true ∧
    runs (.captureEdge 7 { ones := 256 } []) asking = true := by decide
theorem witness_rows_refs : runs (.refPulse 3 (.sync 0 0)) asking = true ∧ runs (.outputEdge 15) asking = true := by decide
theorem witness_rows_join : runs (.joinGo 31) asking = true ∧ runs (.autoJoin 31 1) asking = true ∧ runs (.leave (.leaf 31)) asking = true := by decide
theorem witness_rows_gens : runs (.arrive 31 127 true) asking = true ∧ runs (.resultGranule (.leaf 1 31 0 0 0 true { data := 0#256 })) asking = true ∧
    runs (.suspendTimeout (.hub 31)) asking = true := by decide
theorem witness_rows_engine : runs (.taskComplete 63 true) asking = true ∧ runs (.idleSelftest 1 63 true) asking = true ∧
    runs (.idleSelftest 3 15 true) asking = true ∧ runs (.clusterLost 3) asking = true := by decide
theorem witness_rows_granary : runs (.captureDescriptor 15 0#256) asking = true ∧ runs (.regionMigrationDone 3071) asking = true ∧
    runs (.stackLost 15) asking = true ∧ runs (.gleanerPassStart (some (.region 3072))) asking = true := by decide
theorem witness_rows_register : runs (.triggerWrite 7 0 0#64) asking = true ∧ runs (.histSelWrite 511) asking = true := by decide
theorem witness_rows_mgmt : runs (.summary (.relay 1) 1 0) asking = true ∧ runs (.sensorUpdate .chan 3 0 0 0) asking = true := by decide
theorem witness_rows_module : runs (.feedUsable 1) asking = true ∧ runs (.sledSoftStartDone 1) asking = true ∧ runs (.fanInserted 3) asking = true := by decide

theorem witness_step : (match step { asking with pending := [.powerWarn, .heartbeat] } with | .next t => t.pending | _ => []) = [.heartbeat] := by decide
theorem witness_held : leafRuns (after .leafReset live).leaf = false ∧ Instr.heldLeafSees .heartbeat = false ∧ runs .heartbeat (after .leafReset live) = true := by decide
theorem witness_unpowered : chanPowered (after (.sledRemoved 0) live).box.mod = false ∧ Instr.atModule .lidOpen = false ∧
    runs .lidOpen (after (.sledRemoved 0) live) = true := by decide
theorem witness_not_module : Instr.atModule .heartbeat = false ∧ Instr.heartbeat ≠ .imageAccepted .chan ∧ runs .heartbeat live = true := by decide
theorem witness_inv : State.reset.Inv ∧ runs (.sledOvercurrent 0) State.reset = true := by unfold State.Inv; decide

/-- Causes on either side of the two status words; a queue with room for one, and a full one. -/
theorem witness_raise : Ev.cause .userBlockBad = some 63 ∧ Ev.cause .fibreChanged = some 64 ∧
    (List.replicate 63 ({ cause := 0, index := 0, detail := 0, time := 0 } : IntEntry)).length < 64 ∧
    64 ≤ (List.replicate 64 ({ cause := 0, index := 0, detail := 0, time := 0 } : IntEntry)).length := by decide
/-- Both answers of `INT_FIFO`, the entry at the top of its ranges. -/
theorem witness_fifo : live.leaf.ints.fifo = [] ∧
    (withLeafOf { ints := { fifo := [{ cause := 127, index := 255, detail := 255, time := 2 ^ 40 - 1 }] } }).leaf.ints.fifo =
      [{ cause := 127, index := 255, detail := 255, time := 2 ^ 40 - 1 }] := by decide
theorem witness_slot_command : leafRuns live.leaf = true ∧ 31 < 32 ∧ runs (.registerWrite true (0x8038 + 0x200 * 31) 3#64 false) live = true := by decide
/-- The first and last offsets of each clause. -/
theorem witness_reserved : (1 % 8 ≠ 0) ∧ (0xF000 % 8 = 0 ∧ 0xF000 ≤ 0xF000) ∧ (0xFFF8 % 8 = 0 ∧ 0xFFF8 < 0x10000) ∧ (0x30000 % 8 = 0 ∧ 0x30000 ≤ 0x30000) ∧
    (after (.registerWrite false 0xFFF8 0#64 false) live).leaf.resp = respError ∧
    (after (.registerWrite false 0x30000 0#64 false) live).leaf.resp = respError := by decide
/-- A full counter in the global, the time and a port's block. -/
theorem witness_counter : leafCtr { lockedWrite := { count := 2 ^ 32 - 1, ovf := true } } 0x70 = some { count := 2 ^ 32 - 1, ovf := true } ∧
    (leafCtr {} 0x1268).isSome = true ∧ (leafCtr {} 0x2178).isSome = true ∧ (leafCtr {} 0x3210).isSome = true := by decide
/-- Each ground for refusing a trigger write. -/
theorem witness_trigger : 7 < 8 ∧ (leafTrig { triggers := [(7, { mode := 1, periodNs := 100, widthNs := 100 })] } 7).periodNs ≤ 100 ∧
    1000000000 < (leafTrig { triggers := [(7, { mode := 2, time := 1000000001 })] } 7).time ∧
    (leafTrig (after (.triggerWrite 7 0 (BitVec.ofNat 64 (6 + 100 * 2 ^ 32))) live).leaf 7).cfgBad = true ∧
    (leafTrig (after (.triggerWrite 7 0 (BitVec.ofNat 64 (9 * 2 ^ 32))) live).leaf 7).cfgBad = true ∧
    (leafTrig (after (.triggerWrite 7 0x10 99#64) live).leaf 7).cfgBad = true ∧
    (leafTrig (after (.triggerWrite 7 0x10 1000000000001#64) live).leaf 7).cfgBad = true ∧
    (leafTrig (after (.triggerWrite 7 8 1000000001#64) (withLeafOf { triggers := [(7, { mode := 2 })] })).leaf 7).cfgBad = true := by decide
theorem witness_capture : live.leaf.caps.queue = [] ∧
    (withLeafOf { caps := { queue := [{ w0 := 1#64, w1 := 2#64, input := 7 }] } }).leaf.caps.queue = [{ w0 := 1#64, w1 := 2#64, input := 7 }] := by decide

theorem witness_idle : live.pending = [] := by decide
/-- Not fenced with a timeout; fenced; a timeout of 0; armed; an unfence accepted; and the ends of the three ranges of `HB_TIMEOUT_US`. -/
theorem witness_heartbeat : live.leaf.fence.fenced = false ∧ live.leaf.fence.hbTimeout ≠ 0 ∧ fenced.leaf.fence.fenced = true ∧
    (after (.hbTimeoutWrite 0) live).leaf.fence.hbTimeout = 0 ∧ (after .heartbeat live).leaf.fence.hbArmed = true ∧ unfenceOk live.leaf = true ∧
    (after (.hbTimeoutWrite 1) live).leaf.fence.hbBad.count = 1 ∧ (after (.hbTimeoutWrite 9) live).leaf.fence.hbBad.count = 1 ∧
    (after (.hbTimeoutWrite 10000001) live).leaf.fence.hbBad.count = 1 ∧ (after (.hbTimeoutWrite 10000000) live).leaf.fence.hbTimeout = 10000000 := by decide
/-- An unfence that meets every condition, and one that fails each. -/
theorem witness_unfence : unfenceOk live.leaf = true ∧ fenced.leaf.fence.draining = true ∧ fenced.leaf.fence.causeEdge = some fenced.leaf.time.edges ∧
    (after .hostReset live).leaf.fence.pinReset = true ∧ (after .fencePin live).leaf.fence.pinFence = true ∧
    (leafFence 4 live.leaf).fence.causes.testBit 3 = true := by decide
theorem witness_fence_causes : live.leaf.fence.fenced = false ∧ fenced.leaf.fence.fenced = true ∧ leafRuns fenced.leaf = true ∧
    (leafFence 5 live.leaf).fence.first = 5 := by decide
/-- A TDC that is idle; the longest interval; both ends of the fine code; an edge held just long enough, and a test edge. -/
theorem witness_tdc : ({} : Tdc).outOfService = false ∧ ({} : Tdc).stampMode = false ∧ ({} : Tdc).measuring = false ∧ inDead none 0 = false ∧
    (2 ^ 32 - 1) - 0 < 2 ^ 32 ∧ residual [] 255 ≤ (2 ^ 32 - 1) * 51200 + residual [] 0 ∧
    ({ ones := 256 } : EdgeIn).rising = true ∧ 1000 ≤ ({ ones := 256 } : EdgeIn).heldPs ∧ ({ ones := 256 } : EdgeIn).test = false ∧
    (tdcStart {} { ones := 256, test := true } {}).measuring = false ∧ (tdcStart {} { ones := 256 } {}).startFine = 255 := by decide
/-- Three launches of a tap: none due before the first, two of them due together, the higher slot's by the earlier time. -/
def held3 : List TapFire := [{ at_ := 5, slot := 2, branch := 0, commit := false, skipped := false },
  { at_ := 9, slot := 2, branch := 1, commit := false, skipped := false }, { at_ := 1, slot := 31, branch := 0, commit := false, skipped := false }]
/-- A tap that holds them, at an edge before any is due and at one with two due, its clock running and after a stop. -/
theorem witness_launches : held3.Pairwise (fun a b => a.slot < b.slot ∨ (a.slot = b.slot ∧ a.at_ ≤ b.at_)) ∧
    (∀ f ∈ held3, 0 < f.at_ * 65536) ∧ (tapEdge 0 { fires := held3 }).fires = held3 ∧
    ((tapEdge (6 * 65536) { fires := held3 }).fires.map (fun f => (f.slot, f.at_)) = [(2, 9), (31, 1)]) ∧
    ((tapEdge (6 * 65536) { fires := held3, clkStopped := true }).fires.map (fun f => f.past) = [false, true]) := by decide
theorem witness_code : 2 ^ 256 - 1 < 2 ^ 256 ∧ 2 ^ 40 - 1 < 2 ^ 40 ∧ rsOutcome (Nat.xor (rsEncode 0 0 true) (255 <<< rsPosBit 35)) 0 = .poisonedCorrected 35 255 ∧
    rsOutcome (Nat.xor (rsEncode 0 0 false) (1 <<< rsPosBit 0)) 0 = .corrected 0 1 ∧
    rsOutcome (rsEncode 0 0 true) (Nat.xor 0 (255 <<< 32)) = .misdirected := by decide +kernel
theorem witness_frame : frameOf (scramble (frameLine { ftype := 15, vc := 3, seqPar := 3, gran := 2 ^ 288 - 1, creditValid := true, creditVc := 3, creditCount := 15, beatNext := true }).toNat) =
    { ftype := 15, vc := 3, seqPar := 3, gran := 2 ^ 288 - 1, creditValid := true, creditVc := 3, creditCount := 15, beatNext := true } := by decide +kernel
/-- A forward step of 2 ns at 5 ns, before its instant, at it, and with a UTC step waiting beside it. -/
def step2 : Notice := { at_ := 5, delta := 131072, target := .podTime, count := 1#16 }
theorem witness_step_notice : ({ pendPod := some step2 } : TimeCore).slewing = false ∧ step2.target = .podTime ∧ 0 ≤ step2.delta ∧
    ({ acc := 0 } : TimeCore).acc < accOfNs 5 ∧ accOfNs 5 + step2.delta.toNat * 2 ^ 24 ≤ accMax ∧
    (∀ m ∈ some { step2 with target := .utc }, m.target = .utc) ∧
    (stepInstant { acc := accOfNs 5, pendPod := some step2 }).1.acc = accOfNs 7 := by decide
/-- A mill with one reference qualified. -/
theorem witness_best : bestOf { role := 3, refs := [(2, { state := .qualified, priority := 1 })] } (List.range 4) = some 2 ∧
    eligible { role := 3, refs := [(2, { state := .qualified, priority := 1 })] } 2 = true ∧ bestOf {} (List.range 4) = none := by decide
/-- A field out of range and one in range, of a configuration that is sound; time not valid; and an output that drives under each squelch policy. -/
def out0 : OutCfg := { widthNs := 1000 }
theorem witness_outputs : outCfgOk 0 out0 = true ∧ outCfgOk 0 { out0 with widthNs := 999 } = false ∧ outCfgOk 0 { out0 with enable := true } = true ∧
    (outWrite 0 { out0 with widthNs := 999 } { outs := [(0, { cfg := out0 })] }).outs = [(0, { cfg := out0, cfgBad := { count := 1 } })] ∧
    ({} : ChanClock).time.valid = false ∧
    outDrives { role := 3, mill := { settled := true }, sel := { selected := some 0 }, time := { valid := true } } { now := { enable := true, squelch := 2 } } = true ∧
    outDrives { role := 3, mill := { settled := true }, sel := { selected := some 0 }, time := { valid := true } } { now := { enable := true, squelch := 1 } } = true := by decide
theorem witness_addresses : ({ clk := { role := 1, domain := 1 }, yard := some 15, barn := some 63 } : Chan).yard = some 15 ∧ 15 < 16 ∧ 63 < 64 ∧ 255 < 256 ∧
    chanFpa { clk := { role := 2 }, yard := some 15, barn := some 63 } = 0x5E000000 ∧ chanFpa { clk := { role := 3, domain := 1 }, yard := some 0, barn := some 0 } = 0xE0000000 := by decide

/-- A sheaf of two ranks, and a join for it. -/
def sheaf2 : Sheaf := { tag := 1, slot := 0, n := 2, digest := 0#256, program := [] }
def join0 (rank serial : Nat) : JoinMsg :=
  { slot := 0, hasProgram := true, resumeValid := false, auto := false, tag := 1, rank := rank, n := 2, resumeGen := 0, serial := serial, digest := 0#256,
    joinTime := 0, otherFpa := 0, lastFire := 0, program := [], fpa := 0, port := 0 }
/-- A rank beyond the last; a vacant rank; one bound by the same and by another serial; one that was lost; a serial bound elsewhere. -/
theorem witness_rank_table : sheaf2.state = .forming ∧ joinDiff sheaf2 (join0 2 5) = 0 ∧ (bindJoin sheaf2 (join0 2 5)).out = 0x10 ∧
    (bindJoin sheaf2 (join0 1 5)).fresh = true ∧
    (bindJoin { sheaf2 with members := [{ rank := 1, serial := 5, fpa := 0, otherFpa := 0 }] } (join0 1 5)).out = 1 ∧
    (bindJoin { sheaf2 with members := [{ rank := 1, serial := 5, fpa := 0, otherFpa := 0 }] } (join0 1 6)).out = 0x11 ∧
    (bindJoin { sheaf2 with members := [{ rank := 1, serial := 5, fpa := 0, otherFpa := 0 }] } (join0 0 5)).out = 0x12 ∧
    (bindJoin { sheaf2 with members := [{ rank := 1, serial := 5, fpa := 0, otherFpa := 0, state := .lost }], state := .suspended } (join0 1 6)).fresh = true := by decide
theorem witness_reduction : 12 ≤ 12 ∧ 8 ≤ 8 ∧ [((0 : Nat), (1 : Nat)), (1, 2)].Perm [(1, 2), (0, 1)] ∧ (1 : Nat) < 2 ^ fmtBits 0 := by decide
/-- A log of one record, which a limit of 0 leaves out. -/
theorem witness_log : (takeRecs 0 [{ seq := 0, typ := 1, tag := 0, rc := 0, at_ := 0, grans := [0#256] }]).2 = true ∧
    (takeRecs 32 [{ seq := 0, typ := 1, tag := 0, rc := 0, at_ := 0, grans := [0#256] }]).2 = false := by decide
/-- A site that an empty history does not hold, and the three gaps. -/
theorem witness_history : histFind 1 ({} : History).entries = none ∧ ({} : History).vol = [] ∧ histFree 512 ({} : History).entries = some 0 ∧
    (0 ≤ 0 + 86400 * 1000000000 ∧ 86400 * 1000000000 ≤ 0 + 86400 * 1000000000 ∧ ¬ 86400 * 1000000000 + 1 ≤ 0 + 86400 * 1000000000) := by decide +kernel
/-- A fresh command at a channel that meets no busy answer; one that is held; one that conflicts. -/
theorem witness_commands : heldOf 7 { cmd := 2, force := false, body := [] } [] = .fresh ∧ generalStatus {} false live.box.chan ≠ 4 ∧
    heldOf 7 { cmd := 2, force := false, body := [1#8] } [{ id := 7, args := { cmd := 2, force := false, body := [] } }] = .conflict := by decide
/-- Arguments of the first and last kinds of injection that a channel starts. -/
theorem witness_inject : injArgsOk 4 600000 32 = true ∧ injArgsOk 7 1 0 = true ∧ injTargetOk 7 3 0 live.box.chan = true ∧ live.box.chan.restart = none ∧
    live.box.chan.start.phase ≠ 4 ∧ live.box.chan.sec.locked = false ∧ live.box.chan.sec.debugOn = false := by decide
theorem witness_sessions : live.box.mod.card.present = true ∧ live.box.mod.card.sessions.length < 8 ∧
    8 ≤ ((List.range 8).foldl (fun s a => after (.sessionOpen true a) s) live).box.mod.card.sessions.length ∧ (sessionAt asking.box.mod.card 0).isSome = true ∧
    sessionFull 0 { asking.box.mod.card with waits := List.replicate 16 { place := 0, target := 0, id := 1, repeat_ := false } } = true := by decide
/-- A feed in each state. -/
theorem witness_feeds : (feedAt live.box.mod 1).state = .usable ∧ (feedAt (after (.feedUndervolt 1) live).box.mod 1).state = .undervolt ∧
    (feedAt (after (.feedOvervolt 1) live).box.mod 1).state = .overvolt ∧ (feedAt (after (.feedAbsent 1) live).box.mod 1).state = .absent ∧
    (feedAt (after (.feedReversed 1) (after (.feedAbsent 1) live)).box.mod 1).state = .reversed := by decide
theorem witness_sled : (sledAt live.box.mod 1).powered = true ∧ (sledAt live.box.mod 1).present = true ∧ (sledAt live.box.mod 1).trips = 0 ∧
    (sledAt live.box.mod 1).thermalOff = false ∧ live.box.mod.busOn = true ∧
    chanPowered tripped1.box.mod = false ∧ boxClock (after (.sledTripRetry 0) tripped1).box = 1000000000 ∧
    (sledAt (after (.sledRemoved 0) tripped1).box.mod 0).trips = 0 := by decide
/-- The flash window busy, and idle at the pages where its areas meet. -/
theorem witness_flash : (after .flashRead live).leaf.fwin.busy = true ∧ live.leaf.fwin.busy = false ∧ 0xFF * 4096 < 0x100000 ∧ 0x100 * 4096 = 0x100000 ∧
    0x500 * 4096 = 0x500000 ∧ 0x900 * 4096 = 0x900000 ∧ 0xB00 * 4096 = 0xB00000 ∧ live.leaf.sec.locked = false ∧ live.leaf.start.phase ≠ 4 := by decide

end Sys2Proof.Tests
end

/-! ### Commands that fault

A command runs or faults by its range checks alone: `exec_shape` gives a well-formed command one of the lifts, each of which answers a next
state, and `exec_ill` gives an ill-formed one its fault. -/
namespace Sys2Proof.Proofs
open Sys2Proof.Machine Sys2Proof.Laws

theorem shape_next {i : Instr} {s : State} {o : Out} (h : Shape i s o) : ∃ t, o = .next t := by
  cases h with
  | leaf f => exact ⟨_, leafDo_eq f s⟩
  | always f _ => exact ⟨_, rfl⟩
  | chan f => exact ⟨_, rfl⟩
  | ask p cmd id force run => exact ⟨_, rfl⟩
  | image _ => exact ⟨_, boxDo_eq _ s⟩
  | restart _ => exact ⟨_, boxDo_eq _ s⟩
  | box f _ => exact ⟨_, boxDo_eq f s⟩

theorem exec_next_of_wf {i : Instr} {s : State} (hw : i.wf = true) : ∃ t, exec i s = .next t :=
  shape_next (exec_shape i s hw)

/-- Settles O4: by whether the command is well-formed. -/
theorem faultsOnlyWhenIllFormed : Obligations.FaultsOnlyWhenIllFormed := by
  unfold Obligations.FaultsOnlyWhenIllFormed
  intro i s
  cases hw : i.wf with
  | true =>
    obtain ⟨t, ht⟩ := exec_next_of_wf (s := s) hw
    simp [ht]
  | false =>
    obtain ⟨f, hf⟩ := exec_ill i s hw
    simp [hf]

end Sys2Proof.Proofs

/-! ### The rank table (R35, R36)

What `bindJoin` answers a join for a sheaf that is forming or suspended, one equation for each way a join can go. -/
namespace Sys2Proof.Proofs
open Sys2Proof.Machine

theorem rank_of_memberOf {s : Sheaf} {r : Nat} {m : Member} (h : memberOf s r = some m) : m.rank = r := by
  simpa using List.find?_some h

/-- What the rank table holds for a rank after a change of it that leaves the rank itself. -/
theorem memberOf_updMember {f : Member → Member} {r : Nat} (s : Sheaf) (hf : ∀ m, m.rank = r → (f m).rank = r) :
    memberOf (updMember r f s) r = (memberOf s r).map f := by
  have hg : (fun m : Member => decide (m.rank = r)) ∘ (fun m => if m.rank = r then f m else m) = fun m => decide (m.rank = r) := by
    funext m
    by_cases hm : m.rank = r <;> simp [hm, hf]
  unfold memberOf updMember
  rw [List.find?_map, hg]
  exact Option.map_congr fun m hm => if_pos (rank_of_memberOf hm)

/-- A change that leaves every member as it is leaves the sheaf. -/
theorem updMember_id (r : Nat) (s : Sheaf) : updMember r (fun m => m) s = s := by simp [updMember]

/-- The member that a join makes stands at the join's own rank, where one of that rank stood. -/
theorem joinMember_rank (s : Sheaf) (j : JoinMsg) {m : Member} (hm : m.rank = j.rank) : (joinMember s j (some m)).rank = j.rank := by
  by_cases h : m.serial = j.serial <;> simp [joinMember, h, hm]
theorem joinMember_serial (s : Sheaf) (j : JoinMsg) (m : Member) : (joinMember s j (some m)).serial = j.serial := by
  by_cases h : m.serial = j.serial <;> simp [joinMember, h]

/-- Another rank holds the join's serial. -/
def serialElsewhere (s : Sheaf) (j : JoinMsg) : Bool := s.members.any (fun m => decide (m.serial = j.serial) && decide (m.rank ≠ j.rank))

/-- A first join (one that names no generation to resume) for a sheaf that is forming or suspended and agrees with it on program, count and slot. -/
structure FirstJoin (s : Sheaf) (j : JoinMsg) : Prop where
  state  : s.state = .forming ∨ s.state = .suspended
  agrees : joinDiff s j = 0
  first  : j.resumeValid = false

namespace FirstJoin
section
variable {s : Sheaf} {j : JoinMsg} {m : Member} (h : FirstJoin s j)
include h

theorem not_closing : ¬(s.state = .closing ∨ s.state = .closed) := by
  obtain e | e := h.state <;> simp [e]
theorem not_running : ¬(s.state = .running ∨ s.state = .ready) := by
  obtain e | e := h.state <;> simp [e]

theorem bindJoin_beyond (hr : s.n ≤ j.rank) : bindJoin s j = { sheaf := s, out := joRangeBad } := by
  simp [bindJoin, h.not_closing, h.agrees, hr]

theorem bindJoin_vacant_elsewhere (hr : j.rank < s.n) (hm : memberOf s j.rank = none) (ho : serialElsewhere s j = true) :
    bindJoin s j = { sheaf := s, out := joAlready } := by
  unfold serialElsewhere at ho
  simp only [bindJoin, h.not_closing, h.agrees, h.first, hm, ho, Nat.not_le.mpr hr]
  simp

theorem bindJoin_vacant (hr : j.rank < s.n) (hm : memberOf s j.rank = none) (ho : serialElsewhere s j = false) :
    bindJoin s j = { sheaf := { s with members := s.members ++ [joinMember s j none] }, out := 0, fresh := true } := by
  unfold serialElsewhere at ho
  simp only [bindJoin, h.not_closing, h.not_running, h.agrees, h.first, hm, ho, Nat.not_le.mpr hr]
  simp

/-- A bound rank answers its own serial with a repeat, and nothing changes, since the join names no generation to resume. -/
theorem bindJoin_own (hr : j.rank < s.n) (hm : memberOf s j.rank = some m) (hb : ¬(m.state = .fenced ∨ m.state = .lost))
    (hs : m.serial = j.serial) : bindJoin s j = { sheaf := s, out := 1 } := by
  simp [bindJoin, h.not_closing, h.agrees, h.first, hm, hb, hs, Nat.not_le.mpr hr, updMember_id]

theorem bindJoin_taken (hr : j.rank < s.n) (hm : memberOf s j.rank = some m) (hb : ¬(m.state = .fenced ∨ m.state = .lost))
    (hs : m.serial ≠ j.serial) : bindJoin s j = { sheaf := s, out := joTaken } := by
  simp [bindJoin, h.not_closing, h.agrees, h.first, hm, hb, hs, Nat.not_le.mpr hr]

theorem bindJoin_freed (hr : j.rank < s.n) (hm : memberOf s j.rank = some m) (hf : m.state = .fenced ∨ m.state = .lost)
    (ho : serialElsewhere s j = false) :
    bindJoin s j = { sheaf := updMember j.rank (fun _ => joinMember s j (some m)) s, out := 0, fresh := true, old := some m } := by
  unfold serialElsewhere at ho
  simp only [bindJoin, h.not_closing, h.not_running, h.agrees, h.first, hm, hf, ho, Nat.not_le.mpr hr]
  simp [updMember]

/-- The rank of a fenced or lost member is bound again to what the join makes of it. -/
theorem memberOf_bindJoin_freed (hr : j.rank < s.n) (hm : memberOf s j.rank = some m) (hf : m.state = .fenced ∨ m.state = .lost)
    (ho : serialElsewhere s j = false) : memberOf (bindJoin s j).sheaf j.rank = some (joinMember s j (some m)) := by
  rw [h.bindJoin_freed hr hm hf ho, memberOf_updMember s (fun _ _ => joinMember_rank s j (rank_of_memberOf hm)), hm]
  rfl

end
end FirstJoin

/-- Settles O48: each clause is the equation of `bindJoin` for that way a join goes. -/
theorem rankTableBindsOnce : Obligations.RankTableBindsOnce := by
  unfold Obligations.RankTableBindsOnce
  intro s j hs hd hv
  have h : FirstJoin s j := ⟨hs, hd, hv⟩
  refine ⟨h.bindJoin_beyond, fun hr hm => ⟨h.bindJoin_vacant_elsewhere hr hm, fun ho => ?vacant⟩, fun m hr hm hnf hnl => ?bound,
    fun m hr hm hf ho => ?freed⟩
  case vacant =>
    refine ⟨joinMember s j none, rfl, rfl, rfl, rfl, ?_, h.bindJoin_vacant hr hm ho⟩
    simp [joinMember]
  case bound =>
    have hb : ¬(m.state = .fenced ∨ m.state = .lost) := not_or.mpr ⟨hnf, hnl⟩
    refine ⟨fun hs => ?_, h.bindJoin_taken hr hm hb⟩
    simp [h.bindJoin_own hr hm hb hs]
  case freed =>
    have hb := h.bindJoin_freed hr hm hf ho
    refine ⟨by rw [hb], by rw [hb], _, h.memberOf_bindJoin_freed hr hm hf ho, joinMember_serial s j m, rfl, rfl, ?_⟩
    simp [joinMember]

end Sys2Proof.Proofs

/-! ### The machine at reset, and an idle step (R54, assumption 10) -/
namespace Sys2Proof.Proofs
open Sys2Proof.Machine

theorem step_of_idle {s : State} (h : s.pending = []) : step s = .next (tick s) := by
  simp [step, h]

/-- Settles O3: on an empty queue `step` is `tick`. -/
theorem idleStepIsOneEdge : Obligations.IdleStepIsOneEdge := by
  unfold Obligations.IdleStepIsOneEdge
  intro s h
  exact step_of_idle h

/-- Settles O60: every field named stands at its default. -/
theorem resetState : Obligations.ResetState := by
  unfold Obligations.ResetState
  refine ⟨rfl, rfl, rfl, rfl, rfl, rfl, rfl, rfl, rfl, rfl, rfl, rfl, rfl, rfl, rfl, fun _ => ⟨rfl, rfl⟩, rfl, rfl, rfl, rfl, rfl, rfl, fun _ => rfl, fun _ => rfl⟩

end Sys2Proof.Proofs

/-! ### A forward step of pod time (R57, R64, R591) -/
namespace Sys2Proof.Proofs
open Sys2Proof.Machine Sys2Proof.Laws

section
variable {t : TimeCore} {n : Notice}

theorem stepInstant_before (hn : t.pendPod = some n) (h : t.acc < accOfNs n.at_) : stepInstant t = (t, []) := by
  simp [stepInstant, hn, noticeDue, reached, h]

theorem stepInstant_due (hn : t.pendPod = some n) (hs : t.slewing = false) (h : accOfNs n.at_ ≤ t.acc) :
    stepInstant t = applyNotice { t with pendPod := none } n := by
  simp [stepInstant, hn, noticeDue, reached, h, hs]

/-- A time core whose held pod-time change is applied, with pod time at `acc`. -/
def jumpedTo (acc : Nat) (n : Notice) (t : TimeCore) : TimeCore := { markApplied { t with pendPod := none } n with acc := acc }

@[simp] theorem jumpedTo_acc (a : Nat) (n : Notice) (t : TimeCore) : (jumpedTo a n t).acc = a := rfl
@[simp] theorem jumpedTo_pendPod (a : Nat) (n : Notice) (t : TimeCore) : (jumpedTo a n t).pendPod = none := rfl
@[simp] theorem jumpedTo_applied (a : Nat) (n : Notice) (t : TimeCore) : (jumpedTo a n t).applied = (n :: t.applied).take 4 := rfl
@[simp] theorem jumpedTo_utcOffset (a : Nat) (n : Notice) (t : TimeCore) : (jumpedTo a n t).utcOffset = t.utcOffset := rfl
@[simp] theorem jumpedTo_stepCount (a : Nat) (n : Notice) (t : TimeCore) :
    (jumpedTo a n t).stepCount = if serHigher n.count t.stepCount then n.count else t.stepCount := rfl

/-- A forward step that is due: the jump by Δ, the record and the event. -/
theorem stepInstant_forward (hn : t.pendPod = some n) (hs : t.slewing = false) (hp : n.target = .podTime) (hd : 0 ≤ n.delta)
    (h : accOfNs n.at_ ≤ t.acc) :
    stepInstant t =
      (jumpedTo (satN accMax (t.acc + n.delta.toNat * 2 ^ 24)) n t, [noticeEv .stepApplied n]) := by
  rw [stepInstant_due hn hs h, applyNotice_forward hp hd, jumpedTo]

theorem satN_of_le {m x : Nat} (h : x ≤ m) : satN m x = x := if_neg (Nat.not_lt.mpr h)

theorem applyNotice_pendUtc (t : TimeCore) (n : Notice) : (applyNotice t n).1.pendUtc = t.pendUtc := by
  cases ht : n.target with
  | utc => rw [applyNotice_utc ht]; rfl
  | podTime =>
    by_cases hd : 0 ≤ n.delta
    · simp [applyNotice_forward ht hd, markApplied]
    · simp [applyNotice_back ht hd, markApplied]

theorem stepInstant_pendUtc (t : TimeCore) : (stepInstant t).1.pendUtc = t.pendUtc := by
  unfold stepInstant
  split
  · rfl
  · split
    · exact applyNotice_pendUtc _ _
    · rfl

/-- Changes of the UTC offset leave pod time. -/
theorem utcNotices_acc (ms : List Notice) (h : ∀ m ∈ ms, m.target = .utc) : ∀ x : TimeCore × List EvRec,
    (ms.foldl (fun a m => andThen a (fun y => applyNotice y m)) x).1.acc = x.1.acc := by
  induction ms with
  | nil => exact fun x => rfl
  | cons m ms ih =>
    intro x
    have hm : (andThen x (fun y => applyNotice y m)).1.acc = x.1.acc := by
      simp only [andThen, applyNotice_utc (h m List.mem_cons_self)]
      rfl
    exact (ih (fun k hk => h k (List.mem_cons_of_mem _ hk)) _).trans hm

theorem utcInstant_acc (h : ∀ m ∈ t.pendUtc, m.target = .utc) : (utcInstant t).1.acc = t.acc :=
  utcNotices_acc _ (fun m hm => h m (List.mem_of_mem_filter hm)) _

theorem timeSaturate_acc (t : TimeCore) : (timeSaturate t).1.acc = t.acc := by
  unfold timeSaturate
  split <;> rfl

theorem slewEnd_steady (h : t.slewing = false) : slewEnd t = (t, []) := by
  have hs : t.slews = [] := by simpa [TimeCore.slewing] using h
  simp [slewEnd, hs]

theorem timeEdge_slewing (h : t.slewing = false) : (timeEdge t).slewing = false := by
  have hs : t.slews = [] := by simpa [TimeCore.slewing] using h
  simp [timeEdge, TimeCore.slewing, hs]

/-- With no slew in progress, what an edge makes of pod time is the rate word's part and the held pod-time change's. -/
theorem timeTick_acc (hs : t.slewing = false) (hu : ∀ m ∈ t.pendUtc, m.target = .utc) :
    (timeTick t).1.acc = (stepInstant (timeEdge t)).1.acc := by
  have h1 : andThen (timeEdge t, []) slewEnd = (timeEdge t, []) := by simp [andThen, slewEnd_steady (timeEdge_slewing hs)]
  have h2 : ∀ m ∈ (stepInstant (timeEdge t)).1.pendUtc, m.target = .utc := by rw [stepInstant_pendUtc]; exact hu
  rw [timeTick, h1]
  exact (timeSaturate_acc _).trans (utcInstant_acc h2)

/-- No edge leaves pod time inside the interval that a held forward step skips. -/
theorem timeTick_skips (hn : t.pendPod = some n) (hs : t.slewing = false) (hp : n.target = .podTime) (hd : 0 ≤ n.delta)
    (hu : ∀ m ∈ t.pendUtc, m.target = .utc) :
    (timeTick t).1.acc < accOfNs n.at_ ∨ (timeTick t).1.acc = accMax ∨ accOfNs n.at_ + n.delta.toNat * 2 ^ 24 ≤ (timeTick t).1.acc := by
  have hn' : (timeEdge t).pendPod = some n := hn
  rw [timeTick_acc hs hu]
  by_cases h : (timeEdge t).acc < accOfNs n.at_
  · left
    rwa [stepInstant_before hn' h]
  · right
    rw [stepInstant_forward hn' (timeEdge_slewing hs) hp hd (Nat.not_lt.mp h)]
    simp only [jumpedTo_acc, satN]
    split
    · exact .inl rfl
    · exact .inr (by omega)

end

/-- Settles O44: before T_s the notice waits, at T_s the jump is made, and no edge ends between. -/
theorem forwardStepSkipsTheInterval : Obligations.ForwardStepSkipsTheInterval := by
  unfold Obligations.ForwardStepSkipsTheInterval
  intro t n hn hs hp hd
  refine ⟨stepInstant_before hn, fun h hmax => ?_, fun _ hu => timeTick_skips hn hs hp hd hu⟩
  rw [stepInstant_forward hn hs hp hd h, satN_of_le hmax]
  exact ⟨jumpedTo_acc _ n t, jumpedTo_pendPod _ n t, jumpedTo_applied _ n t, jumpedTo_utcOffset _ n t, jumpedTo_stepCount _ n t, rfl⟩

end Sys2Proof.Proofs

/-! ### Reading an event counter (R70, R520)

The counters of a leaf stand in four places: at the TDCs, at the two ports, and one by one elsewhere. A read answers one of them and clears it
alone. -/
namespace Sys2Proof.Proofs
open Sys2Proof.Machine Sys2Proof.Laws

theorem ctrWord_toNat {c : Ctr} (h : c.count < 2 ^ 32) : (ctrWord c).toNat = c.count + 2 ^ 32 * c.ovf.toNat := by
  have hv : b2n c.ovf = c.ovf.toNat := by cases c.ovf <;> rfl
  have hb : c.ovf.toNat < 2 := Bool.toNat_lt c.ovf
  have hl : layNat [⟨0, 32, c.count⟩, ⟨32, 1, c.ovf.toNat⟩] = c.count + 2 ^ 32 * c.ovf.toNat := by
    rw [layNat_add _ _ (by simp), layNat_add _ _ (by simp)]
    simp only [layNat]
    omega
  rw [ctrWord, layW, hv, hl, BitVec.toNat_ofNat]
  omega

/-! #### Counters listed by offset -/
/-- What the clearing of the counter at `a` leaves of one that stands at `b`. -/
def clearedAt (a b : Nat) (c : Ctr) : Ctr := if b = a then {} else c
theorem clearedAt_same (a : Nat) (c : Ctr) : clearedAt a a c = {} := if_pos rfl
theorem clearedAt_other {a b : Nat} (h : b ≠ a) : clearedAt a b = id := funext fun _ => if_neg h
theorem map_clearedAt_other {a b : Nat} (h : b ≠ a) (o : Option Ctr) : o.map (clearedAt a b) = o := by
  rw [clearedAt_other h, Option.map_id, id]
theorem clearedAt_congr {a b i j : Nat} (h : j = i ↔ b = a) : clearedAt i j = clearedAt a b := by
  funext c
  simp [clearedAt, h]
/-- The same of an entry of a list. -/
def clearEntry (a : Nat) (x : Nat × Ctr) : Nat × Ctr := (x.1, clearedAt a x.1 x.2)

theorem lookup_clearEntry (a b : Nat) (t : List (Nat × Ctr)) : (t.map (clearEntry a)).lookup b = (t.lookup b).map (clearedAt a b) := by
  induction t with
  | nil => rfl
  | cons x t ih =>
    obtain ⟨k, c⟩ := x
    by_cases h : b = k
    · simp [clearEntry, h]
    · simp [clearEntry, List.lookup, beq_false_of_ne h, ih]

theorem map_clearEntry_absent {a : Nat} {t : List (Nat × Ctr)} (h : ∀ x ∈ t, a ≠ x.1) : t.map (clearEntry a) = t := by
  have hx : ∀ x ∈ t, clearEntry a x = id x := fun x hx => by simp [clearEntry, clearedAt_other (h x hx).symm]
  rw [List.map_congr_left hx, List.map_id]

/-- The counters of a TDC, by offset in its block. -/
def tdcCtrs (t : Tdc) : List (Nat × Ctr) := [(8, t.busyCtr), (16, t.strayCtr), (24, t.ovfCtr)]
/-- The counters that stand one by one. -/
def soleCtrs (l : Leaf) : List (Nat × Ctr) :=
  [(0x0070, l.lockedWrite), (0x0078, l.slotCmdBad), (0x00B0, l.ints.lost), (0x1118, l.domW.coastCtr), (0x1158, l.domB.coastCtr),
   (0x1188, l.tsel.switches), (0x2220, l.code.corrected), (0x2228, l.code.uncorrectable), (0x2230, l.code.misdirected),
   (0x2238, l.code.poisonSeen), (0x2240, l.code.parityErr), (0x2248, l.code.scrubRace), (0x2328, l.fence.count), (0x2330, l.fence.refusals),
   (0x2338, l.fence.unfenceRefused), (0x2340, l.fence.hbBad), (0x2418, l.mmCount), (0x3158, l.caps.overrun), (0x3160, l.trigLate),
   (0x3168, l.trigDropped), (0x3208, l.capp.throttledCtr), (0x3210, l.capp.refusedCtr)]

/-- The offsets of the TDCs' block, and of each port's counters. -/
abbrev InTdcs (a : Nat) : Prop := 0x1200 ≤ a ∧ a < 0x1280
abbrev InPort0 (a : Nat) : Prop := 0x2040 ≤ a ∧ a < 0x2080
abbrev InPort1 (a : Nat) : Prop := 0x2140 ≤ a ∧ a < 0x2180

/-- Where a leaf's counters stand. -/
theorem leafCtr_eq (l : Leaf) (a : Nat) :
    leafCtr l a =
      if InTdcs a then (tdcCtrs (leafTdc l ((a - 0x1200) / 32))).lookup (a % 32)
      else if InPort0 a then some (portCtrAt l.port0 ((a - 0x2040) / 8))
      else if InPort1 a then some (portCtrAt l.port1 ((a - 0x2140) / 8))
      else (soleCtrs l).lookup a := by
  unfold leafCtr
  split_ifs
  · split
    case h_4 => exact (List.lookup_eq_none_iff.mpr (by simp_all [tdcCtrs])).symm
    all_goals simp_all [tdcCtrs, List.lookup]
  · rfl
  · rfl
  · split
    case h_23 => exact (List.lookup_eq_none_iff.mpr (by simp_all [soleCtrs])).symm
    all_goals rfl

/-! #### What a clear leaves -/
theorem portCounters_clear (p : Port) {i : Nat} (h : i < 8) : portCounters (portCtrClear p i) = (portCounters p).set i {} := by
  interval_cases i <;> rfl

theorem portCtrAt_clear (p : Port) {i j : Nat} (hi : i < 8) : portCtrAt (portCtrClear p i) j = clearedAt i j (portCtrAt p j) := by
  have hl : i < (portCounters p).length := hi
  by_cases h : j = i
  · subst h
    simp [portCtrAt, portCounters_clear p hi, hl, clearedAt]
  · simp [portCtrAt, portCounters_clear p hi, clearedAt, h, Ne.symm h]

section
variable {l : Leaf} {a : Nat}

theorem leafCtrClear_tdc (h : InTdcs a) :
    (∀ n, tdcCtrs (leafTdc (leafCtrClear l a) n) =
      if n = (a - 0x1200) / 32 then (tdcCtrs (leafTdc l n)).map (clearEntry (a % 32)) else tdcCtrs (leafTdc l n)) ∧
    (leafCtrClear l a).port0 = l.port0 ∧ (leafCtrClear l a).port1 = l.port1 ∧ soleCtrs (leafCtrClear l a) = soleCtrs l := by
  unfold leafCtrClear
  rw [if_pos h]
  dsimp only
  refine ⟨fun n => ?_, ?_⟩
  · by_cases hn : n = (a - 0x1200) / 32
    · subst hn
      rw [if_pos rfl]
      split
      case h_4 => exact (map_clearEntry_absent (by simp_all [tdcCtrs])).symm
      all_goals simp_all [tdcCtrs, clearEntry, clearedAt]
    · rw [if_neg hn]
      split <;> simp [leafTdc_setLeafTdc_other l hn]
  · split <;> exact ⟨rfl, rfl, rfl⟩

theorem leafCtrClear_port0 (h : InPort0 a) : leafCtrClear l a = { l with port0 := portCtrClear l.port0 ((a - 0x2040) / 8) } := by
  have ht : ¬InTdcs a := by omega
  unfold leafCtrClear
  rw [if_neg ht, if_pos h]

theorem leafCtrClear_port1 (h : InPort1 a) : leafCtrClear l a = { l with port1 := portCtrClear l.port1 ((a - 0x2140) / 8) } := by
  have ht : ¬InTdcs a := by omega
  have h0 : ¬InPort0 a := by omega
  unfold leafCtrClear
  rw [if_neg ht, if_neg h0, if_pos h]

theorem leafCtrClear_sole (ht : ¬InTdcs a) (h0 : ¬InPort0 a) (h1 : ¬InPort1 a) :
    (∀ n, leafTdc (leafCtrClear l a) n = leafTdc l n) ∧ (leafCtrClear l a).port0 = l.port0 ∧ (leafCtrClear l a).port1 = l.port1 ∧
    soleCtrs (leafCtrClear l a) = (soleCtrs l).map (clearEntry a) := by
  unfold leafCtrClear
  rw [if_neg ht, if_neg h0, if_neg h1]
  split
  case h_23 => exact ⟨fun _ => rfl, rfl, rfl, (map_clearEntry_absent (by simp_all [soleCtrs])).symm⟩
  all_goals exact ⟨fun _ => rfl, rfl, rfl, rfl⟩

theorem leafCtrClear_answer (l : Leaf) (a : Nat) : (leafCtrClear l a).rdata = l.rdata ∧ (leafCtrClear l a).resp = l.resp := by
  unfold leafCtrClear
  dsimp only
  split_ifs
  · split <;> exact ⟨rfl, rfl⟩
  · exact ⟨rfl, rfl⟩
  · exact ⟨rfl, rfl⟩
  · split <;> exact ⟨rfl, rfl⟩

theorem leafCtr_port0 (l : Leaf) (p : Port) (b : Nat) :
    leafCtr { l with port0 := p } b = if InPort0 b then some (portCtrAt p ((b - 0x2040) / 8)) else leafCtr l b := by
  rw [leafCtr_eq, leafCtr_eq l]
  by_cases h : InPort0 b
  · have ht : ¬InTdcs b := by omega
    rw [if_neg ht, if_pos h, if_pos h]
  · rw [if_neg h, if_neg h, if_neg h]
    rfl

theorem leafCtr_port1 (l : Leaf) (p : Port) (b : Nat) :
    leafCtr { l with port1 := p } b = if InPort1 b then some (portCtrAt p ((b - 0x2140) / 8)) else leafCtr l b := by
  rw [leafCtr_eq, leafCtr_eq l]
  by_cases h : InPort1 b
  · have ht : ¬InTdcs b := by omega
    have h0 : ¬InPort0 b := by omega
    rw [if_neg ht, if_neg h0, if_pos h, if_pos h]
  · rw [if_neg h, if_neg h, if_neg h]
    rfl

/-! #### A clear reaches one counter

Wherever the cleared counter stands, each of the others stands in another place or at another offset of the same place. -/
variable {b : Nat}

theorem leafCtr_ctrClear_sole (ht : ¬InTdcs a) (h0 : ¬InPort0 a) (h1 : ¬InPort1 a) :
    leafCtr (leafCtrClear l a) b = (leafCtr l b).map (clearedAt a b) := by
  obtain ⟨htdc, hp0, hp1, hs⟩ := leafCtrClear_sole (l := l) ht h0 h1
  rw [leafCtr_eq, leafCtr_eq l, htdc, hp0, hp1, hs]
  split_ifs
  case neg => rw [lookup_clearEntry]
  all_goals exact (map_clearedAt_other (by omega) _).symm

section
variable (ha : a % 8 = 0) (hb : b % 8 = 0)
include ha hb

theorem leafCtr_ctrClear_tdc (h : InTdcs a) : leafCtr (leafCtrClear l a) b = (leafCtr l b).map (clearedAt a b) := by
  obtain ⟨htdc, hp0, hp1, hs⟩ := leafCtrClear_tdc (l := l) h
  rw [leafCtr_eq, leafCtr_eq l, htdc, hp0, hp1, hs]
  split_ifs with hbt hn
  · have hba : b % 32 = a % 32 ↔ b = a := by omega
    rw [lookup_clearEntry, clearedAt_congr hba]
  all_goals exact (map_clearedAt_other (by omega) _).symm

theorem leafCtr_ctrClear_port0 (h : InPort0 a) : leafCtr (leafCtrClear l a) b = (leafCtr l b).map (clearedAt a b) := by
  rw [leafCtrClear_port0 h, leafCtr_port0]
  split_ifs with hb0
  · have hi : (a - 0x2040) / 8 < 8 := by omega
    have hba : (b - 0x2040) / 8 = (a - 0x2040) / 8 ↔ b = a := by omega
    have hbt : ¬InTdcs b := by omega
    rw [leafCtr_eq, if_neg hbt, if_pos hb0, portCtrAt_clear _ hi, clearedAt_congr hba, Option.map_some]
  · exact (map_clearedAt_other (by omega) _).symm

theorem leafCtr_ctrClear_port1 (h : InPort1 a) : leafCtr (leafCtrClear l a) b = (leafCtr l b).map (clearedAt a b) := by
  rw [leafCtrClear_port1 h, leafCtr_port1]
  split_ifs with hb1
  · have hi : (a - 0x2140) / 8 < 8 := by omega
    have hba : (b - 0x2140) / 8 = (a - 0x2140) / 8 ↔ b = a := by omega
    have hbt : ¬InTdcs b := by omega
    have hb0 : ¬InPort0 b := by omega
    rw [leafCtr_eq, if_neg hbt, if_neg hb0, if_pos hb1, portCtrAt_clear _ hi, clearedAt_congr hba, Option.map_some]
  · exact (map_clearedAt_other (by omega) _).symm

/-- A read clears the counter at its offset alone (R70). -/
theorem leafCtr_ctrClear : leafCtr (leafCtrClear l a) b = (leafCtr l b).map (clearedAt a b) := by
  by_cases ht : InTdcs a
  · exact leafCtr_ctrClear_tdc ha hb ht
  by_cases h0 : InPort0 a
  · exact leafCtr_ctrClear_port0 ha hb h0
  by_cases h1 : InPort1 a
  · exact leafCtr_ctrClear_port1 ha hb h1
  · exact leafCtr_ctrClear_sole ht h0 h1

end

theorem leafCtr_answer (l : Leaf) (w : Word) (r a : Nat) : leafCtr (leafAnswer l w r) a = leafCtr l a := by
  rw [leafCtr_eq, leafCtr_eq l]
  rfl

/-! #### The read -/
theorem exec_registerRead {s : State} (h : leafRuns s.leaf = true) (a : Nat) (w : Word) (poison : Bool) :
    exec (.registerWrite false a w poison) s = .next (s.withLeaf (leafTickWith (fun l => leafRegRead l a) (leafHeld s.leaf))) := by
  have hd : leafPortAccess false a w poison s.leaf = leafTickWith (fun l => leafRegRead l a) (leafHeld s.leaf) := by simp [leafPortAccess]
  exact (leafDo_with h).trans (by rw [hd])

theorem leafRegRead_ctr {c : Ctr} (ha : a % 8 = 0) (h : leafCtr l a = some c) :
    leafRegRead l a = leafCtrClear (leafAnswer l (ctrWord c) respOk) a := by
  simp [leafRegRead, leafReadWord, ha, h]

end

/-- Settles O33: the read answers the counter's word and is the clearing of that counter. -/
theorem counterReadClears : Obligations.CounterReadClears := by
  unfold Obligations.CounterReadClears
  intro a w poison ha
  refine ⟨fun l => leafRegRead l a, fun s c hr _ => exec_registerRead hr a w poison, fun l c hc hlt => ?_⟩
  obtain ⟨hdata, hresp⟩ := leafCtrClear_answer (leafAnswer l (ctrWord c) respOk) a
  have hread : ∀ b, b % 8 = 0 → leafCtr (leafRegRead l a) b = (leafCtr l b).map (clearedAt a b) := fun b hb => by
    rw [leafRegRead_ctr ha hc, leafCtr_ctrClear ha hb, leafCtr_answer]
  refine ⟨?_, ?_, ?_, fun b hne hb => ?_⟩
  · exact (congrArg Leaf.resp (leafRegRead_ctr ha hc)).trans hresp
  · exact (congrArg (fun m => m.rdata.toNat) (leafRegRead_ctr ha hc)).trans ((congrArg BitVec.toNat hdata).trans (ctrWord_toNat hlt))
  · rw [hread a ha, hc, Option.map_some, clearedAt_same]
  · rw [hread b hb, map_clearedAt_other hne]

end Sys2Proof.Proofs

/-! ### Launches at a tap (R84, R86, R89)

An edge counts itself, marks the launches that fell due while the region's clock was stopped, and fires the first of those due: it is the one of the
lowest slot, for a tap holds its launches in slot order. -/
namespace Sys2Proof.Proofs
open Sys2Proof.Machine Sys2Proof.Laws

/-! #### The order in which a tap holds its launches -/
/-- A launch that a tap may hold ahead of another: a lower slot's, or one of the same slot that is not later (R84). -/
def Precedes (a b : TapFire) : Prop := a.slot < b.slot ∨ (a.slot = b.slot ∧ a.at_ ≤ b.at_)

section
variable {a b c f : TapFire} {l : List TapFire}

theorem Precedes.slot_le (h : Precedes a b) : a.slot ≤ b.slot := by
  unfold Precedes at h
  omega
theorem Precedes.trans (h : Precedes a b) (k : Precedes b c) : Precedes a c := by
  unfold Precedes at *
  omega
theorem precedes_of_strict (h : a.slot < b.slot ∨ (a.slot = b.slot ∧ a.at_ < b.at_)) : Precedes a b :=
  h.imp id (And.imp id Nat.le_of_lt)
theorem precedes_of_not_strict (h : ¬(a.slot < b.slot ∨ (a.slot = b.slot ∧ a.at_ < b.at_))) : Precedes b a := by
  unfold Precedes
  omega

theorem pairwise_slot_le (h : l.Pairwise Precedes) : l.Pairwise (fun a b => a.slot ≤ b.slot) := h.imp Precedes.slot_le

theorem insFire_pairwise (h : l.Pairwise Precedes) : (insFire f l).Pairwise Precedes := by
  induction l with
  | nil => exact List.pairwise_singleton _ f
  | cons x xs ih =>
    obtain ⟨hx, hxs⟩ := List.pairwise_cons.mp h
    unfold insFire
    split
    case isTrue hlt =>
      have hfx : Precedes f x := precedes_of_strict hlt
      exact List.pairwise_cons.mpr ⟨List.forall_mem_cons.mpr ⟨hfx, fun b hb => hfx.trans (hx b hb)⟩, h⟩
    case isFalse hlt =>
      have hxf : Precedes x f := precedes_of_not_strict hlt
      refine List.pairwise_cons.mpr ⟨fun b hb => ?_, ih hxs⟩
      obtain rfl | hb := (insFire_mem f b xs).mp hb
      · exact hxf
      · exact hx b hb

theorem insFire_perm (f : TapFire) (h : l.Pairwise Precedes) : (insFire f l).Perm (f :: l) :=
  (insFire_sorted f l (pairwise_slot_le h)).2

end

/-! #### What an edge finds, and what it fires -/
section
variable {stamp : Nat} {t : Tap} {f : TapFire}

/-- A launch as an edge finds it: past, where it fell due while the clock was stopped (R84, R86). -/
def foundFire (stamp : Nat) (t : Tap) (f : TapFire) : TapFire :=
  { f with past := f.past || (t.clkStopped && decide (f.at_ * 65536 ≤ stamp)) }
/-- A tap on an edge that is counted, before a launch fires on it. -/
def countedTap (stamp : Nat) (t : Tap) : Tap := { tapCount stamp t with clkStopped := false, fires := edgeFires stamp t }

theorem foundFire_due (t : Tap) (h : f.at_ * 65536 ≤ stamp) : foundFire stamp t f = { f with past := f.past || t.clkStopped } := by
  simp [foundFire, h]
theorem foundFire_not_due (t : Tap) (h : stamp < f.at_ * 65536) : foundFire stamp t f = f := by
  simp [foundFire, Nat.not_le.mpr h]

theorem edgeFires_eq_map (stamp : Nat) (t : Tap) : edgeFires stamp t = t.fires.map (foundFire stamp t) := by
  unfold edgeFires foundFire
  cases t.clkStopped <;> simp

theorem edgeFires_none_due (h : ∀ f ∈ t.fires, stamp < f.at_ * 65536) : edgeFires stamp t = t.fires := by
  rw [edgeFires_eq_map]
  exact (List.map_congr_left fun f hf => foundFire_not_due t (h f hf)).trans (List.map_id _)

theorem dueFire_none (h : ∀ f ∈ t.fires, stamp < f.at_ * 65536) : dueFire stamp t = none := by
  simpa [dueFire] using h
theorem dueFire_exists (h : ∃ f ∈ t.fires, f.at_ * 65536 ≤ stamp) : ∃ f, dueFire stamp t = some f := by
  rw [← Option.isSome_iff_exists, dueFire, List.find?_isSome]
  simpa using h
theorem dueFire_mem (h : dueFire stamp t = some f) : f ∈ t.fires := List.mem_of_find?_eq_some h
theorem dueFire_due (h : dueFire stamp t = some f) : f.at_ * 65536 ≤ stamp := by simpa using List.find?_some h
theorem dueFire_lowest (hs : t.fires.Pairwise Precedes) (h : dueFire stamp t = some f) :
    ∀ g ∈ t.fires, g.at_ * 65536 ≤ stamp → f.slot ≤ g.slot :=
  fun g hg hd => find_lowestSlot (pairwise_slot_le hs) h g hg (decide_eq_true hd)

/-- What an edge marks moves no launch: the one due is the one that was due. -/
theorem dueFire_countedTap (stamp : Nat) (t : Tap) : dueFire stamp (countedTap stamp t) = (dueFire stamp t).map (foundFire stamp t) := by
  change (edgeFires stamp t).find? _ = _
  rw [edgeFires_eq_map, List.find?_map]
  rfl

theorem tapEdge_none_due (h : dueFire stamp t = none) : tapEdge stamp t = countedTap stamp t := by
  have hc : dueFire stamp (countedTap stamp t) = none := by rw [dueFire_countedTap, h, Option.map_none]
  unfold countedTap at hc ⊢
  simp only [tapEdge, hc]
theorem tapEdge_due (h : dueFire stamp t = some f) : tapEdge stamp t = tapLaunch stamp (foundFire stamp t f) (countedTap stamp t) :=
  tapEdge_some ((dueFire_countedTap stamp t).trans (by rw [h, Option.map_some]))

theorem tapReplica_regionCount (b : Bool) (t : Tap) : (tapReplica b t).regionCount = t.regionCount := by
  unfold tapReplica
  split <;> rfl
theorem tapCount_regionCount (stamp : Nat) (t : Tap) : (tapCount stamp t).regionCount = satN 0xFFFFFFFF (t.regionCount + 1) := by
  unfold tapCount
  exact congrArg (fun n => satN 0xFFFFFFFF (n + 1)) (tapReplica_regionCount _ t)

theorem satN_eq_ite_le (m x : Nat) : satN m x = if x ≤ m then x else m := by
  unfold satN
  split_ifs <;> omega

/-- An edge that no launch is due on holds all of them, drives no strobe and is counted. -/
theorem tapEdge_counts (h : ∀ f ∈ t.fires, stamp < f.at_ * 65536) :
    (tapEdge stamp t).fires = t.fires ∧ (tapEdge stamp t).strobe = none ∧
      (tapEdge stamp t).regionCount = if t.regionCount + 1 ≤ 0xFFFFFFFF then t.regionCount + 1 else 0xFFFFFFFF := by
  rw [tapEdge_none_due (dueFire_none h)]
  exact ⟨edgeFires_none_due h, (tapCount_fires t stamp).2, (tapCount_regionCount stamp t).trans (satN_eq_ite_le _ _)⟩

/-- A launch fires alone, its strobe tells which, and the region counts from it anew. -/
theorem tapLaunch_fires_alone (stamp : Nat) (f : TapFire) (t : Tap) :
    (tapLaunch stamp f t).fires = t.fires.erase f ∧ (tapLaunch stamp f t).regionCount = 0 ∧
      ∃ b, (tapLaunch stamp f t).strobe = some b ∧ b.slot = f.slot ∧ b.branch = f.branch ∧ b.skipped = f.skipped ∧ (f.past = true → b.late = true) :=
  ⟨rfl, rfl, _, rfl, rfl, rfl, rfl, fun hp => by simp [hp]⟩

end

/-- Settles O40: of the launches due, the first in the order they are held in is the one an edge fires. -/
theorem launchesFireInSlotOrder : Obligations.LaunchesFireInSlotOrder := by
  unfold Obligations.LaunchesFireInSlotOrder
  intro t stamp hs
  refine ⟨fun f => ⟨insFire_pairwise hs, insFire_perm f hs⟩, tapEdge_counts, fun hdue => ?fires⟩
  case fires =>
    obtain ⟨f, hf⟩ := dueFire_exists hdue
    refine ⟨f, dueFire_mem hf, dueFire_due hf, dueFire_lowest hs hf, ?_⟩
    rw [tapEdge_due hf, foundFire_due t (dueFire_due hf)]
    exact tapLaunch_fires_alone stamp { f with past := f.past || t.clkStopped } (countedTap stamp t)

end Sys2Proof.Proofs

/-! ### Commands at the taps (R73 to R102) -/
namespace Sys2Proof.Proofs
open Sys2Proof.Machine Sys2Proof.Laws

section
variable {f : Leaf → Leaf} {s : State} {n k : Nat} (h : leafRuns s.leaf = true)
include h

/-- A command at a tap that there is runs at the leaf. -/
theorem atTap_runs (hn : n < 64) : need (decide (n < 64)) .noSuchTap (leafDo f s) = .next (s.withLeaf (f s.leaf)) :=
  need_then (decide_eq_true hn) (leafDo_with h)
/-- A command at a local channel that there is runs at the leaf. -/
theorem atLocalChan_runs (hk : k < 4) : need (decide (k < 4)) .noSuchContext (leafDo f s) = .next (s.withLeaf (f s.leaf)) :=
  need_then (decide_eq_true hk) (leafDo_with h)

end

/-- Settles O14: every row is the leaf's own behind the check that its tap, its local channel, or both are there. -/
theorem tapRows : Obligations.TapRows := by
  unfold Obligations.TapRows
  intro s h
  refine ⟨?tapTimePairSend, ?tapTimeReload, ?tapFireWord, ?tapFire, ?firedReport, ?tapStepWord, ?tapStepApply, ?tapCfgAccess, ?tapDelayMeasure,
    ?tapFault, ?regionClockStopped, ?lbArrive, ?lbReleaseTap, ?localGenTimeout, ?phaseStart, ?phaseDone, ?replicaSample, ?regionEdge⟩
  case tapTimePairSend | tapStepApply | tapFault | regionClockStopped | phaseStart => exact fun n hn => atTap_runs h hn
  case tapFireWord | tapFire | firedReport | tapDelayMeasure | regionEdge => exact fun n x hn => atTap_runs h hn
  case tapTimeReload | tapStepWord | replicaSample => exact fun n x y hn => atTap_runs h hn
  case tapCfgAccess => exact fun n off wr w hn => atTap_runs h hn
  case phaseDone => exact fun n m after sample hnm => need_then (decide_eq_true hnm) (leafDo_with h)
  case localGenTimeout => exact fun k hk => atLocalChan_runs h hk
  case lbArrive => exact fun n k flag hn hk => need_then (decide_eq_true hn) (atLocalChan_runs h hk)
  case lbReleaseTap => exact fun n k hn hk => need_then (decide_eq_true hn) (atLocalChan_runs h hk)

end Sys2Proof.Proofs

/-! ### Edges at a TDC (R104, R108, R111, R117)

What `tdcStart` and `tdcStop` answer an edge in interval mode, one equation for each row of R111's table that the statement speaks of. -/
namespace Sys2Proof.Proofs
open Sys2Proof.Machine

/-- The fine code is limited to 255 (R108). -/
theorem fineCode_eq_ite_lt (ones : Nat) : fineCode ones = if ones < 255 then ones else 255 := by
  unfold fineCode satN
  split_ifs <;> omega

/-- A rising edge after 1 ns at the low level is taken (R112). -/
theorem edgeTaken_rising {x : EdgeIn} (hr : x.rising = true) (hh : 1000 ≤ x.heldPs) : edgeTaken false x = true := by
  simp [edgeTaken, hr, hh]

/-- A TDC that a start sampled at `t` sets measuring. -/
def tdcBegun (t : TimeCore) (x : EdgeIn) (d : Tdc) : Tdc :=
  { d with measuring := true, startEdge := t.edges, startFine := fineCode x.ones, rStart := residual d.tabStart (fineCode x.ones),
           lostSince := !d.lockStart, deadStart := some t.edges }
/-- A TDC whose measurement a stop sampled at `t` ends. -/
def tdcEnded (n : Nat) (t : TimeCore) (x : EdgeIn) (d : Tdc) : Tdc :=
  { d with measuring := false, deadStop := some t.edges,
           result := { value := (t.edges - d.startEdge) * 51200 + d.rStart - residual d.tabStop (fineCode x.ones),
                       valid := !(d.lostSince || !d.lockStop), unlocked := d.lostSince || !d.lockStop,
                       linSuspect := d.linStart || d.linStop, tdcId := n, fineStop := fineCode x.ones, fineStart := d.startFine } }

section
variable {n : Nat} {t : TimeCore} {x : EdgeIn} {d : Tdc} (ho : d.outOfService = false) (hs : d.stampMode = false) (hx : edgeTaken false x = true)
include ho hs hx

theorem tdcStart_idle (hm : d.measuring = false) (ht : x.test = false) (h0 : inDead d.deadStart t.edges = false)
    (h1 : inDead d.deadStop t.edges = false) : tdcStart t x d = tdcBegun t x d := by
  simp [tdcStart, tdcBegun, ho, hs, hx, hm, ht, h0, h1]

theorem tdcStart_busy (hb : d.measuring = true ∨ x.test = true) : tdcStart t x d = { d with busyCtr := ctrInc d.busyCtr } := by
  obtain hm | ht := hb
  · simp [tdcStart, ho, hs, hx, hm]
  · simp [tdcStart, ho, hs, hx, ht]

theorem tdcStop_measuring (hm : d.measuring = true) (ht : x.test = false) : tdcStop n t x d = tdcEnded n t x d := by
  simp [tdcStop, tdcEnded, ho, hs, hx, hm, ht]

theorem tdcStop_stray (hm : d.measuring = false) : tdcStop n t x d = { d with strayCtr := ctrInc d.strayCtr } := by
  simp [tdcStop, ho, hs, hx, hm]

end

/-- What a start and a stop measure, as the difference of R104. -/
theorem tdcEnded_begun_value (n : Nat) (t0 t1 : TimeCore) (x0 x1 : EdgeIn) (d : Tdc)
    (h : residual d.tabStop (fineCode x1.ones) ≤ (t1.edges - t0.edges) * 51200 + residual d.tabStart (fineCode x0.ones)) :
    ((tdcEnded n t1 x1 (tdcBegun t0 x0 d)).result.value : Int) =
      (t1.edges - t0.edges : Nat) * 51200 + residual d.tabStart (fineCode x0.ones) - residual d.tabStop (fineCode x1.ones) := by
  simp only [tdcEnded, tdcBegun]
  omega

/-- The result is valid with both interpolators locked. -/
theorem tdcEnded_begun_valid (n : Nat) (t0 t1 : TimeCore) (x0 x1 : EdgeIn) (d : Tdc) :
    (tdcEnded n t1 x1 (tdcBegun t0 x0 d)).result.valid = (d.lockStart && d.lockStop) := by
  simp [tdcEnded, tdcBegun]

/-- Settles O39: the start begins the measurement, so the stop ends it and a second start is busy. -/
theorem tdcMeasuresTheInterval : Obligations.TdcMeasuresTheInterval := by
  unfold Obligations.TdcMeasuresTheInterval
  intro n t0 t1 x0 x1 d ho hs hm h0 h1 hr0 hh0 ht0 hr1 hh1 ht1 _ _ _ _
  have hx0 := edgeTaken_rising hr0 hh0
  have hx1 := edgeTaken_rising hr1 hh1
  have hb : tdcStart t0 x0 d = tdcBegun t0 x0 d := tdcStart_idle ho hs hx0 hm ht0 h0 h1
  have he : tdcStop n t1 x1 (tdcBegun t0 x0 d) = tdcEnded n t1 x1 (tdcBegun t0 x0 d) := tdcStop_measuring ho hs hx1 rfl ht1
  simp only [← fineCode_eq_ite_lt, hb, he]
  refine ⟨fun h => ⟨tdcEnded_begun_value n t0 t1 x0 x1 d h, rfl, rfl, rfl, rfl, tdcEnded_begun_valid n t0 t1 x0 x1 d⟩, rfl, ?_, ?_, ?_⟩
  · exact tdcStart_busy ho hs hx1 (.inl rfl)
  · exact tdcStart_busy ho hs (edgeTaken_rising hr0 hh0) (.inr rfl)
  · exact tdcStop_stray ho hs hx0 hm

end Sys2Proof.Proofs

/-! ### Commands at the TDCs (R111 to R116, R501) -/
namespace Sys2Proof.Proofs
open Sys2Proof.Machine Sys2Proof.Laws

/-- A command at a TDC of the leaf that there is runs at the leaf. -/
theorem atLeafTdc_runs {f : Leaf → Leaf} {s : State} {n : Nat} (h : leafRuns s.leaf = true) (hn : n < 4) :
    need (tdcOk .leaf n) .noSuchTdc (leafDo f s) = .next (s.withLeaf (f s.leaf)) :=
  need_then (decide_eq_true hn) (leafDo_with h)
/-- A command at a TDC of the channel that there is runs at the channel. -/
theorem atChanTdc_took {f : Chan → Chan} {s : State} {n : Nat} (h : chanPowered s.box.mod = true) (hn : n < 64) :
    ∃ t, need (tdcOk .chan n) .noSuchTdc (chanDo f s) = .next t ∧ s.chanTook f t :=
  need_some (decide_eq_true hn) (chanDo_took h)

/-- Settles O15: every row is its unit's own behind the check that its TDC, or its capture inputs, are there. -/
theorem tdcRows : Obligations.TdcRows := by
  unfold Obligations.TdcRows
  intro s
  refine ⟨fun h => ?leaf, fun h => ?chan⟩
  case leaf =>
    refine ⟨?tdcStartEdge, ?tdcStopEdge, ?tdcCoarseOverflow, ?tdcLockAcquired, ?tdcLockLost, ?tdcLockTimeout, ?tdcLoopRangeCheck,
      ?tdcHistogramDone, ?captureEdge⟩
    case tdcCoarseOverflow | tdcLockTimeout => exact fun n hn => atLeafTdc_runs h hn
    case tdcStartEdge | tdcStopEdge | tdcLockAcquired | tdcLockLost | tdcLoopRangeCheck => exact fun n x hn => atLeafTdc_runs h hn
    case tdcHistogramDone => exact fun n start hist hn => atLeafTdc_runs h hn
    case captureEdge => exact fun k e more hk => need_then hk (leafDo_with h)
  case chan =>
    refine ⟨?tdcStartEdge, ?tdcStopEdge, ?tdcCoarseOverflow, ?tdcLockAcquired, ?tdcLockLost, ?tdcLockTimeout, ?tdcLoopRangeCheck,
      ?tdcHistogramDone⟩
    case tdcCoarseOverflow | tdcLockTimeout => exact fun n hn => atChanTdc_took h hn
    case tdcStartEdge | tdcStopEdge | tdcLockAcquired | tdcLockLost | tdcLoopRangeCheck => exact fun n x hn => atChanTdc_took h hn
    case tdcHistogramDone => exact fun n start hist hn => atChanTdc_took h hn

end Sys2Proof.Proofs

/-! ### A frame on the line (R124 to R126)

The fields of a frame lie below one another, so each is read back from its place; its CRC fills the 16 bits below all of them and covers none of
those, so it agrees with itself; and the frame is of 320 bits, so the key XORed over it twice gives it back. -/
namespace Sys2Proof.Proofs
open Sys2Proof.Machine Sys2Proof.Laws

/-! #### Fields that lie below one another -/
/-- Field g lies wholly below field f. -/
def FldBelow (f g : Fld) : Prop := g.lo + g.w ≤ f.lo

theorem layNat_lt {m : Nat} {fs : List Fld} (h : ∀ g ∈ fs, g.lo + g.w ≤ m) : layNat fs < 2 ^ m := by
  induction fs with
  | nil => exact Nat.two_pow_pos m
  | cons f fs ih =>
    obtain ⟨hf, hfs⟩ := List.forall_mem_cons.mp h
    have hhead : (f.v % 2 ^ f.w) <<< f.lo < 2 ^ (f.lo + f.w) := by
      rw [Nat.add_comm, Nat.pow_add, Nat.shiftLeft_eq]
      exact Nat.mul_lt_mul_of_pos_right (Nat.mod_lt _ (Nat.two_pow_pos _)) (Nat.two_pow_pos _)
    exact Nat.or_lt_two_pow (hhead.trans_le (Nat.pow_le_pow_right two_pos hf)) (ih hfs)

/-- The field on top of a layout is read at its place, whatever lies below it. -/
theorem layNat_read_head {f : Fld} {fs : List Fld} (h : ∀ g ∈ fs, FldBelow f g) : (layNat (f :: fs) >>> f.lo) % 2 ^ f.w = f.v % 2 ^ f.w := by
  have hlow : layNat fs >>> f.lo = 0 := Nat.shiftRight_eq_zero _ _ (layNat_lt h)
  rw [layNat, Nat.shiftRight_or_distrib, Nat.shiftLeft_shiftRight, hlow, Nat.or_zero, Nat.mod_mod]

/-- A field below the one on top is read as if that were not there. -/
theorem layNat_read_below {f g : Fld} (fs : List Fld) (h : FldBelow f g) :
    (layNat (f :: fs) >>> g.lo) % 2 ^ g.w = (layNat fs >>> g.lo) % 2 ^ g.w := by
  apply Nat.eq_of_testBit_eq
  intro i
  unfold FldBelow at h
  by_cases hi : i < g.w
  · have : ¬ f.lo ≤ g.lo + i := by omega
    simp [layNat, hi, this]
  · simp [hi]

/-- Every field of a layout is read back at its place. -/
theorem layNat_read {fs : List Fld} (hfs : fs.Pairwise FldBelow) {g : Fld} (hg : g ∈ fs) : (layNat fs >>> g.lo) % 2 ^ g.w = g.v % 2 ^ g.w := by
  induction fs with
  | nil => cases hg
  | cons f fs ih =>
    obtain ⟨hf, hfs⟩ := List.pairwise_cons.mp hfs
    obtain rfl | hg := List.mem_cons.mp hg
    · exact layNat_read_head hf
    · exact (layNat_read_below fs (hf g hg)).trans (ih hfs hg)

/-- A field that holds a Boolean is read back as that bit. -/
theorem layNat_testBit {fs : List Fld} (hfs : fs.Pairwise FldBelow) {lo : Nat} {b : Bool} (hg : ⟨lo, 1, b2n b⟩ ∈ fs) :
    (layNat fs).testBit lo = b := by
  have h : (layNat fs >>> lo) % 2 = b2n b % 2 := layNat_read hfs hg
  rw [Nat.testBit_eq_decide_div_mod_eq, ← Nat.shiftRight_eq_div_pow, h]
  cases b <;> rfl

/-! #### The key and the CRC -/
theorem scrambler_lt (n s acc : Nat) : scrambler n s acc < (acc + 1) * 2 ^ n := by
  induction n generalizing s acc with
  | zero => simp [scrambler]
  | succ n ih =>
    have hb : Nat.xor ((s >>> 30) % 2) ((s >>> 27) % 2) < 2 :=
      Nat.xor_lt_two_pow (n := 1) (Nat.mod_lt _ two_pos) (Nat.mod_lt _ two_pos)
    calc scrambler (n + 1) s acc
        < (2 * acc + Nat.xor ((s >>> 30) % 2) ((s >>> 27) % 2) + 1) * 2 ^ n := ih _ _
      _ ≤ ((acc + 1) * 2) * 2 ^ n := Nat.mul_le_mul_right _ (by omega)
      _ = (acc + 1) * 2 ^ (n + 1) := by rw [Nat.mul_assoc, Nat.pow_succ']

theorem scramKey_lt : scramKey < 2 ^ 320 := 
  (scrambler_lt 320 0x7FFFFFFF 0).trans_eq (by rw [Nat.zero_add, Nat.one_mul])
theorem scramble_scramble (v : Nat) : scramble (scramble v) = v := Nat.xor_xor_cancel_right v scramKey
/-- A line wide enough for the key and for a word brings the word over. -/
theorem scramble_ofNat_scramble {n v : Nat} (hk : scramKey < 2 ^ n) (hv : v < 2 ^ n) : scramble (BitVec.ofNat n (scramble v)).toNat = v := by
  have hs : scramble v < 2 ^ n := Nat.xor_lt_two_pow hv hk
  rw [BitVec.toNat_ofNat, Nat.mod_eq_of_lt hs, scramble_scramble]

theorem crc16_lt {n v c : Nat} (h : c < 2 ^ 16) : crc16 n v c < 2 ^ 16 := by
  induction n generalizing c with
  | zero => exact h
  | succ n ih =>
    have hmod : (2 * c) % 0x10000 < 2 ^ 16 := Nat.mod_lt _ (by norm_num)
    refine ih ?_
    split
    · exact Nat.xor_lt_two_pow hmod (by norm_num)
    · exact hmod

theorem frameCrc_lt (v : Nat) : frameCrc v < 2 ^ 16 := crc16_lt (by norm_num)

/-! #### The bits of a frame -/
/-- The fields of a frame above its CRC (R125). -/
def frameFlds (F : Frame) : List Fld :=
  [⟨316, 4, F.ftype⟩, ⟨314, 2, F.vc⟩, ⟨312, 2, F.seqPar⟩, ⟨24, 288, F.gran⟩, ⟨23, 1, b2n F.creditValid⟩,
    ⟨21, 2, F.creditVc⟩, ⟨17, 4, F.creditCount⟩, ⟨16, 1, b2n F.beatNext⟩]
/-- Those fields laid together, with the CRC's bits zero. -/
def frameBody (F : Frame) : Nat := layNat (frameFlds F)

theorem frameBits_eq (F : Frame) : frameBits F = frameBody F + frameCrc (frameBody F) := rfl

section
variable (F : Frame)

theorem frameFlds_pairwise : (frameFlds F).Pairwise FldBelow := by simp [frameFlds, FldBelow]
theorem frameFlds_above_crc : ∀ g ∈ frameFlds F, 16 ≤ g.lo := by simp [frameFlds]
theorem frameFlds_end : ∀ g ∈ frameFlds F, g.lo + g.w ≤ 320 := by simp [frameFlds]
theorem frameFlds_pos : ∀ g ∈ frameFlds F, 0 < g.w := by simp [frameFlds]
theorem frameBody_low_zero : ∃ q, frameBody F = q <<< 16 := layNat_high 16 (frameFlds F) (frameFlds_above_crc F)

/-- The CRC fills bits of which the body has none. -/
theorem frameBits_eq_or : frameBits F = frameBody F ||| frameCrc (frameBody F) := by
  obtain ⟨q, hq⟩ := frameBody_low_zero F
  rw [frameBits_eq, hq, Nat.shiftLeft_add_eq_or_of_lt (frameCrc_lt _)]

theorem frameBits_lt {n : Nat} (hn : 320 ≤ n) : frameBits F < 2 ^ n := by
  have hcrc : frameCrc (frameBody F) < 2 ^ n := (frameCrc_lt _).trans_le (Nat.pow_le_pow_right two_pos (by omega))
  rw [frameBits_eq_or]
  exact Nat.or_lt_two_pow (layNat_lt fun g hg => (frameFlds_end F g hg).trans hn) hcrc

theorem frameBits_mod : frameBits F % 2 ^ 16 = frameCrc (frameBody F) := by
  obtain ⟨q, hq⟩ := frameBody_low_zero F
  rw [frameBits_eq, hq, Nat.shiftLeft_eq, Nat.mul_add_mod_self_right, Nat.mod_eq_of_lt (frameCrc_lt _)]

/-- Above the CRC a frame reads as its body does. -/
theorem frameBits_shiftRight {lo : Nat} (h : 16 ≤ lo) : frameBits F >>> lo = frameBody F >>> lo := by
  have hcrc : frameCrc (frameBody F) >>> lo = 0 :=
    Nat.shiftRight_eq_zero _ _ ((frameCrc_lt _).trans_le (Nat.pow_le_pow_right two_pos h))
  rw [frameBits_eq_or, Nat.shiftRight_or_distrib, hcrc, Nat.or_zero]
theorem bitsOf_frameBits {hi lo : Nat} (h : 16 ≤ lo) : bitsOf (frameBits F) hi lo = bitsOf (frameBody F) hi lo := by
  rw [bitsOf, frameBits_shiftRight F h, bitsOf]
theorem testBit_frameBits {lo : Nat} (h : 16 ≤ lo) : (frameBits F).testBit lo = (frameBody F).testBit lo := by
  rw [Nat.testBit, frameBits_shiftRight F h, Nat.testBit]

/-- The CRC covers none of its own bits, so that of the whole frame is that of its body. -/
theorem frameCrc_frameBits : frameCrc (frameBits F) = frameCrc (frameBody F) := by
  simp [frameCrc, bitsOf_frameBits]
theorem frameCrcOk_frameBits : frameCrcOk (frameBits F) = true :=
  decide_eq_true ((frameCrc_frameBits F).trans (frameBits_mod F).symm)

theorem scramble_frameLine : scramble (frameLine F).toNat = frameBits F :=
  scramble_ofNat_scramble scramKey_lt (frameBits_lt F le_rfl)

end

section
variable {F : Frame}

/-- A field of a frame is read back, if its value fits it. -/
theorem frame_field {g : Fld} (hg : g ∈ frameFlds F) (hv : g.v < 2 ^ g.w) :
    bitsOf (frameBits F) (g.lo + g.w - 1) g.lo = g.v := by
  have hpos := frameFlds_pos F g hg
  have hw : g.lo + g.w - 1 + 1 - g.lo = g.w := by omega
  rw [bitsOf_frameBits F (frameFlds_above_crc F g hg), bitsOf, hw, frameBody, layNat_read (frameFlds_pairwise F) hg, Nat.mod_eq_of_lt hv]
theorem frame_flag {lo : Nat} {b : Bool} (hg : ⟨lo, 1, b2n b⟩ ∈ frameFlds F) : (frameBits F).testBit lo = b := by
  rw [testBit_frameBits F (frameFlds_above_crc F _ hg), frameBody, layNat_testBit (frameFlds_pairwise F) hg]

end

theorem frameOf_frameBits {F : Frame} (ht : F.ftype < 2 ^ 4) (hv : F.vc < 2 ^ 2) (hs : F.seqPar < 2 ^ 2) (hg : F.gran < 2 ^ 288)
    (hcv : F.creditVc < 2 ^ 2) (hcc : F.creditCount < 2 ^ 4) : frameOf (frameBits F) = F := by
  have ftype : bitsOf (frameBits F) 319 316 = F.ftype := frame_field (g := ⟨316, 4, F.ftype⟩) (by simp [frameFlds]) ht
  have vc : bitsOf (frameBits F) 315 314 = F.vc := frame_field (g := ⟨314, 2, F.vc⟩) (by simp [frameFlds]) hv
  have seqPar : bitsOf (frameBits F) 313 312 = F.seqPar := frame_field (g := ⟨312, 2, F.seqPar⟩) (by simp [frameFlds]) hs
  have gran : bitsOf (frameBits F) 311 24 = F.gran := frame_field (g := ⟨24, 288, F.gran⟩) (by simp [frameFlds]) hg
  have creditValid : (frameBits F).testBit 23 = F.creditValid := frame_flag (by simp [frameFlds])
  have creditVc : bitsOf (frameBits F) 22 21 = F.creditVc := frame_field (g := ⟨21, 2, F.creditVc⟩) (by simp [frameFlds]) hcv
  have creditCount : bitsOf (frameBits F) 20 17 = F.creditCount := frame_field (g := ⟨17, 4, F.creditCount⟩) (by simp [frameFlds]) hcc
  have beatNext : (frameBits F).testBit 16 = F.beatNext := frame_flag (by simp [frameFlds])
  rw [frameOf, ftype, vc, seqPar, gran, creditValid, creditVc, creditCount, beatNext]

/-- Settles O43: what is read from the line is the frame's bits, of which the CRC agrees and each field is at its place. -/
theorem frameRoundTrip : Obligations.FrameRoundTrip := by
  unfold Obligations.FrameRoundTrip
  intro F ht hv hs hg hcv hcc
  rw [scramble_frameLine]
  exact ⟨frameCrcOk_frameBits F, frameOf_frameBits ht hv hs hg hcv hcc⟩

end Sys2Proof.Proofs

/-! ### Commands of the link layer (R24, R31, R32, R133 to R152) -/
namespace Sys2Proof.Proofs
open Sys2Proof.Machine Sys2Proof.Laws

section
variable {s : State} {f : Nat → Leaf → Leaf} {g : Nat → Chan → Chan} {n : Nat}

/-- A command at a port of the leaf that there is runs at the leaf. -/
theorem atLeafPort_runs (h : leafRuns s.leaf = true) (hn : n < 2) :
    need (atOk (.leaf n)) .noSuchPort (atPort (.leaf n) f g s) = .next (s.withLeaf (f n s.leaf)) :=
  need_then (decide_eq_true hn) (leafDo_with h)
/-- One that also names a lane-end, of which there are m. -/
theorem atLeafLane_runs {k m : Nat} (h : leafRuns s.leaf = true) (hn : n < 2) (hk : k < m) :
    need (atOk (.leaf n)) .noSuchPort (need (decide (k < m)) .noSuchLane (atPort (.leaf n) f g s)) = .next (s.withLeaf (f n s.leaf)) :=
  need_then (decide_eq_true hn) (need_then (decide_eq_true hk) (leafDo_with h))

section
variable (h : chanPowered s.box.mod = true) (hq : s.box.chan.start.phase ≠ 4)
include h hq

/-- A command at a port of the channel that there is runs at the channel. -/
theorem atChanPort_took (hn : n < 272) :
    ∃ t, need (atOk (.chan n)) .noSuchPort (atPort (.chan n) f g s) = .next t ∧ s.chanTook (g n) t :=
  need_some (decide_eq_true hn) (linkDo_took h hq)
/-- One that also names a lane-end, of which there are m. -/
theorem atChanLane_took {k m : Nat} (hn : n < 272) (hk : k < m) :
    ∃ t, need (atOk (.chan n)) .noSuchPort (need (decide (k < m)) .noSuchLane (atPort (.chan n) f g s)) = .next t ∧ s.chanTook (g n) t :=
  need_some (decide_eq_true hn) (need_some (decide_eq_true hk) (linkDo_took h hq))

end
end

/-- Settles O11: every row is its unit's own behind the checks that its port, and its lane-end where it names one, are there. -/
theorem linkRows : Obligations.LinkRows := by
  unfold Obligations.LinkRows
  intro s
  refine ⟨fun h => ?leaf, fun h hq => ?chan⟩
  case leaf =>
    refine ⟨?lightDetected, ?trainFrame, ?laneStuck, ?ident, ?ancestry, ?linkParams, ?trainingTimeout, ?trainingNoLight, ?trainingRetry,
      ?lossOfSignal, ?missingSlots, ?frameLockLost, ?dataFrameReceived, ?ackNak, ?ackNakSend, ?nakRepeat, ?beatSend, ?beatReceived,
      ?blockRelease, ?turnSched, ?echoReturned, ?echoNotReturned, ?calResult⟩
    case lightDetected => exact fun d lane power hd hk => atLeafLane_runs h hd hk
    case trainFrame => exact fun d own g done hd hk => atLeafLane_runs h hd hk
    case laneStuck => exact fun d k hd hk => atLeafLane_runs h hd hk
    case trainingTimeout | trainingNoLight | trainingRetry | missingSlots | frameLockLost | ackNakSend | nakRepeat | beatSend | blockRelease |
      echoNotReturned => exact fun d hd => atLeafPort_runs h hd
    case ident | ancestry | linkParams | lossOfSignal | dataFrameReceived | ackNak | turnSched | echoReturned | calResult =>
      exact fun d x hd => atLeafPort_runs h hd
    case beatReceived => exact fun d g ok e hd => atLeafPort_runs h hd
  case chan =>
    refine ⟨?lightDetected, ?trainFrame, ?laneStuck, ?ident, ?ancestry, ?linkParams, ?trainingTimeout, ?trainingNoLight, ?trainingRetry,
      ?duplicateOrder, ?lossOfSignal, ?missingSlots, ?frameLockLost, ?dataFrameReceived, ?ackNak, ?ackNakSend, ?nakRepeat, ?beatSend,
      ?beatReceived, ?blockRelease, ?turnSched, ?turnSlotDue, ?turnSlotForced, ?echoReturned, ?echoNotReturned, ?calResult⟩
    case lightDetected => exact fun p lane power hp hk => atChanLane_took h hq hp hk
    case trainFrame => exact fun p own g done hp hk => atChanLane_took h hq hp hk
    case laneStuck => exact fun p k hp hk => atChanLane_took h hq hp hk
    case duplicateOrder => exact fun g => linkDo_took h hq
    case trainingTimeout | trainingNoLight | trainingRetry | missingSlots | frameLockLost | ackNakSend | nakRepeat | beatSend | blockRelease |
      echoNotReturned => exact fun p hp => atChanPort_took h hq hp
    case turnSlotDue | turnSlotForced => exact fun p hp => need_some (decide_eq_true hp) (linkDo_took h hq)
    case ident | ancestry | linkParams | lossOfSignal | dataFrameReceived | ackNak | turnSched | echoReturned | calResult =>
      exact fun p x hp => atChanPort_took h hq hp
    case beatReceived => exact fun p g ok e hp => atChanPort_took h hq hp

end Sys2Proof.Proofs

/-! ### Commands of time distribution (R56 to R69, R139 to R180, R591) -/
namespace Sys2Proof.Proofs
open Sys2Proof.Machine Sys2Proof.Laws

/-- A packet that arrives at a port of the channel that there is runs at the channel. -/
theorem atChanLink_took {f : Chan → Chan} {s : State} {p : Nat} (h : chanPowered s.box.mod = true) (hq : s.box.chan.start.phase ≠ 4)
    (hp : p < 272) : ∃ t, need (decide (p < 272)) .noSuchPort (linkDo f s) = .next t ∧ s.chanTook f t :=
  need_some (decide_eq_true hp) (linkDo_took h hq)

/-- Settles O13: every row is its unit's own behind the check that its port or its context is there; those of the channel that need no port run in
QUARANTINE too. -/
theorem timeRows : Obligations.TimeRows := by
  unfold Obligations.TimeRows
  intro s
  refine ⟨fun h => ?leaf, fun h => ?chanNoPort, fun h hq => ?chanPorts⟩
  case leaf =>
    refine ⟨?gearAdvance, ?switchRule4, ?timeInfo, ?stepNotice, ?stepInstant, ?slewEnd, ?utcStepApply, ?timeSaturated, ?timeSnapLoRead,
      ?timeLineSend, ?stepRelayCheck⟩
    case switchRule4 | stepInstant | slewEnd | utcStepApply | timeSaturated | timeLineSend | stepRelayCheck => exact leafDo_with h
    case gearAdvance => exact fun d hd => atLeafPort_runs h hd
    case timeInfo | stepNotice => exact fun d g hd => atLeafPort_runs h hd
    case timeSnapLoRead => exact fun k hk => need_then (decide_eq_true hk) (leafDo_with h)
  case chanNoPort =>
    refine ⟨?stepInstant, ?slewEnd, ?utcStepApply, ?timeSaturated, ?millSettleWait, ?leadLost, ?followerConfirmTimeout, ?followerConfirm⟩
    case stepInstant | slewEnd | utcStepApply | timeSaturated | millSettleWait | leadLost => exact chanDo_took h
    case followerConfirmTimeout | followerConfirm => exact fun id => chanDo_took h
  case chanPorts =>
    refine ⟨?gearAdvance, ?timeInfo, ?stepNotice, ?strictReport, ?timeLineSend, ?timeLineReceived, ?timeLineCombine, ?stepRelay⟩
    case timeLineSend | timeLineCombine => exact linkDo_took h hq
    case gearAdvance => exact fun p hp => atChanPort_took h hq hp
    case timeInfo | stepNotice => exact fun p g hp => atChanPort_took h hq hp
    case strictReport | timeLineReceived | stepRelay => exact fun p g hp => atChanLink_took h hq hp

end Sys2Proof.Proofs

/-! ### The best reference (R198)

`bestOf` folds "the better of the two" over the eligible references; `better` orders references strictly and totally, so that the fold ends at
the one that is better than every other. -/
namespace Sys2Proof.Proofs
open Sys2Proof.Machine

section
variable {c : ChanClock} {q r s : Nat}

theorem better_iff : better c r s = true ↔
    (refAt c r).priority < (refAt c s).priority ∨
    ((refAt c r).priority = (refAt c s).priority ∧ c.sel.selected ≠ some s ∧ (c.sel.selected = some r ∨ r < s)) := by
  simp [better, and_assoc]

theorem better_trans (h : better c r s = true) (k : better c s q = true) : better c r q = true := by
  rw [better_iff] at *
  obtain hlt | ⟨heq, hs, hr⟩ := h
  · left; omega
  · obtain klt | ⟨keq, kq, ks⟩ := k
    · left; omega
    · have hsq : s < q := ks.resolve_left hs
      exact .inr ⟨heq.trans keq, kq, hr.imp_right (lt_trans · hsq)⟩

/-- Of two references one is the better. -/
theorem better_of_not_better (hne : r ≠ s) (h : better c r s = false) : better c s r = true := by
  rw [Bool.eq_false_iff, ne_eq, better_iff] at h
  push Not at h
  obtain ⟨hle, htie⟩ := h
  rw [better_iff]
  obtain hlt | heq := lt_or_eq_of_le hle
  · exact .inl hlt
  · refine .inr ⟨heq, ?_⟩
    by_cases hs : c.sel.selected = some s
    · simpa [hs] using hne.symm
    · obtain ⟨hr, hsr⟩ := htie heq.symm hs
      exact ⟨hr, .inr (by omega)⟩

theorem eligible_iff : eligible c r = true ↔
    isMill c = true ∧ ((refAt c r).state = .qualified ∨ (refAt c r).state = .selected) ∧ 1 ≤ (refAt c r).priority ∧ extBacked c r = true := by
  simp [eligible, refGood, and_assoc]

end

/-- The better of the best so far and another. -/
def pickBetter (c : ChanClock) (b : Option Nat) (r : Nat) : Option Nat :=
  match b with
  | none => some r
  | some s => if better c r s then some r else some s

theorem bestOf_eq_foldl (c : ChanClock) (l : List Nat) : bestOf c l = (l.filter (eligible c)).foldl (pickBetter c) none := rfl

/-- The best of some references is one of them, and better than each of the others. -/
def IsBest (c : ChanClock) (l : List Nat) (r : Nat) : Prop := r ∈ l ∧ ∀ q ∈ l, q ≠ r → better c r q = true

theorem pickBetter_isBest (c : ChanClock) (s x : Nat) : ∃ w, pickBetter c (some s) x = some w ∧ IsBest c [s, x] w := by
  cases hx : better c x s with
  | true => exact ⟨x, by simp [pickBetter, hx], by simp [IsBest, hx]⟩
  | false => exact ⟨s, by simp [pickBetter, hx], by simpa [IsBest] using fun hne => better_of_not_better hne hx⟩

theorem foldl_pickBetter_isBest (c : ChanClock) (l : List Nat) (s : Nat) :
    ∃ r, l.foldl (pickBetter c) (some s) = some r ∧ IsBest c (s :: l) r := by
  induction l generalizing s with
  | nil => exact ⟨s, rfl, by simp [IsBest]⟩
  | cons x l ih =>
    obtain ⟨w, hpick, hw, hbeats⟩ := pickBetter_isBest c s x
    obtain ⟨r, hfold, hr, hbest⟩ := ih w
    refine ⟨r, by rw [List.foldl_cons, hpick, hfold], ?_, fun q hq hne => ?_⟩
    · simp only [List.mem_cons] at hw hr ⊢
      grind
    · by_cases hql : q ∈ w :: l
      · exact hbest q hql hne
      · have hwq : better c w q = true := hbeats q (by grind) (by grind)
        by_cases hwr : w = r
        · exact hwr ▸ hwq
        · exact better_trans (hbest w (by simp) hwr) hwq

/-- What `bestOf` finds is the best of the eligible ones. -/
theorem isBest_of_bestOf {c : ChanClock} {l : List Nat} {r : Nat} (h : bestOf c l = some r) : IsBest c (l.filter (eligible c)) r := by
  rw [bestOf_eq_foldl] at h
  cases hl : l.filter (eligible c) with
  | nil => simp [hl] at h
  | cons s t =>
    obtain ⟨w, hfold, hw⟩ := foldl_pickBetter_isBest c t s
    rw [hl, List.foldl_cons, pickBetter, hfold, Option.some_inj] at h
    exact h ▸ hw

theorem bestOf_eq_none_iff {c : ChanClock} {l : List Nat} : bestOf c l = none ↔ ∀ q ∈ l, eligible c q = false := by
  rw [bestOf_eq_foldl]
  cases hl : l.filter (eligible c) with
  | nil => simpa using List.filter_eq_nil_iff.mp hl
  | cons s t =>
    obtain ⟨w, hfold, -⟩ := foldl_pickBetter_isBest c t s
    have hs := List.mem_filter.mp (hl ▸ List.mem_cons_self : s ∈ l.filter (eligible c))
    rw [List.foldl_cons, pickBetter, hfold]
    simpa using ⟨s, hs⟩

/-- Settles O45: the fold of R198's order over the eligible references ends at the best of them. -/
theorem bestReferenceIsTheLowestPriority : Obligations.BestReferenceIsTheLowestPriority := by
  unfold Obligations.BestReferenceIsTheLowestPriority
  intro c
  refine ⟨fun r hr => ?best, ?none, fun r _ => eligible_iff⟩
  case best =>
    obtain ⟨hmem, hbest⟩ := isBest_of_bestOf hr
    simp only [List.mem_filter, List.mem_range] at hmem hbest
    obtain ⟨hlt, hel⟩ := hmem
    refine ⟨hlt, hel, fun q hq hqe hne => ?_⟩
    exact (better_iff.mp (hbest q ⟨hq, hqe⟩ hne)).imp_right fun ⟨heq, hsel, htie⟩ => ⟨heq, htie.imp_right fun hrq => ⟨hsel, hrq⟩⟩
  case none => simp [bestOf_eq_none_iff]

end Sys2Proof.Proofs

/-! ### Commands of the references (R190 to R217) -/
namespace Sys2Proof.Proofs
open Sys2Proof.Machine Sys2Proof.Laws

section
variable {f : Chan → Chan} {s : State} {n : Nat} (h : chanPowered s.box.mod = true)
include h

/-- A command at one of the `m` references, or frequency inputs (R186), that there are runs at the channel. -/
theorem atReference_took {m : Nat} (hn : n < m) : ∃ t, need (decide (n < m)) .noSuchReference (chanDo f s) = .next t ∧ s.chanTook f t :=
  need_some (decide_eq_true hn) (chanDo_took h)
/-- A command at an output that there is runs at the channel. -/
theorem atOutput_took (hn : n < 16) : ∃ t, need (decide (n < 16)) .noSuchOutput (chanDo f s) = .next t ∧ s.chanTook f t :=
  need_some (decide_eq_true hn) (chanDo_took h)

end

/-- Settles O16: every row is the channel's own behind the check that its reference or its output is there. -/
theorem referenceRows : Obligations.ReferenceRows := by
  unfold Obligations.ReferenceRows
  intro s h
  refine ⟨?refPulse, ?refWindowMiss, ?refEdgeMiss, ?ptpSyncMiss, ?ptpAnnounceTimeout, ?gnssTimeInvalid, ?gnssSurveyDone, ?refFreqResult,
    ?disagreeCleared, ?refQualified, ?wtrEnd, ?switchCommit, ?antOpen, ?antShort, ?antFeedRetry, ?warmSet, ?warmCleared, ?holdoverSample,
    ?ageingRefit, ?outputEdge, ?outputMonitor, ?outShort, ?outShortRetry, ?outOpen, ?outCfgApply, ?holdoverUpdate⟩
  case ptpSyncMiss | ptpAnnounceTimeout | gnssTimeInvalid | gnssSurveyDone | disagreeCleared | switchCommit | antOpen | antShort | warmSet |
    warmCleared | holdoverSample | ageingRefit | holdoverUpdate => exact chanDo_took h
  case antFeedRetry => exact fun feed => chanDo_took h
  case refWindowMiss | refEdgeMiss | refQualified | wtrEnd => exact fun r hr => atReference_took h hr
  case refPulse | refFreqResult => exact fun r x hr => atReference_took h hr
  case outputEdge | outShort | outOpen | outCfgApply => exact fun n hn => atOutput_took h hn
  case outputMonitor | outShortRetry => exact fun n x hn => atOutput_took h hn

end Sys2Proof.Proofs

/-! ### The configuration of an output (R211, R213, R215, R217)

`outMerge` takes the fields of a write one after another, each by its setter, and leaves out what falls outside the ranges. What a write comes to
rests on two facts about the setters: each leaves the configuration written as it is, and no two touch one field. -/
namespace Sys2Proof.Proofs
open Sys2Proof.Machine Sys2Proof.Laws

/-- The fields of a configuration written, each as what it makes of another configuration, in the order of the table. -/
def outSetters (g : OutCfg) : List (OutCfg → OutCfg) :=
  [fun x => { x with enable := g.enable }, fun x => { x with src := g.src }, fun x => { x with squelch := g.squelch },
   fun x => { x with widthNs := g.widthNs }, fun x => { x with period := g.period }, fun x => { x with offset := g.offset }]
/-- Take one field into what has been taken so far, or leave it out and count it. -/
def outTake (n : Nat) (a : OutCfg × Nat) (f : OutCfg → OutCfg) : OutCfg × Nat :=
  if f a.1 = a.1 then a else if outCfgOk n (f a.1) then (f a.1, a.2) else (a.1, a.2 + 1)

theorem outMerge_eq_foldl (n : Nat) (g o : OutCfg) : outMerge n g o = (outSetters g).foldl (outTake n) (o, 0) := rfl

/-! #### Taking one field after another -/

section
variable {n : Nat} {f : OutCfg → OutCfg} {fs : List (OutCfg → OutCfg)} {a : OutCfg × Nat}

theorem outTake_same (h : f a.1 = a.1) : outTake n a f = a := if_pos h

/-- A field is taken, which changes nothing or is in range, or it is left out. -/
theorem outTake_cases (n : Nat) (a : OutCfg × Nat) (f : OutCfg → OutCfg) :
    (outTake n a f = (f a.1, a.2) ∧ (f a.1 = a.1 ∨ outCfgOk n (f a.1) = true)) ∨
    (outTake n a f = (a.1, a.2 + 1) ∧ f a.1 ≠ a.1) := by
  by_cases hs : f a.1 = a.1
  · exact .inl ⟨by rw [outTake_same hs, hs], .inl hs⟩
  · by_cases hok : outCfgOk n (f a.1) = true
    · exact .inl ⟨by simp [outTake, hs, hok], .inr hok⟩
    · exact .inr ⟨by simp [outTake, hs, hok], hs⟩

theorem foldl_outTake_same (h : ∀ f ∈ fs, f a.1 = a.1) : fs.foldl (outTake n) a = a := by
  induction fs with
  | nil => rfl
  | cons f fs ih =>
    rw [List.foldl_cons, outTake_same (h f (by simp))]
    exact ih fun f' hf' => h f' (by simp [hf'])

theorem foldl_outTake_count (n : Nat) (fs : List (OutCfg → OutCfg)) (a : OutCfg × Nat) :
    a.2 ≤ (fs.foldl (outTake n) a).2 ∧ (fs.foldl (outTake n) a).2 ≤ a.2 + fs.length := by
  induction fs generalizing a with
  | nil => simp
  | cons f fs ih =>
    have hrest := ih (outTake n a f)
    rw [List.foldl_cons, List.length_cons]
    obtain ⟨he, -⟩ | ⟨he, -⟩ := outTake_cases n a f
    all_goals
      rw [he] at hrest ⊢
      omega

/-- What every change in range keeps holds of what is taken in the end. -/
theorem foldl_outTake_kept {P : OutCfg → Prop} (hP : ∀ f ∈ fs, ∀ x, P x → f x = x ∨ outCfgOk n (f x) = true → P (f x)) (h : P a.1) :
    P (fs.foldl (outTake n) a).1 := by
  induction fs generalizing a with
  | nil => exact h
  | cons f fs ih =>
    refine ih (fun f' hf' => hP f' (by simp [hf'])) ?_
    obtain ⟨he, hok⟩ | ⟨he, -⟩ := outTake_cases n a f
    · rw [he]
      exact hP f (by simp) a.1 h hok
    · rwa [he]

/-- With none left out every field is taken. -/
theorem foldl_outTake_all (h : (fs.foldl (outTake n) a).2 = a.2) : (fs.foldl (outTake n) a).1 = fs.foldl (fun x f => f x) a.1 := by
  induction fs generalizing a with
  | nil => rfl
  | cons f fs ih =>
    have hcount := (foldl_outTake_count n fs (outTake n a f)).1
    rw [List.foldl_cons] at *
    obtain ⟨he, -⟩ | ⟨he, -⟩ := outTake_cases n a f
    · rw [he] at h ⊢
      exact ih h
    · rw [he] at h hcount
      omega

/-- The setters of two fields: one that is as written once the other is set was so before. -/
def FieldsApart (f f' : OutCfg → OutCfg) : Prop := ∀ x, (f (f' x) = f' x → f x = x) ∧ (f' (f x) = f x → f' x = x)

/-- A field that is as written after others have been taken was so before. -/
theorem same_of_foldl_outTake (ha : ∀ f' ∈ fs, FieldsApart f f') (h : f (fs.foldl (outTake n) a).1 = (fs.foldl (outTake n) a).1) : f a.1 = a.1 := by
  induction fs generalizing a with
  | nil => exact h
  | cons f' fs ih =>
    have hnext : f (outTake n a f').1 = (outTake n a f').1 := ih (fun f₂ hf₂ => ha f₂ (by simp [hf₂])) h
    obtain ⟨he, -⟩ | ⟨he, -⟩ := outTake_cases n a f'
    · rw [he] at hnext
      exact (ha f' (by simp) a.1).1 hnext
    · rwa [he] at hnext

/-- With every field as written in the end, none was left out. -/
theorem foldl_outTake_count_of_same (hp : fs.Pairwise FieldsApart) (h : ∀ f ∈ fs, f (fs.foldl (outTake n) a).1 = (fs.foldl (outTake n) a).1) :
    (fs.foldl (outTake n) a).2 = a.2 := by
  induction fs generalizing a with
  | nil => rfl
  | cons f fs ih =>
    obtain ⟨hf, hfs⟩ := List.pairwise_cons.mp hp
    rw [List.foldl_cons] at *
    have hrest := ih hfs fun f' hf' => h f' (by simp [hf'])
    have hsame : f (outTake n a f).1 = (outTake n a f).1 := same_of_foldl_outTake hf (h f (by simp))
    obtain ⟨he, -⟩ | ⟨he, hne⟩ := outTake_cases n a f
    · rw [hrest, he]
    · rw [he] at hsame
      exact absurd hsame hne

end

/-! #### The setters of a write -/

section
variable {n : Nat} {g o : OutCfg}

theorem outSetter_same : ∀ f ∈ outSetters g, f g = g := by simp [outSetters]

theorem outCfg_eq_iff {x y : OutCfg} : x = y ↔ x.enable = y.enable ∧ x.src = y.src ∧ x.squelch = y.squelch ∧ x.widthNs = y.widthNs ∧
    x.period = y.period ∧ x.offset = y.offset := by
  cases x
  cases y
  simp

theorem outSetters_apart (g : OutCfg) : (outSetters g).Pairwise FieldsApart := by
  simp [outSetters, FieldsApart, outCfg_eq_iff]

theorem outSetters_all (g o : OutCfg) : (outSetters g).foldl (fun x f => f x) o = g := rfl

theorem outMerge_count_le (n : Nat) (g o : OutCfg) : (outMerge n g o).2 ≤ 6 := by
  have hcount := (foldl_outTake_count n (outSetters g) (o, 0)).2
  rwa [← outMerge_eq_foldl, Nat.zero_add] at hcount

theorem outMerge_count_eq_zero_iff : (outMerge n g o).2 = 0 ↔ (outMerge n g o).1 = g := by
  rw [outMerge_eq_foldl]
  constructor
  · exact fun h => (foldl_outTake_all h).trans (outSetters_all g o)
  · intro h
    exact foldl_outTake_count_of_same (outSetters_apart g) (by rw [h]; exact outSetter_same)

theorem outMerge_sound (h : outCfgOk n o = true) : outCfgOk n (outMerge n g o).1 = true :=
  foldl_outTake_kept (P := fun x => outCfgOk n x = true) (fun _ _ _ hx hf => hf.elim (fun he => by rwa [he]) id) h

/-- Every field is the one written or the one there was. -/
structure FieldsOf (g o x : OutCfg) : Prop where
  enable  : x.enable = g.enable ∨ x.enable = o.enable
  src     : x.src = g.src ∨ x.src = o.src
  squelch : x.squelch = g.squelch ∨ x.squelch = o.squelch
  widthNs : x.widthNs = g.widthNs ∨ x.widthNs = o.widthNs
  period  : x.period = g.period ∨ x.period = o.period
  offset  : x.offset = g.offset ∨ x.offset = o.offset

theorem outSetter_fieldsOf {x : OutCfg} (h : FieldsOf g o x) : ∀ f ∈ outSetters g, FieldsOf g o (f x) := by
  obtain ⟨he, hs, hq, hw, hp, ho⟩ := h
  simp only [outSetters, List.forall_mem_cons]
  exact ⟨⟨.inl rfl, hs, hq, hw, hp, ho⟩, ⟨he, .inl rfl, hq, hw, hp, ho⟩, ⟨he, hs, .inl rfl, hw, hp, ho⟩, ⟨he, hs, hq, .inl rfl, hp, ho⟩,
    ⟨he, hs, hq, hw, .inl rfl, ho⟩, ⟨he, hs, hq, hw, hp, .inl rfl⟩, List.forall_mem_nil _⟩

theorem outMerge_fieldsOf (n : Nat) (g o : OutCfg) : FieldsOf g o (outMerge n g o).1 :=
  foldl_outTake_kept (fun f hf _ hx _ => outSetter_fieldsOf hx f hf) ⟨.inr rfl, .inr rfl, .inr rfl, .inr rfl, .inr rfl, .inr rfl⟩

/-- A write that differs in one field takes it when the whole is then in range, and else counts it. -/
theorem outMerge_oneField {f : OutCfg → OutCfg} (hf : f ∈ outSetters g) (hg : g = f o) (hne : g ≠ o) :
    outMerge n g o = if outCfgOk n g then (g, 0) else (o, 1) := by
  obtain ⟨pre, post, hsplit⟩ := List.append_of_mem hf
  have hp := outSetters_apart g
  have hs := outSetter_same (g := g)
  rw [hsplit] at hp hs
  obtain ⟨-, hpost, hpre⟩ := List.pairwise_append.mp hp
  have hpost := (List.pairwise_cons.mp hpost).1
  have hpreSame : ∀ f' ∈ pre, f' o = o := fun f' hf' => (hpre f' hf' f (by simp) o).1 (by rw [← hg]; exact hs f' (by simp [hf']))
  have hpostSame : ∀ f' ∈ post, f' o = o := fun f' hf' => (hpost f' hf' o).2 (by rw [← hg]; exact hs f' (by simp [hf']))
  have htake : outTake n (o, 0) f = if outCfgOk n g then (g, 0) else (o, 1) := by
    simp [outTake, ← hg, hne]
  rw [outMerge_eq_foldl, hsplit, List.foldl_append, foldl_outTake_same (a := (o, 0)) hpreSame, List.foldl_cons, htake]
  split
  · exact foldl_outTake_same fun f' hf' => hs f' (by simp [hf'])
  · exact foldl_outTake_same hpostSame

end

/-! #### What a write leaves -/

section
variable (n : Nat) (g : OutCfg) (c : ChanClock)

/-- An output after a write: what the merge gives it, and the fields left out counted. -/
theorem outAt_outWrite : outAt (outWrite n g c) n =
    { outAt c n with cfg := (outMerge n g (outAt c n).cfg).1, cfgBad := ctrAdd (outAt c n).cfgBad (outMerge n g (outAt c n).cfg).2,
                     changedAt := if (outMerge n g (outAt c n).cfg).1 = (outAt c n).cfg then (outAt c n).changedAt else some c.time.ns } := by
  simp only [outWrite, outAt_setOut_same]
  split_ifs with h
  · rw [h]
  · rfl

theorem outAt_outWrite_other {k : Nat} (h : k ≠ n) : outAt (outWrite n g c) k = outAt c k := outAt_setOut_other c h _

theorem outWrite_unchanged (h : (outMerge n g (outAt c n).cfg).1 = (outAt c n).cfg) :
    outWrite n g c = setOut c n { outAt c n with cfgBad := ctrAdd (outAt c n).cfgBad (outMerge n g (outAt c n).cfg).2 } := by
  simp [outWrite, h]

end

/-! #### What may drive -/

section
variable {c : ChanClock} {o : Output}

theorem not_outDrives_of_invalid (h : c.time.valid = false) : outDrives c o = false := by
  simp [outDrives, outAllowed, h]

theorem src_of_outDrives (h : outDrives c o = true) :
    o.now.squelch = 0 ∨ (o.now.squelch = 1 ∧ chanSrcState c < 2) ∨ chanSrcState c = 0 := by
  simp only [outDrives, outAllowed, Bool.and_eq_true, Bool.or_eq_true, decide_eq_true_eq] at h
  tauto

end

/-- Settles O46: what a write leaves is its merge's, and what drives is allowed to. -/
theorem outputsChangeInRangeOnly : Obligations.OutputsChangeInRangeOnly := by
  unfold Obligations.OutputsChangeInRangeOnly
  intro n g c
  refine ⟨⟨fun hone hne => ?oneField, ?fields, ?sound, ?counted, ?inEffect, fun k hk => outAt_outWrite_other n g c hk⟩,
    not_outDrives_of_invalid, fun hq hd => ?squelch2, fun hq hd => ?squelch1⟩
  case oneField =>
    have hset : ∃ f ∈ outSetters g, g = f (outAt c n).cfg := by simpa [outSetters] using hone
    obtain ⟨f, hf, hg⟩ := hset
    have hmerge := outMerge_oneField (n := n) hf hg hne
    refine ⟨fun hbad => ?refused, fun hok => ?taken⟩
    case refused =>
      rw [if_neg (by simp [hbad])] at hmerge
      rw [outWrite_unchanged n g c (by rw [hmerge]), hmerge]
    case taken =>
      rw [if_pos hok] at hmerge
      simp [outAt_outWrite, hmerge, hne]
  case fields =>
    rw [outAt_outWrite]
    obtain ⟨he, hs, hq, hw, hp, ho⟩ := outMerge_fieldsOf n g (outAt c n).cfg
    exact ⟨he, hs, hq, hw, hp, ho⟩
  case sound =>
    rw [outAt_outWrite]
    exact outMerge_sound
  case counted =>
    rw [outAt_outWrite]
    exact ⟨_, outMerge_count_le n g _, rfl, outMerge_count_eq_zero_iff⟩
  case inEffect => rw [outAt_outWrite]
  case squelch2 | squelch1 =>
    have hsrc := src_of_outDrives hd
    omega

end Sys2Proof.Proofs

/-! ### Commands of sheaves and of generations (R36 to R45, R222 to R270, R400 to R410)

The leaf's rows are checked for the slot, the port, or the port and the slot that they name; the channel's for the port that they came in at, if any. -/
namespace Sys2Proof.Proofs
open Sys2Proof.Machine Sys2Proof.Laws

section
variable {f : Leaf → Leaf} {s : State} {d k : Nat} (h : leafRuns s.leaf = true)
include h

/-- A command at a slot of the leaf that there is runs at the leaf. -/
theorem atLeafSlot_runs (hk : k < 32) : need (decide (k < 32)) .noSuchSlot (leafDo f s) = .next (s.withLeaf (f s.leaf)) :=
  need_then (decide_eq_true hk) (leafDo_with h)
/-- One that names a port and a slot in one operand, of either fault. -/
theorem atLeafPortSlot_runs {φ : Fault} (hd : d < 2) (hk : k < 32) :
    need (decide (d < 2) && decide (k < 32)) φ (leafDo f s) = .next (s.withLeaf (f s.leaf)) :=
  need_then (by simp [hd, hk]) (leafDo_with h)

end

/-- Settles O17: every row is its unit's own behind the checks that its slot and its port, where it names them, are there. -/
theorem joinRows : Obligations.JoinRows := by
  unfold Obligations.JoinRows
  intro s
  refine ⟨fun h => ?leaf, fun h hq => ?chan⟩
  case leaf =>
    refine ⟨?joinGo, ?joinAck, ?suspendTimeout, ?autoJoin, ?reformNotice, ?park, ?unpark, ?leave, ?sheafClosed⟩
    case joinGo | suspendTimeout | park | unpark | leave => exact fun k hk => atLeafSlot_runs h hk
    case joinAck | reformNotice => exact fun d g hd => atLeafPort_runs h hd
    case autoJoin => exact fun k d hk hd => need_then (decide_eq_true hk) (need_then (decide_eq_true hd) (leafDo_with h))
    case sheafClosed => exact fun d k tag cause hd hk => atLeafPortSlot_runs h hd hk
  case chan =>
    refine ⟨?joinForward, ?joinAtMill, ?joinAtApex, ?routeUpdate, ?routeUpdateAck, ?routeUpdateResend, ?routeUnreachable, ?joinAck,
      ?withdrawNotice, ?formTimeout, ?suspendTimeout, ?reformNotice, ?parkNotice, ?unparkNotice, ?leave, ?closedAtApex, ?closedAtLevel,
      ?forgetPair⟩
    case joinForward | joinAtMill | joinAtApex | routeUpdate => exact fun p gs hp => atChanLink_took h hq hp
    case closedAtLevel => exact fun p g hp => atChanLink_took h hq hp
    case joinAck | reformNotice => exact fun p g hp => atChanPort_took h hq hp
    case routeUpdateAck | routeUpdateResend | withdrawNotice | formTimeout | suspendTimeout | parkNotice | unparkNotice | leave |
      closedAtApex => exact fun x => linkDo_took h hq
    case routeUnreachable => exact fun tag rank => linkDo_took h hq
    case forgetPair => exact fun tag digest => linkDo_took h hq

/-- Settles O18: every row is its unit's own behind the checks that its slot and its port, where it names them, are there. -/
theorem generationRows : Obligations.GenerationRows := by
  unfold Obligations.GenerationRows
  intro s
  refine ⟨fun h => ?leaf, fun h hq => ?chan⟩
  case leaf =>
    refine ⟨?arrive, ?launchWord, ?launchFire, ?failureWord, ?launchMissed, ?resultGranule, ?resultMissing, ?mismatchClassify⟩
    case arrive => exact fun k pay freq hk => atLeafSlot_runs h hk
    case launchFire | launchMissed | resultMissing | mismatchClassify => exact fun k gen hk => atLeafSlot_runs h hk
    case launchWord | failureWord => exact fun d g hd => atLeafPort_runs h hd
    case resultGranule => exact fun d k gen rc i status g hd hk => atLeafPortSlot_runs h hd hk
  case chan =>
    refine ⟨?arrivalToken, ?arrivalPayload, ?levelCutoff, ?partialReceived, ?partialTimeout, ?decisionTime, ?unheardTimeout,
      ?generationThreshed, ?launchWord, ?failureWord, ?resultGranule, ?outlierNote, ?mismatchNotice, ?pathSweepDone⟩
    case arrivalToken | arrivalPayload => exact fun p x hp => atChanLink_took h hq hp
    case partialReceived => exact fun p sender gs hp => atChanLink_took h hq hp
    case launchWord | failureWord => exact fun p g hp => atChanPort_took h hq hp
    case levelCutoff | decisionTime | unheardTimeout | generationThreshed | pathSweepDone => exact fun tag x => linkDo_took h hq
    case partialTimeout => exact fun tag n sender => linkDo_took h hq
    case resultGranule | outlierNote | mismatchNotice => exact fun x => linkDo_took h hq

end Sys2Proof.Proofs

/-! ### Reduction in any order and grouping (R262, R265, R268, R276)

The lanes of each operation stand for the elements of a commutative semigroup: exact sums with their flags, residues modulo 2^256, and, where a running
value is kept, a NaN's rank or a value with its rank. A contribution is a lane of its own that is merged, so a reduced lane stands for the join of what
its contributions stand for, and that join knows neither order nor grouping. -/
namespace Sys2Proof.Proofs
open Sys2Proof.Machine

/-! #### Lanes that are alike -/

/-- Two lanes are the same, the rank included where the operation returns it. -/
def AlikeLanes (op : Nat) (a b : Lane) : Prop := { b with rank := a.rank } = a ∧ (isArg op = true → b.rank = a.rank)

section
variable {f op : Nat} {a a' b b' c : Lane}

theorem AlikeLanes.refl (op : Nat) (a : Lane) : AlikeLanes op a a := ⟨rfl, fun _ => rfl⟩

theorem AlikeLanes.symm (h : AlikeLanes op a b) : AlikeLanes op b a := by
  obtain ⟨hab, hrank⟩ := h
  exact ⟨by rw [← hab], fun ho => (hrank ho).symm⟩

theorem AlikeLanes.trans (h : AlikeLanes op a b) (h' : AlikeLanes op b c) : AlikeLanes op a c := by
  obtain ⟨hab, hrank⟩ := h
  obtain ⟨hbc, hrank'⟩ := h'
  exact ⟨by rw [← hab, ← hbc], fun ho => (hrank' ho).trans (hrank ho)⟩

theorem AlikeLanes.eq_of_isArg (h : AlikeLanes op a b) (ho : isArg op = true) : a = b := by
  rw [← h.1, ← h.2 ho]

/-- An operation that returns no rank reads none. -/
theorem opMerge_rank (ho : isArg op = false) (m n r x : Nat) (nan : Bool) :
    AlikeLanes op (opMerge f op { a with rank := m } x nan n) (opMerge f op a x nan r) := by
  refine ⟨?_, by simp [ho]⟩
  unfold opMerge
  dsimp only
  repeat' split
  all_goals rfl

theorem laneMerge_rank (ho : isArg op = false) (m n : Nat) :
    AlikeLanes op (laneMerge f op { a with rank := m } { b with rank := n }) (laneMerge f op a b) := by
  have hm := (opMerge_rank (f := f) (a := a) ho m n b.rank b.v.toNat b.nan).1
  refine ⟨?_, by simp [ho]⟩
  unfold laneMerge
  dsimp only
  split_ifs with hsum hdigest hnone
  · rfl
  · rfl
  · rfl
  · rw [← hm]

/-- Merging lanes that are alike makes lanes that are alike. -/
theorem AlikeLanes.laneMerge (ha : AlikeLanes op a a') (hb : AlikeLanes op b b') :
    AlikeLanes op (laneMerge f op a b) (laneMerge f op a' b') := by
  cases ho : isArg op with
  | true => rw [ha.eq_of_isArg ho, hb.eq_of_isArg ho]; exact .refl op _
  | false => rw [← ha.1, ← hb.1]; exact laneMerge_rank ho _ _

end

/-! #### A contribution is a lane of its own -/

/-- The lane that one contribution makes, given its rank and its pattern. -/
def loneLane (f op : Nat) (c : Nat × Nat) : Lane := laneAdd f op c.1 {} c.2

/-- A lane that keeps a NaN of this rank. -/
def nanLane (f r : Nat) : Lane := { v := canonNan f, nan := true, has := true, negz := false, rank := r }
/-- A lane that keeps a value of this rank. -/
def valueLane (x r : Nat) : Lane := { v := x, has := true, negz := false, rank := r }

theorem opMerge_poison (f op : Nat) (a : Lane) (x : Nat) (nan : Bool) (r : Nat) : (opMerge f op a x nan r).poison = a.poison := by
  unfold opMerge
  dsimp only
  repeat' split
  all_goals rfl

section
variable {f op : Nat} (ho : op ≠ 0) (a : Lane) (x r : Nat)
include ho

theorem laneMerge_nanLane : laneMerge f op a (nanLane f r) = opMerge f op a (canonNan f) true r := by
  have hp := opMerge_poison f op a (canonNan f) true r
  simp [laneMerge, ho, nanLane, ← hp]

theorem laneMerge_valueLane : laneMerge f op a (valueLane x r) = opMerge f op a x false r := by
  have hp := opMerge_poison f op a x false r
  simp [laneMerge, ho, valueLane, ← hp]

end

/-- Where a running value is kept, a contribution keeps its NaN or its value. -/
theorem loneLane_of_ne {f op : Nat} (ho : op ≠ 0) (c : Nat × Nat) :
    loneLane f op c = if fmtFloat f && fNan (floatFmt f) c.2 then nanLane f c.1 else valueLane (if op = 3 then amaxOf f c.2 else c.2) c.1 := by
  unfold loneLane laneAdd
  rw [if_neg ho]
  split <;> simp_all [opMerge, nanLane, valueLane]

theorem laneAdd_eq_laneMerge (f op : Nat) (a : Lane) (c : Nat × Nat) : laneAdd f op c.1 a c.2 = laneMerge f op a (loneLane f op c) := by
  by_cases ho : op = 0
  · subst ho
    by_cases hf : f = 12
    · simp only [loneLane, laneAdd, laneMerge, hf, if_true, Int.toNat_zero, zero_add, Int.toNat_natCast, Nat.add_mod_mod,
        Bool.or_false, Bool.or_true]
    · simp only [loneLane, laneAdd, laneMerge, hf, if_true, if_false]
      split_ifs <;> simp
  · rw [loneLane_of_ne ho]
    by_cases hn : (fmtFloat f && fNan (floatFmt f) c.2) = true
    · simp [hn, laneMerge_nanLane ho, laneAdd, ho, opMerge]
    · simp [hn, laneMerge_valueLane ho, laneAdd, ho]

/-- The lane that contributions are reduced to. -/
def redLane (f op : Nat) (cs : List (Nat × Nat)) : Lane := cs.foldl (fun a c => laneAdd f op c.1 a c.2) {}

/-! #### What lanes stand for -/

/-- A commutative semigroup that the lanes of an operation stand for: `lane k` stands for k, `of c` is what a contribution stands for. -/
structure LaneReading (f op : Nat) (K : Type) where
  lane : K → Lane
  of : Nat × Nat → K
  join : K → K → K
  comm : Std.Commutative join
  assoc : Std.Associative join
  merge : ∀ k l, AlikeLanes op (lane (join k l)) (laneMerge f op (lane k) (lane l))
  merge_empty : ∀ k, AlikeLanes op (lane k) (laneMerge f op (lane k) {})
  empty_merge : ∀ k, AlikeLanes op (lane k) (laneMerge f op {} (lane k))
  lone : ∀ c : Nat × Nat, c.2 < 2 ^ fmtBits f → AlikeLanes op (lane (of c)) (loneLane f op c)

namespace LaneReading
variable {f op : Nat} {K : Type} (R : LaneReading f op K) {cs ds : List (Nat × Nat)} {a b : Lane} {k l : Option K}

/-- A lane stands for an element, or for no contribution yet. -/
def Stands : Option K → Lane → Prop
  | none, a => a = {}
  | some k, a => AlikeLanes op (R.lane k) a

/-- What contributions join to. -/
def total (cs : List (Nat × Nat)) : Option K := (cs.map (fun c => some (R.of c))).foldl (Option.merge R.join) none

theorem alike_of_stands (ha : R.Stands k a) (hb : R.Stands k b) : AlikeLanes op a b := by
  cases k with
  | none => rw [show a = {} from ha, show b = {} from hb]; exact .refl op _
  | some k => exact (AlikeLanes.symm ha).trans hb

theorem stands_laneMerge (ha : R.Stands k a) (hb : R.Stands l b) (hne : k.isSome ∨ l.isSome) :
    R.Stands (Option.merge R.join k l) (laneMerge f op a b) := by
  match k, l with
  | none, none => simp at hne
  | none, some l =>
    rw [show a = {} from ha]
    exact (R.empty_merge l).trans (AlikeLanes.laneMerge (.refl op _) hb)
  | some k, none =>
    rw [show b = {} from hb]
    exact (R.merge_empty k).trans (AlikeLanes.laneMerge ha (.refl op _))
  | some k, some l => exact (R.merge k l).trans (AlikeLanes.laneMerge ha hb)

theorem total_perm (h : cs.Perm ds) : R.total cs = R.total ds :=
  have := R.comm
  have := R.assoc
  (h.map _).foldl_op_eq

theorem total_append (cs ds : List (Nat × Nat)) : R.total (cs ++ ds) = Option.merge R.join (R.total cs) (R.total ds) := by
  have := R.assoc
  unfold total
  rw [List.map_append, List.foldl_append, ← List.foldl_assoc (op := Option.merge R.join), Option.merge_none_right]

theorem total_concat (cs : List (Nat × Nat)) (c : Nat × Nat) :
    R.total (cs ++ [c]) = Option.merge R.join (R.total cs) (some (R.of c)) := by
  simp [total]

theorem isSome_total (h : cs ≠ []) : (R.total cs).isSome := by
  rw [← List.dropLast_append_getLast h, total_concat, Option.isSome_merge]
  simp

/-- A reduced lane stands for what its contributions join to. -/
theorem stands_redLane (h : ∀ c ∈ cs, c.2 < 2 ^ fmtBits f) : R.Stands (R.total cs) (redLane f op cs) := by
  induction cs using List.reverseRecOn with
  | nil => exact rfl
  | append_singleton cs c ih =>
    have hcs := ih fun d hd => h d (List.mem_append_left _ hd)
    have hc : R.Stands (some (R.of c)) (loneLane f op c) := R.lone c (h c (by simp))
    rw [total_concat, show redLane f op (cs ++ [c]) = laneAdd f op c.1 (redLane f op cs) c.2 by simp [redLane], laneAdd_eq_laneMerge]
    exact R.stands_laneMerge hcs hc (.inr rfl)

include R

theorem redLane_perm (h : ∀ c ∈ cs ++ ds, c.2 < 2 ^ fmtBits f) (hp : cs.Perm ds) : AlikeLanes op (redLane f op cs) (redLane f op ds) := by
  have hcs := R.stands_redLane fun c hc => h c (List.mem_append_left _ hc)
  have hds := R.stands_redLane fun c hc => h c (List.mem_append_right _ hc)
  rw [R.total_perm hp] at hcs
  exact R.alike_of_stands hcs hds

theorem redLane_append (h : ∀ c ∈ cs ++ ds, c.2 < 2 ^ fmtBits f) (hne : cs ++ ds ≠ []) :
    AlikeLanes op (redLane f op (cs ++ ds)) (laneMerge f op (redLane f op cs) (redLane f op ds)) := by
  have hcs := R.stands_redLane fun c hc => h c (List.mem_append_left _ hc)
  have hds := R.stands_redLane fun c hc => h c (List.mem_append_right _ hc)
  have hsome := R.isSome_total hne
  rw [total_append, Option.isSome_merge, Bool.or_eq_true] at hsome
  refine R.alike_of_stands (R.stands_redLane h) ?_
  rw [total_append]
  exact R.stands_laneMerge hcs hds hsome

end LaneReading

/-! #### Sums and digests -/

section
variable {f : Nat}

theorem laneMerge_sum (hf : f ≠ 12) (a b : Lane) :
    laneMerge f 0 a b = { v := a.v + b.v, nan := a.nan || b.nan, pinf := a.pinf || b.pinf, ninf := a.ninf || b.ninf, poison := a.poison || b.poison,
                          negz := a.negz && b.negz, has := a.has || b.has, rank := a.rank } := by
  simp [laneMerge, hf]

/-- An exact sum stands for itself, its rank left out. -/
def sumReading (hf : f ≠ 12) : LaneReading f 0 Lane where
  lane := id
  of := loneLane f 0
  join a b := { laneMerge f 0 a b with rank := 0 }
  comm := ⟨fun a b => by simp [laneMerge_sum hf, add_comm, Bool.or_comm, Bool.and_comm]⟩
  assoc := ⟨fun a b c => by simp [laneMerge_sum hf, add_assoc, Bool.or_assoc, Bool.and_assoc]⟩
  merge _ _ := ⟨rfl, by simp [isArg]⟩
  merge_empty a := by simpa [laneMerge_sum hf] using .refl 0 a
  empty_merge a := by simp [AlikeLanes, laneMerge_sum hf, isArg]
  lone c _ := .refl 0 _

/-- A digest stands for its residue modulo 2^256. -/
def digestReading : LaneReading 12 0 (BitVec 256) where
  lane x := { v := x.toNat, negz := false, has := true }
  of c := BitVec.ofNat 256 c.2
  join := (· + ·)
  comm := ⟨BitVec.add_comm⟩
  assoc := ⟨BitVec.add_assoc⟩
  merge x y := by simpa [laneMerge, -Nat.reducePow] using .refl 0 _
  merge_empty x := by simpa only [laneMerge, Int.toNat_natCast, Int.toNat_zero, add_zero, Nat.mod_eq_of_lt x.isLt] using .refl 0 _
  empty_merge x := by simpa only [laneMerge, Int.toNat_natCast, Int.toNat_zero, zero_add, Nat.mod_eq_of_lt x.isLt] using .refl 0 _
  lone c _ := by simpa [loneLane, laneAdd] using .refl 0 _

end

/-! #### The order of patterns -/

section
variable {f x y : Nat}

theorem toSigned_inj {w : Nat} (hx : x < 2 ^ w) (hy : y < 2 ^ w) (h : toSigned w x = toSigned w y) : x = y := by
  simp only [toSigned, Nat.mod_eq_of_lt hx, Nat.mod_eq_of_lt hy] at h
  split_ifs at h <;> omega

theorem fmtBits_eq_of_float (hf : fmtFloat f = true) : fmtBits f = (floatFmt f).eb + (floatFmt f).fb + 1 := by
  obtain ⟨h4, h9⟩ : 4 ≤ f ∧ f ≤ 9 := by simpa [fmtFloat] using hf
  interval_cases f <;> rfl

/-- A pattern is its sign and its magnitude. -/
theorem eq_sign_add_magnitude {t : FloatFmt} (hx : x < 2 ^ (t.eb + t.fb + 1)) :
    x = (if fSign t x then 2 ^ (t.eb + t.fb) else 0) + x % 2 ^ (t.eb + t.fb) := by
  have hdiv : x / 2 ^ (t.eb + t.fb) < 2 := Nat.div_lt_of_lt_mul (by rwa [← pow_succ])
  have hsplit := Nat.div_add_mod x (2 ^ (t.eb + t.fb))
  unfold fSign
  rw [Nat.testBit_eq_decide_div_mod_eq, Nat.mod_eq_of_lt hdiv]
  generalize x / 2 ^ (t.eb + t.fb) = q at *
  interval_cases q <;> simpa using hsplit.symm

theorem fKey_inj {t : FloatFmt} (hx : x < 2 ^ (t.eb + t.fb + 1)) (hy : y < 2 ^ (t.eb + t.fb + 1)) (h : fKey t x = fKey t y) : x = y := by
  rw [eq_sign_add_magnitude hx, eq_sign_add_magnitude hy]
  unfold fKey at h
  split_ifs at h ⊢ <;> omega

/-- No two patterns of a format compare alike. -/
theorem cmpKey_inj (hx : x < 2 ^ fmtBits f) (hy : y < 2 ^ fmtBits f) (h : cmpKey f x = cmpKey f y) : x = y := by
  unfold cmpKey at h
  split_ifs at h with hf hs
  · rw [fmtBits_eq_of_float hf] at hx hy
    exact fKey_inj hx hy h
  · exact toSigned_inj hx hy h
  · exact Int.ofNat_inj.mp h

theorem fmtBits_pos (f : Nat) : 0 < fmtBits f := by
  unfold fmtBits
  split <;> decide

theorem amaxOf_lt (f x : Nat) : amaxOf f x < 2 ^ fmtBits f := by
  have hhalf : 2 ^ fmtBits f = 2 * 2 ^ (fmtBits f - 1) := by rw [← pow_succ', Nat.sub_add_cancel (fmtBits_pos f)]
  have hpos := Nat.two_pow_pos (fmtBits f - 1)
  have hmod := Nat.mod_lt x (Nat.two_pow_pos (fmtBits f))
  unfold amaxOf toSigned
  split_ifs
  · have := Nat.mod_lt x hpos; omega
  · omega
  · omega

end

/-! #### Running values -/

/-- What a lane keeps of the contributions to an operation other than `SUM`: the rank of a NaN, or a value with its rank. -/
inductive Kept (f : Nat) where
  | nan (r : Nat)
  | value (p : BitVec (fmtBits f) × Nat)

namespace Kept
variable {f op : Nat}

/-- What an operation that picks one value compares, the least being picked (R265). -/
def key (op : Nat) (x : BitVec (fmtBits f)) : Int :=
  match op with
  | 1 | 4 => cmpKey f x.toNat
  | 2 | 5 => -cmpKey f x.toNat
  | _ => -x.toNat

theorem key_inj : Function.Injective (key (f := f) op) := by
  intro x y h
  refine BitVec.eq_of_toNat_eq ?_
  unfold key at h
  split at h
  case h_1 | h_2 => exact cmpKey_inj x.isLt y.isLt h
  case h_3 | h_4 => exact cmpKey_inj x.isLt y.isLt (neg_inj.mp h)
  case h_5 => exact Int.ofNat_inj.mp (neg_inj.mp h)

/-- The place of a value in an operation's order, the lower rank first among equals (R265). -/
def place (op : Nat) (p : BitVec (fmtBits f) × Nat) : ℤ ×ₗ ℕ := toLex (key op p.1, p.2)

theorem place_inj : Function.Injective (place (f := f) op) := by
  intro p q h
  obtain ⟨hkey, hrank⟩ := Prod.mk.inj (toLex.injective h)
  exact Prod.ext (key_inj hkey) hrank

theorem place_lt_iff {p q : BitVec (fmtBits f) × Nat} : place op p < place op q ↔ key op p.1 < key op q.1 ∨ p.1 = q.1 ∧ p.2 < q.2 := by
  rw [place, place, Prod.Lex.toLex_lt_toLex, key_inj.eq_iff]

/-- The value that comes first in an operation's order. -/
def least (op : Nat) (p q : BitVec (fmtBits f) × Nat) : BitVec (fmtBits f) × Nat := if place op q < place op p then q else p

theorem place_least (p q : BitVec (fmtBits f) × Nat) : place op (least op p q) = min (place op p) (place op q) := by
  unfold least
  split_ifs with h
  · exact (min_eq_right h.le).symm
  · exact (min_eq_left (not_lt.mp h)).symm

theorem least_comm (p q : BitVec (fmtBits f) × Nat) : least op p q = least op q p :=
  place_inj (op := op) (by simp only [place_least, min_comm])

theorem least_assoc (p q t : BitVec (fmtBits f) × Nat) : least op (least op p q) t = least op p (least op q t) :=
  place_inj (op := op) (by simp only [place_least, min_assoc])

/-- Two values met bit by bit, the rank being the lower one. -/
def bitwise (g : BitVec (fmtBits f) → BitVec (fmtBits f) → BitVec (fmtBits f)) (p q : BitVec (fmtBits f) × Nat) : BitVec (fmtBits f) × Nat :=
  (g p.1 q.1, min p.2 q.2)

/-- Two values with their ranks meet (R265). -/
def meet (op : Nat) : BitVec (fmtBits f) × Nat → BitVec (fmtBits f) × Nat → BitVec (fmtBits f) × Nat :=
  match op with
  | 1 | 2 | 3 | 4 | 5 => least op
  | 6 => bitwise (· &&& ·)
  | 7 => bitwise (· ||| ·)
  | _ => bitwise (· ^^^ ·)

/-- Values meet by an order or bit by bit. -/
theorem meet_cases (f op : Nat) :
    meet (f := f) op = least op ∨ ∃ g, Std.Commutative g ∧ Std.Associative g ∧ meet (f := f) op = bitwise g := by
  unfold meet
  split
  case h_1 | h_2 | h_3 | h_4 | h_5 => exact .inl rfl
  case h_6 => exact .inr ⟨_, ⟨BitVec.and_comm⟩, ⟨BitVec.and_assoc⟩, rfl⟩
  case h_7 => exact .inr ⟨_, ⟨BitVec.or_comm⟩, ⟨BitVec.or_assoc⟩, rfl⟩
  case h_8 => exact .inr ⟨_, ⟨BitVec.xor_comm⟩, ⟨BitVec.xor_assoc⟩, rfl⟩

theorem meet_comm (p q : BitVec (fmtBits f) × Nat) : meet op p q = meet op q p := by
  obtain h | ⟨g, hcomm, -, h⟩ := meet_cases f op
  · rw [h, least_comm]
  · rw [h, bitwise, bitwise, hcomm.comm, min_comm]

theorem meet_assoc (p q t : BitVec (fmtBits f) × Nat) : meet op (meet op p q) t = meet op p (meet op q t) := by
  obtain h | ⟨g, -, hassoc, h⟩ := meet_cases f op
  · rw [h, least_assoc]
  · simp only [h, bitwise, hassoc.assoc, min_assoc]

/-- What two lanes keep, merged: a NaN wins, and of two the lower rank (R265). -/
def join (op : Nat) : Kept f → Kept f → Kept f
  | nan r, nan s => nan (min r s)
  | nan r, value _ => nan r
  | value _, nan s => nan s
  | value p, value q => value (meet op p q)

theorem join_comm (k l : Kept f) : join op k l = join op l k := by
  cases k <;> cases l <;> simp [join, min_comm, meet_comm]

theorem join_assoc (k l m : Kept f) : join op (join op k l) m = join op k (join op l m) := by
  cases k <;> cases l <;> cases m <;> simp [join, min_assoc, meet_assoc]

/-- The lane that keeps it. -/
def lane : Kept f → Lane
  | nan r => nanLane f r
  | value p => valueLane p.1.toNat p.2

/-- What a contribution leaves to keep. -/
def of (f op : Nat) (c : Nat × Nat) : Kept f :=
  if fmtFloat f && fNan (floatFmt f) c.2 then nan c.1 else value (BitVec.ofNat _ (if op = 3 then amaxOf f c.2 else c.2), c.1)

section
variable {c : Prop} [Decidable c] (p q : BitVec (fmtBits f) × Nat) (hc : c ↔ key op q.1 < key op p.1)
include hc

/-- The first value in the order is kept with its rank, and among equal values the lower rank. -/
theorem lane_least :
    lane (value (least op p q)) = if c then valueLane q.1.toNat q.2
      else if q.1.toNat = p.1.toNat ∧ q.2 < p.2 then valueLane p.1.toNat q.2 else valueLane p.1.toNat p.2 := by
  rw [least]
  by_cases hkey : key op q.1 < key op p.1
  · simp [hc, hkey, place_lt_iff, lane]
  · by_cases heq : q.1 = p.1 ∧ q.2 < p.2
    · simp [hc, place_lt_iff, lane, heq]
    · simp [hc, hkey, place_lt_iff, lane, heq, BitVec.toNat_inj]

/-- Where no rank is returned, it does not matter whose stays. -/
theorem alike_least (ho : isArg op = false) :
    AlikeLanes op (lane (value (least op p q))) (if c then valueLane q.1.toNat p.2 else valueLane p.1.toNat p.2) := by
  rw [lane_least p q hc]
  refine ⟨?_, by simp [ho]⟩
  split_ifs <;> rfl

end

/-- A value that meets another in a lane leaves what `meet` says. -/
theorem opMerge_valueLane (p q : BitVec (fmtBits f) × Nat) :
    AlikeLanes op (lane (value (meet op p q))) (opMerge f op (valueLane p.1.toNat p.2) q.1.toNat false q.2) := by
  unfold opMerge meet
  split
  case h_1 => exact alike_least p q .rfl rfl
  case h_2 => exact alike_least p q (by simp [key, valueLane]) rfl
  case h_3 => exact alike_least p q (by simp [key, valueLane]) rfl
  case h_4 => rw [lane_least p q .rfl]; exact .refl 4 _
  case h_5 => rw [lane_least p q (op := 5) neg_lt_neg_iff.symm]; exact .refl 5 _
  case h_6 | h_7 => exact ⟨rfl, by simp [isArg]⟩
  case h_8 h4 h5 _ _ =>
    have ho : isArg op = false := decide_eq_false (not_or.mpr ⟨h4, h5⟩)
    exact ⟨by simp [*, lane, valueLane, bitwise], by simp [ho]⟩

theorem lane_join (ho : op ≠ 0) (k l : Kept f) : AlikeLanes op (lane (join op k l)) (laneMerge f op (lane k) (lane l)) := by
  cases l with
  | nan s =>
    rw [show lane (nan s) = nanLane f s from rfl, laneMerge_nanLane ho]
    cases k <;> exact .refl op _
  | value q =>
    rw [show lane (value q) = valueLane q.1.toNat q.2 from rfl, laneMerge_valueLane ho]
    cases k with
    | nan r => exact .refl op _
    | value p => exact opMerge_valueLane p q

theorem lane_of (ho : op ≠ 0) {c : Nat × Nat} (hc : c.2 < 2 ^ fmtBits f) : lane (of f op c) = loneLane f op c := by
  have hx : (if op = 3 then amaxOf f c.2 else c.2) < 2 ^ fmtBits f := by
    split_ifs
    · exact amaxOf_lt f c.2
    · exact hc
  rw [loneLane_of_ne ho, of]
  split_ifs <;> simp_all [lane, Nat.mod_eq_of_lt]

end Kept

/-- A lane that keeps a running value stands for what it keeps. -/
def keptReading {f op : Nat} (ho : op ≠ 0) : LaneReading f op (Kept f) where
  lane := Kept.lane
  of := Kept.of f op
  join := Kept.join op
  comm := ⟨Kept.join_comm⟩
  assoc := ⟨Kept.join_assoc⟩
  merge := Kept.lane_join ho
  merge_empty k := by simpa [laneMerge, ho] using .refl op _
  empty_merge k := by
    cases k with
    | nan r => rw [Kept.lane, laneMerge_nanLane ho]; exact .refl op _
    | value p => rw [Kept.lane, laneMerge_valueLane ho]; exact .refl op _
  lone c hc := by rw [Kept.lane_of ho hc]; exact .refl op _

/-! #### Every format and operation -/

/-- Every format's and operation's lanes stand for the elements of a commutative semigroup. -/
theorem exists_laneReading (f op : Nat) : ∃ K, Nonempty (LaneReading f op K) := by
  by_cases ho : op = 0
  · subst ho
    by_cases hf : f = 12
    · subst hf; exact ⟨_, ⟨digestReading⟩⟩
    · exact ⟨_, ⟨sumReading hf⟩⟩
  · exact ⟨_, ⟨keptReading ho⟩⟩

/-- Settles O49: a reduced lane stands for the join of its contributions, which is the same in every order and grouping. -/
theorem reductionOrderFree : Obligations.ReductionOrderFree := by
  unfold Obligations.ReductionOrderFree
  intro f op _ _ red alike cs ds h
  obtain ⟨K, ⟨R⟩⟩ := exists_laneReading f op
  exact ⟨R.redLane_perm h, R.redLane_append h⟩

end Sys2Proof.Proofs

/-! ### Commands of the reduction engines and the mill (R286, R311 to R328, R415, R416) -/
namespace Sys2Proof.Proofs
open Sys2Proof.Machine Sys2Proof.Laws

/-- A command at one of the `m` threshers, or cluster islands (R328), that there are runs at the channel. -/
theorem atEngine_took {f : Chan → Chan} {s : State} {n m : Nat} (h : chanPowered s.box.mod = true) (hn : n < m) :
    ∃ t, need (decide (n < m)) .noSuchEngine (chanDo f s) = .next t ∧ s.chanTook f t :=
  need_some (decide_eq_true hn) (chanDo_took h)

/-- Settles O19: every row is its unit's own behind the check that its engine or its port, where it names one, is there; of the channel's only the
vectors of a port need it out of QUARANTINE. -/
theorem engineRows : Obligations.EngineRows := by
  unfold Obligations.EngineRows
  intro s
  refine ⟨fun h => ?leaf, fun h => ?chanNoPort, fun h hq => ?chanPorts⟩
  case leaf =>
    refine ⟨?historyDecay, ?engineVectorTest⟩
    case historyDecay => exact fun n => leafDo_with h
    case engineVectorTest => exact fun d pass hd => atLeafPort_runs h hd
  case chanNoPort =>
    refine ⟨?taskComplete, ?thresherSteal, ?starvePromote, ?loadWindow, ?idleSelftest, ?saturationEnter, ?saturationExit, ?clusterLost,
      ?historyDecay⟩
    case starvePromote | loadWindow | saturationEnter | saturationExit => exact chanDo_took h
    case historyDecay => exact fun n => chanDo_took h
    case thresherSteal | clusterLost => exact fun n hn => atEngine_took h hn
    case taskComplete => exact fun t ok ht => atEngine_took h ht
    case idleSelftest => exact fun kind ix pass hok => need_some hok (chanDo_took h)
  case chanPorts => exact fun p pass hp => atChanPort_took h hq hp

end Sys2Proof.Proofs

/-! ### The ring (R69, R334, R338, R348) -/
namespace Sys2Proof.Proofs
open Sys2Proof.Machine Sys2Proof.Laws

section
variable (c : Chan) (typ tag rc : Nat) (body : List Gran) (size : Nat)

/-- The record that a write to the ring makes: the header of R338 with the next `LEDGER_SEQ`, then the body, at the append point (R334). -/
def ringRec : Rec :=
  { seq := c.gran.nextSeq, typ := typ, tag := tag, rc := rc, at_ := chanNs c, grans := recHeader c typ tag rc (body.length + 1) :: body,
    stks := unitStacks c c.gran.append (32 * (body.length + 1)), rgns := unitRegions c c.gran.append (32 * (body.length + 1)) }

/-- The ring keeps what fits of the record and those before it, the newest first. -/
theorem recWriteAt_ring_recs :
    (recWriteAt c typ tag rc body true size).1.gran.recs = keepFit (ringBytes c) (ringRec c typ tag rc body :: c.gran.recs) := rfl

/-- `LEDGER_SEQ` counts on and sticks at its largest value (R69), wherever the record goes. -/
theorem recWriteAt_nextSeq (ring : Bool) (ev : Option Ev) :
    (recWriteAt c typ tag rc body ring size ev).1.gran.nextSeq = satN (2 ^ 64 - 1) (c.gran.nextSeq + 1) := by
  cases ring <;> rfl

end

/-- Settles O50: what fits of the new record and those before it is the longest run of the newest that does. -/
theorem ringEvictsOldestFirst : Obligations.RingEvictsOldestFirst := by
  unfold Obligations.RingEvictsOldestFirst
  intro c typ tag rc body size
  obtain ⟨k, -, hkept, hfits, hlongest⟩ := keepFit_spec (ringRec c typ tag rc body :: c.gran.recs) (ringBytes c)
  have hrecs := (recWriteAt_ring_recs c typ tag rc body size).trans hkept
  refine ⟨ringRec c typ tag rc body, k, rfl, rfl, rfl, rfl, hrecs, ?fits, fun hk => ?longest, ?nextSeq⟩
  case fits => rw [hrecs]; exact hfits
  case longest => exact hlongest (Nat.lt_succ_of_le hk)
  case nextSeq => rw [recWriteAt_nextSeq, satN_eq_ite_le]

end Sys2Proof.Proofs

/-! ### Commands of the granary (R335, R336, R343 to R357, R376 to R378, R578) -/
namespace Sys2Proof.Proofs
open Sys2Proof.Machine Sys2Proof.Laws

section
variable {s : State} {n m : Nat} {φ : Fault}

/-- A command at the leaf that names one of `m` things runs there, whatever the fault for another. -/
theorem atLeafBelow_runs {f : Leaf → Leaf} (h : leafRuns s.leaf = true) (hn : n < m) :
    need (decide (n < m)) φ (leafDo f s) = .next (s.withLeaf (f s.leaf)) :=
  need_then (decide_eq_true hn) (leafDo_with h)
/-- One at the channel, in QUARANTINE too. -/
theorem atChanBelow_took {f : Chan → Chan} (h : chanPowered s.box.mod = true) (hn : n < m) :
    ∃ t, need (decide (n < m)) φ (chanDo f s) = .next t ∧ s.chanTook f t :=
  need_some (decide_eq_true hn) (chanDo_took h)

end

/-- Settles O20: every row is its unit's own behind the check that its handle, port, region or stack, where it names one, is there; of the channel's
only those of a packet it carries need it out of QUARANTINE. -/
theorem granaryRows : Obligations.GranaryRows := by
  unfold Obligations.GranaryRows
  intro s
  refine ⟨fun h => ?leaf, fun h => ?chanOwn, fun h hq => ?chanPackets⟩
  case leaf =>
    refine ⟨?captureDescriptor, ?captureDataBeat, ?captureIdleTimeout, ?siloMode, ?replayRecord, ?replayFetchTimeout, ?replayEnd,
      ?gleanerPassStart, ?gleanerGranule, ?bucketLeak⟩
    case captureDescriptor => exact fun k g hk => atLeafBelow_runs h hk
    case captureDataBeat => exact fun k g nbytes eop hk => atLeafBelow_runs h hk
    case captureIdleTimeout => exact fun k hk => atLeafBelow_runs h hk
    case siloMode | replayRecord => exact fun d x hd => atLeafBelow_runs h hd
    case replayEnd => exact fun d hd => atLeafBelow_runs h hd
    case replayFetchTimeout | bucketLeak => exact leafDo_with h
    case gleanerPassStart | gleanerGranule => exact need_then (f := .noSuchRegion) rfl (leafDo_with h)
  case chanOwn =>
    refine ⟨?captureCloseTimeout, ?ledgerRoot, ?retentionCheck, ?regionMigrationDone, ?stackLost, ?gleanerPassStart, ?gleanerGranule,
      ?bucketLeak⟩
    case ledgerRoot | retentionCheck | bucketLeak => exact chanDo_took h
    case captureCloseTimeout => exact fun p k seq hp => atChanBelow_took h hp
    case regionMigrationDone | stackLost => exact fun k hk => atChanBelow_took h hk
    case gleanerPassStart => exact fun w hw => need_some hw (chanDo_took h)
    case gleanerGranule => exact fun w g f raced seq gran hread => need_some hread (chanDo_took h)
  case chanPackets =>
    refine ⟨?captureOpenPacket, ?captureDataPacket, ?captureClosePacket, ?replayFetch, ?replayEndStream, ?replayEndPass, ?compareFind⟩
    case captureOpenPacket | captureDataPacket | captureClosePacket => exact fun p x y hp => atChanLink_took h hq hp
    case replayFetch => exact fun p g hp => atChanLink_took h hq hp
    case replayEndStream => exact fun cmd rank => need_some (f := .noSuchPort) rfl (linkDo_took h hq)
    case replayEndPass => exact fun g => need_some (f := .noSuchPort) rfl (linkDo_took h hq)
    case compareFind => exact fun g d => linkDo_took h hq

end Sys2Proof.Proofs

/-! ### The granule code (R361 to R369)

In the code's field root j of the generator is the j-th power of doubling, so that an error in one symbol adds its value, doubled j times for each
position above the lowest, to syndrome j. The decoder's search finds the one position at which doublings explain all four syndromes. -/
namespace Sys2Proof.Proofs
open Sys2Proof.Machine Sys2Proof.Laws

/-! #### Doubling -/
theorem gfMul_two : ∀ x < 256, gfMul 8 x 2 = gfDouble x := by decide +kernel
/-- The field's polynomial is zero in it. -/
theorem gfMul_polynomial : ∀ x < 256, gfMul 9 x 0x11D = 0 := by decide +kernel
theorem gfDouble_eq_zero : ∀ x < 256, gfDouble x = 0 → x = 0 := by decide +kernel
/-- No element but zero comes back to itself within the length of a word: the code tells its positions apart. -/
theorem gfDouble_no_cycle : ∀ v < 256, v ≠ 0 → v ∉ List.iterate gfDouble (gfDouble v) 40 := by decide +kernel

theorem gfDouble_inj {x y : Nat} (hx : x < 256) (hy : y < 256) (h : gfDouble x = gfDouble y) : x = y := by
  have hz : gfDouble (x ^^^ y) = 0 := by rw [gfDouble_xor hx hy, h, Nat.xor_self]
  exact Nat.xor_eq_zero_iff.mp (gfDouble_eq_zero _ (xor_lt256 hx hy) hz)

theorem gfMul_even (n x y : Nat) : gfMul (n + 1) x (2 * y) = gfMul n (gfDouble x) y := by
  rw [gfMul_succ, if_neg (by omega), Nat.zero_xor, Nat.mul_div_cancel_left y (by omega)]

theorem gfMul_double_left (n : Nat) {x : Nat} (y : Nat) (hx : x < 256) : gfMul n (gfDouble x) y = gfDouble (gfMul n x y) := by
  induction n generalizing x y with
  | zero => rfl
  | succ n ih =>
    have hd := gfDouble_lt x hx
    rw [gfMul_succ, gfMul_succ, ih _ hd, gfDouble_xor (by split <;> omega) (gfMul_lt n _ _ hd)]
    split <;> rfl

/-- Bits of the multiplier above those counted do not matter. -/
theorem gfMul_extra {n y : Nat} (x : Nat) (hy : y < 2 ^ n) : gfMul (n + 1) x y = gfMul n x y := by
  induction n generalizing x y with
  | zero =>
    obtain rfl : y = 0 := by omega
    simp [gfMul]
  | succ n ih => rw [gfMul_succ, ih _ (by omega), ← gfMul_succ]

theorem gfMul_xor_right (n x y z : Nat) : gfMul n x (y ^^^ z) = gfMul n x y ^^^ gfMul n x z := by
  induction n generalizing x y z with
  | zero => simp [gfMul]
  | succ n ih =>
    simp only [gfMul_succ, Nat.xor_div_two, ih, Nat.xor_mod_two_eq_one]
    split_ifs <;> simp_all [Nat.xor_assoc, Nat.xor_left_comm]

/-- A product doubles with either factor. -/
theorem gfMul_double_right {x y : Nat} (hx : x < 256) (hy : y < 256) : gfMul 8 x (gfDouble y) = gfDouble (gfMul 8 x y) := by
  have h2y : gfMul 9 x (2 * y) = gfDouble (gfMul 8 x y) := by rw [gfMul_even, gfMul_double_left 8 y hx]
  rw [← gfMul_extra x (gfDouble_lt y hy), gfDouble_eq y hy, gfMul_xor_right, h2y]
  split
  · rw [gfMul_polynomial x hx, Nat.xor_zero]
  · rw [show gfMul 9 x 0 = 0 by simp [gfMul], Nat.xor_zero]

theorem gfPow_lt : ∀ p, gfPow p < 256
  | 0 => by simp [gfPow]
  | p + 1 => gfMul_lt 8 _ _ (gfPow_lt p)

/-- A product with a power of the generator's root is as many doublings. -/
theorem gfMul_gfPow {x : Nat} (hx : x < 256) (p : Nat) : gfMul 8 x (gfPow p) = gfDouble^[p] x := by
  induction p with
  | zero => simp [gfPow, gfMul]
  | succ p ih => rw [gfPow, gfMul_two _ (gfPow_lt p), gfMul_double_right hx (gfPow_lt p), ih, Function.iterate_succ_apply']

theorem iterate_gfDouble_lt {x : Nat} (hx : x < 256) (n : Nat) : gfDouble^[n] x < 256 := gfMul_gfPow hx n ▸ gfMul_lt 8 _ _ hx

theorem iterate_gfDouble_inj {x y : Nat} (hx : x < 256) (hy : y < 256) {n : Nat} (h : gfDouble^[n] x = gfDouble^[n] y) : x = y := by
  induction n with
  | zero => exact h
  | succ n ih =>
    rw [Function.iterate_succ_apply', Function.iterate_succ_apply'] at h
    exact ih (gfDouble_inj (iterate_gfDouble_lt hx n) (iterate_gfDouble_lt hy n) h)

theorem iterate_gfDouble_ne {v p q : Nat} (hv : v < 256) (h0 : v ≠ 0) (hpq : p < q) (hq : q < 41) : gfDouble^[p] v ≠ gfDouble^[q] v := by
  intro h
  obtain ⟨k, rfl⟩ := Nat.exists_eq_add_of_lt hpq
  rw [Nat.add_assoc, Function.iterate_add_apply] at h
  have hk : v = gfDouble^[k] (gfDouble v) := iterate_gfDouble_inj hv (iterate_gfDouble_lt hv (k + 1)) h
  exact gfDouble_no_cycle v hv h0 (List.mem_iterate.mpr ⟨k, by omega, hk⟩)

/-- Doublings tell the positions of a word apart. -/
theorem iterate_gfDouble_eq_iff {v p q : Nat} (hv : v < 256) (h0 : v ≠ 0) (hp : p < 41) (hq : q < 41) :
    gfDouble^[p] v = gfDouble^[q] v ↔ q = p := by
  refine ⟨fun h => ?_, fun h => h ▸ rfl⟩
  obtain hlt | heq | hgt := lt_trichotomy p q
  · exact absurd h (iterate_gfDouble_ne hv h0 hlt hq)
  · exact heq.symm
  · exact absurd h.symm (iterate_gfDouble_ne hv h0 hgt hp)

/-! #### Reading a word at a root -/
/-- The step of a syndrome: the next symbol joins. -/
def atRoot (j acc s : Nat) : Nat := timesRoot j acc ^^^ s

theorem timesRoot_eq (j : Nat) {x : Nat} (hx : x < 256) : timesRoot j x = gfDouble^[j] x := gfMul_gfPow hx j

theorem iterate_timesRoot (j n : Nat) {x : Nat} (hx : x < 256) : (timesRoot j)^[n] x = gfDouble^[j * n] x := by
  induction n with
  | zero => rfl
  | succ n ih =>
    rw [Function.iterate_succ_apply', ih, timesRoot_eq j (iterate_gfDouble_lt hx _), ← Function.iterate_add_apply, Nat.mul_succ, Nat.add_comm]

/-- What is added to a reading before `l` is carried through the symbols of `l`. -/
theorem foldl_atRoot_xor (j : Nat) {l : List Nat} (hl : ∀ x ∈ l, x < 256) {a e : Nat} (ha : a < 256) (he : e < 256) :
    l.foldl (atRoot j) (a ^^^ e) = l.foldl (atRoot j) a ^^^ (timesRoot j)^[l.length] e := by
  induction l generalizing a e with
  | nil => rfl
  | cons x l ih =>
    have hx : x < 256 := hl x (by simp)
    have hstep : atRoot j (a ^^^ e) x = atRoot j a x ^^^ timesRoot j e := by
      simp only [atRoot, timesRoot_xor j ha he]
      ac_rfl
    have hacc : atRoot j a x < 256 := xor_lt256 (timesRoot_lt j ha) hx
    rw [List.foldl_cons, hstep, ih (fun y hy => hl y (by simp [hy])) hacc (timesRoot_lt j he)]
    rfl

/-- The byte of a granule that holds the symbol at a position: check symbols stand above the data (R361, R362). -/
def symbolByte (p : Nat) : Nat := if p < 4 then p + 32 else p - 4
theorem rsPosBit_eq (p : Nat) : rsPosBit p = 8 * symbolByte p := by
  unfold rsPosBit symbolByte
  split <;> omega

/-- The symbols of the virtual word, by position: those stored, then those of the fold. -/
def wordSymbol (g f p : Nat) : Nat :=
  if p < 36 then bitsOf g (8 * symbolByte p + 7) (8 * symbolByte p) else bitsOf f (8 * (p - 36) + 7) (8 * (p - 36))

theorem bitsOf_symbol_lt (v k : Nat) : bitsOf v (k + 7) k < 256 := by
  unfold bitsOf
  rw [show k + 7 + 1 - k = 8 by omega]
  exact Nat.mod_lt _ (by norm_num)

theorem wordSymbol_lt (g f p : Nat) : wordSymbol g f p < 256 := by
  unfold wordSymbol
  split
  · exact bitsOf_symbol_lt g _
  · exact bitsOf_symbol_lt f _

/-- The word as a syndrome reads it, from position `n - 1` down. -/
def wordBelow (g f n : Nat) : List Nat := (List.range n).reverse.map (wordSymbol g f)

@[simp] theorem length_wordBelow (g f n : Nat) : (wordBelow g f n).length = n := by simp [wordBelow]
theorem wordBelow_lt (g f n : Nat) : ∀ x ∈ wordBelow g f n, x < 256 := by
  simp only [wordBelow, List.forall_mem_map]
  exact fun p _ => wordSymbol_lt g f p
theorem wordBelow_succ (g f n : Nat) : wordBelow g f (n + 1) = wordSymbol g f n :: wordBelow g f n := by
  simp [wordBelow, List.range_succ]

theorem bitsOf_mod (g : Nat) {k : Nat} (hk : k + 8 ≤ 256) : bitsOf (g % 2 ^ 256) (k + 7) k = bitsOf g (k + 7) k := by
  unfold bitsOf
  rw [show k + 7 + 1 - k = 8 by omega]
  apply Nat.eq_of_testBit_eq
  intro i
  simp only [Nat.testBit_mod_two_pow, Nat.testBit_shiftRight]
  by_cases hi : i < 8
  · simp [hi, show k + i < 256 by omega]
  · simp [hi]

theorem rsSyndrome_eq (g f j : Nat) : rsSyndrome g f j = (wordBelow g f 41).foldl (atRoot j) 0 := by
  have hpos : (List.range (4 + 32 + 5)).reverse =
      (List.range 5).reverse.map (4 + 32 + ·) ++ ((List.range 32).reverse.map (4 + ·) ++ (List.range 4).reverse) := by
    simp only [List.range_add, List.reverse_append, List.map_reverse]
  have hfold : ∀ m, wordSymbol g f (4 + 32 + m) = bitsOf f (8 * m + 7) (8 * m) := fun m => by
    simp [wordSymbol]
  have hdata : ∀ i ∈ (List.range 32).reverse, wordSymbol g f (4 + i) = bitsOf (g % 2 ^ 256) (8 * i + 7) (8 * i) := fun i hi => by
    have hi : i < 32 := by simpa using hi
    rw [bitsOf_mod g (by omega)]
    simp [wordSymbol, symbolByte, show 4 + i < 36 by omega]
  have hcheck : ∀ c ∈ (List.range 4).reverse, wordSymbol g f c = bitsOf g (8 * c + 263) (8 * c + 256) := fun c hc => by
    have hc : c < 4 := by simpa using hc
    simp [wordSymbol, symbolByte, hc, show c < 36 by omega, Nat.mul_add]
  have hword : (List.range 41).reverse.map (wordSymbol g f) = rsHigh (g % 2 ^ 256) f ++ (List.range 4).reverse.map (fun c => bitsOf g (8 * c + 263) (8 * c + 256)) := by
    rw [show 41 = 4 + 32 + 5 from rfl, hpos, List.map_append, List.map_append, List.map_map, List.map_map, List.map_congr_left hcheck, rsHigh,
      List.append_assoc]
    simp only [Function.comp_def, hfold, List.map_congr_left hdata]
  rw [wordBelow, hword]
  rfl

/-! #### An error in one symbol -/
/-- Two words differ by `v` in the symbol at `p` and nowhere else. -/
def DifferAt (p v g f g' f' : Nat) : Prop := ∀ q, wordSymbol g' f' q = wordSymbol g f q ^^^ if q = p then v else 0

theorem wordBelow_congr {p v g f g' f' n : Nat} (h : DifferAt p v g f g' f') (hn : n ≤ p) : wordBelow g' f' n = wordBelow g f n := by
  refine List.map_congr_left fun q hq => ?_
  have hq : q < n := by simpa using hq
  rw [h q, if_neg (by omega), Nat.xor_zero]

theorem foldl_atRoot_differAt {p v g f g' f' n : Nat} (j : Nat) (h : DifferAt p v g f g' f') (hv : v < 256) (hp : p < n) {a : Nat} (ha : a < 256) :
    (wordBelow g' f' n).foldl (atRoot j) a = (wordBelow g f n).foldl (atRoot j) a ^^^ (timesRoot j)^[p] v := by
  induction n generalizing a with
  | zero => omega
  | succ n ih =>
    rw [wordBelow_succ, wordBelow_succ, List.foldl_cons, List.foldl_cons, h n]
    have hacc : atRoot j a (wordSymbol g f n) < 256 := xor_lt256 (timesRoot_lt j ha) (wordSymbol_lt g f n)
    by_cases hpn : n = p
    · subst hpn
      rw [if_pos rfl, atRoot, ← Nat.xor_assoc, wordBelow_congr h (Nat.le_refl n)]
      exact (foldl_atRoot_xor j (wordBelow_lt g f n) hacc hv).trans (by rw [length_wordBelow])
    · rw [if_neg hpn, Nat.xor_zero]
      exact ih (by omega) hacc

/-- An error in one symbol adds its value, doubled j times for each position above the lowest, to syndrome j. -/
theorem rsSyndrome_differAt {p v g f g' f' : Nat} (j : Nat) (h : DifferAt p v g f g' f') (hv : v < 256) (hp : p < 41) :
    rsSyndrome g' f' j = rsSyndrome g f j ^^^ gfDouble^[j * p] v := by
  rw [rsSyndrome_eq, rsSyndrome_eq, foldl_atRoot_differAt j h hv hp (by norm_num), iterate_timesRoot j p hv]

/-- A byte placed at a multiple of 8 is read there and nowhere else. -/
theorem bitsOf_shiftLeft_symbol {v : Nat} (hv : v < 256) (a b : Nat) : bitsOf (v <<< (8 * a)) (8 * b + 7) (8 * b) = if b = a then v else 0 := by
  unfold bitsOf
  rw [show 8 * b + 7 + 1 - 8 * b = 8 by omega]
  apply Nat.eq_of_testBit_eq
  intro i
  have hhigh : ∀ k, 8 ≤ k → v.testBit k = false := fun k hk => Nat.testBit_lt_two_pow (hv.trans_le (Nat.pow_le_pow_right (n := 2) (by norm_num) hk))
  simp only [Nat.testBit_mod_two_pow, Nat.testBit_shiftRight, Nat.testBit_shiftLeft]
  by_cases hi : i < 8
  · obtain hlt | rfl | hgt := lt_trichotomy b a
    · simp [hi, show ¬ 8 * a ≤ 8 * b + i by omega, show b ≠ a by omega]
    · simp [hi]
    · simp [hi, show b ≠ a by omega, hhigh (8 * b + i - 8 * a) (by omega)]
  · split <;> simp [hi, hhigh i (by omega)]

/-- An error in a stored symbol. -/
theorem differAt_stored {g f p v : Nat} (hv : v < 256) (hp : p < 36) : DifferAt p v g f (g ^^^ v <<< rsPosBit p) f := by
  intro q
  rw [rsPosBit_eq]
  unfold wordSymbol
  by_cases hq : q < 36
  · rw [if_pos hq, if_pos hq, bitsOf_xor, bitsOf_shiftLeft_symbol hv]
    have hbyte : symbolByte q = symbolByte p ↔ q = p := by
      unfold symbolByte
      split_ifs <;> omega
    exact congrArg _ (if_congr hbyte rfl rfl)
  · rw [if_neg hq, if_neg hq, if_neg (c := q = p) (by omega), Nat.xor_zero]

/-- An error in a fold symbol. -/
theorem differAt_fold {g f m v : Nat} (hv : v < 256) : DifferAt (m + 36) v g f g (f ^^^ v <<< (8 * m)) := by
  intro q
  unfold wordSymbol
  by_cases hq : q < 36
  · rw [if_pos hq, if_pos hq, if_neg (c := q = m + 36) (by omega), Nat.xor_zero]
  · rw [if_neg hq, if_neg hq, bitsOf_xor, bitsOf_shiftLeft_symbol hv]
    exact congrArg _ (if_congr (by omega) rfl rfl)

/-! #### The decoder's search -/
/-- The search finds the position that the first two syndromes name, where the others agree with it. -/
theorem rsSingle_eq {v p s2 s3 n q : Nat} (hv : v < 256) (h0 : v ≠ 0) (hp : p < 41) (h2 : s2 < 256) (hn : q + n ≤ 41) :
    rsSingle v (gfDouble^[p] v) s2 s3 n q =
      if (q ≤ p ∧ p < q + n) ∧ s2 = gfDouble^[2 * p] v ∧ s3 = gfDouble^[p] s2 then some p else none := by
  induction n generalizing q with
  | zero => rw [if_neg (by omega), rsSingle]
  | succ n ih =>
    rw [rsSingle]
    simp only [gfMul_gfPow hv, gfMul_gfPow (iterate_gfDouble_lt hv p), gfMul_gfPow h2, iterate_gfDouble_eq_iff hv h0 hp (show q < 41 by omega),
      ih (show q + 1 + n ≤ 41 by omega)]
    by_cases hq : q = p
    · subst hq
      simp [h0, ← Function.iterate_add_apply, ← Nat.two_mul]
    · rw [if_neg (by tauto)]
      exact if_congr (and_congr (by omega) Iff.rfl) rfl rfl

/-- The syndrome of the poison mask (R369). -/
def maskSyndrome (poison : Bool) (j : Nat) : Nat := if poison ∧ j = 3 then 0x9F else 0

theorem rsSyndrome_encode_eq {d j : Nat} (f : Nat) (hd : d < 2 ^ 256) (hj : j < 4) (poison : Bool) :
    rsSyndrome (rsEncode d f poison) f j = maskSyndrome poison j := by
  rw [(rsSyndrome_encode d f j hd hj poison).1]
  revert j
  cases poison <;> decide +kernel

/-- Settles O41: the syndromes of a granule written under its fold are those of the poison mask, or zero. -/
theorem granuleCodeRoundTrip : Obligations.GranuleCodeRoundTrip := by
  unfold Obligations.GranuleCodeRoundTrip
  intro d f hd hf
  refine ⟨fun poison => (rsSyndrome_encode d f 0 hd (by norm_num) poison).2, ?clean, ?poisoned⟩
  case clean => simp [rsOutcome, rsSyndrome_encode_eq f hd, maskSyndrome]
  case poisoned => simp [rsOutcome, rsSyndrome_encode_eq f hd, maskSyndrome, rsSingle_zero]

/-- What the decoder makes of an error `v` at position `p`: a stored symbol is corrected, one of the fold shows a misdirected granule. -/
def oneSymbolOutcome (poison : Bool) (p v : Nat) : CodeOutcome :=
  if p ≤ 35 then (if poison then .poisonedCorrected p v else .corrected p v) else .misdirected

theorem rsOutcome_of_error {g f p v : Nat} {poison : Bool} (hv : v < 256) (h0 : v ≠ 0) (hp : p < 41)
    (hs : ∀ j < 4, rsSyndrome g f j = maskSyndrome poison j ^^^ gfDouble^[j * p] v) : rsOutcome g f = oneSymbolOutcome poison p v := by
  have h2 : gfDouble^[2 * p] v < 256 := iterate_gfDouble_lt hv (2 * p)
  have h3 : gfDouble^[p] (gfDouble^[2 * p] v) = gfDouble^[3 * p] v := by
    rw [← Function.iterate_add_apply, show p + 2 * p = 3 * p by omega]
  unfold rsOutcome
  cases poison <;> simp [hs, maskSyndrome, h0, rsSingle_eq hv h0 hp h2, h3, hp, oneSymbolOutcome]

/-- A word that differs in one symbol from a granule written under its fold. -/
theorem rsOutcome_differAt {d f p v g' f' : Nat} {poison : Bool} (hd : d < 2 ^ 256) (hv : v < 256) (h0 : v ≠ 0) (hp : p < 41)
    (h : DifferAt p v (rsEncode d f poison) f g' f') : rsOutcome g' f' = oneSymbolOutcome poison p v :=
  rsOutcome_of_error hv h0 hp fun j hj => by rw [rsSyndrome_differAt j h hv hp, rsSyndrome_encode_eq f hd hj]

/-- Settles O42: an error in one symbol shows in the syndromes as its value doubled as its position says, which the search finds again. -/
theorem oneSymbolErrorsCorrected : Obligations.OneSymbolErrorsCorrected := by
  unfold Obligations.OneSymbolErrorsCorrected
  intro d f v poison hd hf h1 hv
  refine ⟨fun p hp => ?stored, fun m hm => ?fold⟩
  case stored =>
    have hout := rsOutcome_differAt hd hv (by omega) (by omega) (differAt_stored (g := rsEncode d f poison) (f := f) hv (show p < 36 by omega))
    rw [oneSymbolOutcome, if_pos hp] at hout
    refine ⟨hout, ?_⟩
    cases poison <;> exact Nat.xor_xor_cancel_right _ _
  case fold =>
    have hout := rsOutcome_differAt hd hv (by omega) (by omega) (differAt_fold (g := rsEncode d f poison) (f := f) (m := m) hv)
    rwa [oneSymbolOutcome, if_neg (by omega)] at hout

end Sys2Proof.Proofs

/-! ### What a command reaches (assumption 1; R428, R435, R526, R547, R550)

A command that runs acts at the leaf, at the channel, as a request on the card, or at the module itself, and at one of them only. What a command or a
step leaves alone, and what it keeps, is read off from that. -/
namespace Sys2Proof.Proofs
open Sys2Proof.Machine Sys2Proof.Laws

/-- What a command that ran made of the state. -/
inductive Reached (i : Instr) (s : State) : State → Prop
  | leaf (f : Leaf → Leaf) : Reached i s (s.withLeaf (leafStep f s.leaf))
  | always (f : Leaf → Leaf) (h : i.heldLeafSees = true) : Reached i s (s.withLeaf (f s.leaf))
  | chan (f : Chan → Chan) : Reached i s (s.withBox (chanStep f s.box))
  | ask (p cmd id : Nat) (force : Bool) (run : Chan → Chan × Reply) : Reached i s (s.withBox (askChan p cmd id force run s.box))
  | image (h : i = .imageAccepted .chan) : Reached i s (s.withBox (if chanPowered s.box.mod then boxImage s.box else s.box))
  | restart (h : i = .restartWaitEnd) : Reached i s (s.withBox (if chanPowered s.box.mod then pumpBox (boxRestart s.box) else s.box))
  | box (f : Box → Box) (h : i.atModule = true) : Reached i s (s.withBox (f s.box))

section
variable {i : Instr} {s t : State}

theorem wf_of_next (h : exec i s = .next t) : i.wf = true := by
  cases hw : i.wf with
  | true => rfl
  | false =>
    obtain ⟨f, hf⟩ := exec_ill i s hw
    simp [hf] at h

theorem reached_of_shape {o : Out} (h : Shape i s o) (ho : o = .next t) : Reached i s t := by
  cases h with
  | leaf f => cases ho; exact .leaf f
  | always f h => cases ho; exact .always f h
  | chan f => cases ho; exact .chan f
  | ask p cmd id force run => cases ho; exact .ask p cmd id force _
  | image h => cases ho; exact .image h
  | restart h => cases ho; exact .restart h
  | box f h => cases ho; exact .box f h

theorem reached_of_next (h : exec i s = .next t) : Reached i s t := reached_of_shape (exec_shape i s (wf_of_next h)) h

theorem pending_of_reached (h : Reached i s t) : t.pending = s.pending := by
  cases h <;> rfl

theorem step_of_front {c : Instr} {cs : List Instr} (h : s.pending = c :: cs) : step s = exec c { s with pending := cs } := by
  simp [step, h]

/-- A step takes the command in front, or is an edge of the time clock. -/
theorem step_next (h : step s = .next t) :
    (s.pending = [] ∧ t = tick s) ∨ ∃ c cs, s.pending = c :: cs ∧ Reached c { s with pending := cs } t := by
  cases hq : s.pending with
  | nil =>
    rw [step_of_idle hq] at h
    exact .inl ⟨rfl, (Host.Outcome.next.inj h).symm⟩
  | cons c cs =>
    rw [step_of_front hq] at h
    exact .inr ⟨c, cs, rfl, reached_of_next h⟩

end

/-! #### The queue -/
/-- Settles O1: `step` runs what the queue has in front. -/
theorem stepRunsFront : Obligations.StepRunsFront := by
  unfold Obligations.StepRunsFront
  intro c s
  exact step_of_front rfl

/-- Settles O2: no command touches the queue, so a step leaves what was behind the one it took. -/
theorem queueFirstInFirstOut : Obligations.QueueFirstInFirstOut := by
  unfold Obligations.QueueFirstInFirstOut
  intro s t h
  obtain ⟨hidle, rfl⟩ | ⟨c, cs, hq, hr⟩ := step_next h
  · simp [tick, hidle]
  · rw [hq, pending_of_reached hr]
    rfl

/-! #### What a command leaves alone -/
/-- Settles O5: a held leaf sees only reset, clock and fence-input events. -/
theorem heldLeafUnchanged : Obligations.HeldLeafUnchanged := by
  unfold Obligations.HeldLeafUnchanged
  intro s t hheld hfront h
  obtain ⟨-, rfl⟩ | ⟨c, cs, hq, hr⟩ := step_next h
  · exact leafStep_off hheld
  · cases hr with
    | leaf f => exact leafStep_off hheld
    | always f hsees => simp [hfront c (by simp [hq])] at hsees
    | chan | ask | image | restart | box => rfl

/-- Settles O7: each way a command can go reaches one unit. -/
theorem oneUnitPerCommand : Obligations.OneUnitPerCommand := by
  unfold Obligations.OneUnitPerCommand
  intro i s t h
  cases reached_of_next h with
  | leaf | always => exact .inl ⟨rfl, rfl⟩
  | chan | ask | image | restart | box => exact .inr ⟨rfl, rfl⟩

/-- A request to a channel without supply waits, or is turned away, and the channel stays but for what was on its way to the follower's card. -/
theorem askChan_chan_off {b : Box} (p cmd id : Nat) (force : Bool) (run : Chan → Chan × Reply) (h : chanPowered b.mod = false) :
    { (askChan p cmd id force run b).chan with passQ := b.chan.passQ } = b.chan := by
  unfold askChan
  simp only
  split
  · rfl
  · split
    · rfl
    · split
      · rw [pumpBox_chan]
      · rw [if_pos (by simp [h])]

/-- Settles O6: every way to the channel but the module's own asks for its sled's supply. -/
theorem unpoweredChannelHolds : Obligations.UnpoweredChannelHolds := by
  unfold Obligations.UnpoweredChannelHolds
  intro s t hoff hfront h
  obtain ⟨-, rfl⟩ | ⟨c, cs, hq, hr⟩ := step_next h
  · simp [tick, chanStep_off hoff]
  · cases hr with
    | leaf | always => rfl
    | chan f => simp [chanStep_off hoff]
    | ask p cmd id force run => exact askChan_chan_off p cmd id force run hoff
    | image | restart => simp [hoff]
    | box f hbox => simp [hfront c (by simp [hq])] at hbox

theorem carded_pumpBox {m : Module} {b : Box} (h : m.carded b.mod) : m.carded (pumpBox b).mod := carded_trans h (pumpBox_mod b)

/-- A request changes the module's card only, and since when hot sleds are cool. -/
theorem askChan_carded (b : Box) (p cmd id : Nat) (force : Bool) (run : Chan → Chan × Reply) : b.mod.carded (askChan p cmd id force run b).mod := by
  unfold askChan
  simp only
  split
  · rfl
  · split
    · rfl
    · split
      · exact carded_pumpBox rfl
      · split
        · rfl
        · exact carded_pumpBox rfl

theorem carded_past {m n : Module} (h : m.carded n) : n.past = m.past := by
  rw [← h]

/-- Nothing of the module differs but its card, since when hot sleds are cool, and where its clock stood when the channel began again. -/
def CardedButPast (m n : Module) : Prop := { n with card := m.card, cool := m.cool, past := m.past } = m

theorem cardedButPast_of_carded {m n : Module} (h : m.carded n) : CardedButPast m n := by
  unfold Module.carded at h
  exact congrArg (fun x : Module => { x with past := m.past }) h

/-- A restart changes no more of the module than where the channel's clock began again. -/
theorem boxRestart_mod (b : Box) : CardedButPast b.mod (boxRestart b).mod := by
  unfold boxRestart boxStart
  simp only
  split <;> rfl

theorem cardedButPast_pumpBox {m : Module} {b : Box} (h : CardedButPast m b.mod) : CardedButPast m (pumpBox b).mod := by
  unfold CardedButPast at h
  rw [← pumpBox_mod b] at h
  exact h

/-- Settles O8: what is not the module's own row goes through the channel or the card. -/
theorem moduleChangedOnlyByItsRows : Obligations.ModuleChangedOnlyByItsRows := by
  unfold Obligations.ModuleChangedOnlyByItsRows
  intro i s t hmod himage h
  cases reached_of_next h with
  | leaf | always => exact ⟨rfl, fun _ => rfl⟩
  | chan f => exact ⟨cardedButPast_of_carded chanStep_mod, fun _ => carded_past chanStep_mod⟩
  | ask p cmd id force run => exact ⟨cardedButPast_of_carded (askChan_carded s.box p cmd id force run), fun _ => carded_past (askChan_carded _ _ _ _ _ _)⟩
  | image hi => exact absurd hi himage
  | restart hi =>
    refine ⟨?_, fun hne => absurd hi hne⟩
    cases hp : chanPowered s.box.mod with
    | true => exact cardedButPast_pumpBox (boxRestart_mod s.box)
    | false => rfl
  | box f hbox => simp [hmod] at hbox

/-! #### What every step keeps (R526, R547, R550, R553, R557) -/
/-- A command keeps the supply of the sleds and the sessions of the card in order. -/
theorem exec_keeps_modOk {i : Instr} {s t : State} (hm : ModOk s.box.mod) (h : exec i s = .next t) : ModOk t.box.mod := by
  cases hr : reached_of_next h with
  | leaf | always => exact hm
  | chan f => exact modOk_step f hm
  | ask p cmd id force run => exact modOk_ask p cmd id force run hm
  | image =>
    cases hp : chanPowered s.box.mod with
    | true => simpa [hp] using modOk_image hm
    | false => simpa [hp] using hm
  | restart =>
    cases hp : chanPowered s.box.mod with
    | true => simpa [hp] using modOk_pump (modOk_restart hm)
    | false => simpa [hp] using hm
  | box f hbox => exact modOk_atModule i s _ hbox (wf_of_next h) hm h

/-- Settles O9: by what the command in front reaches; an edge of the time clock is one at the channel. -/
theorem invKept : Obligations.InvKept := by
  unfold Obligations.InvKept
  intro s t hinv h
  cases hq : s.pending with
  | nil =>
    rw [step_of_idle hq] at h
    cases h
    exact modOk_step chanEdge hinv
  | cons c cs =>
    rw [step_of_front hq] at h
    exact exec_keeps_modOk (s := { s with pending := cs }) hinv h

/-- Settles O10: both sleds are supplied at reset, nothing holds them off, and no session is open. -/
theorem invAtReset : Obligations.InvAtReset := by
  unfold Obligations.InvAtReset State.Inv
  decide

end Sys2Proof.Proofs

/-! ### Commands of the key exchange (R475 to R478) -/
namespace Sys2Proof.Proofs
open Sys2Proof.Machine Sys2Proof.Laws

/-- Settles O12: every row is its unit's own behind the check that its port is there. -/
theorem keyRows : Obligations.KeyRows := by
  unfold Obligations.KeyRows
  intro s
  refine ⟨fun h => ?leaf, fun h hq => ?chan⟩
  case leaf =>
    refine ⟨?keyNonce, ?keyWrapLo, ?keyWrapHi, ?keyConfirm, ?keyConfirmTimeout, ?keySwitch, ?noKeys⟩
    case keyNonce | keyWrapLo | keyWrapHi | keyConfirm | keySwitch => exact fun d g hd => atLeafPort_runs h hd
    case keyConfirmTimeout | noKeys => exact fun d hd => atLeafPort_runs h hd
  case chan =>
    refine ⟨?keyNonce, ?keyWrapLo, ?keyWrapHi, ?keyConfirm, ?keyConfirmTimeout, ?keySwitch, ?noKeys, ?rekeyDue, ?rekeyRetry⟩
    case keyNonce | keyWrapLo | keyWrapHi | keyConfirm | keySwitch => exact fun p g hp => atChanPort_took h hq hp
    case keyConfirmTimeout | noKeys => exact fun p hp => atChanPort_took h hq hp
    case rekeyDue | rekeyRetry => exact fun p hp => atChanLink_took h hq hp

end Sys2Proof.Proofs

/-! ### Commands of the silent-fault tests (R385, R386, R389, R419 to R422, R580) -/
namespace Sys2Proof.Proofs
open Sys2Proof.Machine Sys2Proof.Laws

/-- Settles O21: every row is its unit's own, behind the check of its port where it names one, or a request of the session that sent it. -/
theorem fingerprintRows : Obligations.FingerprintRows := by
  unfold Obligations.FingerprintRows
  intro s
  refine ⟨fun h => ?leaf, fun h => ?chanOwn, fun h hq => ?chanPackets, ?requests⟩
  case leaf =>
    refine ⟨?hostFpWrite, ?testRequest, ?testBusyTimeout, ?testDigest, ?testItemTimeout, ?testAbort, ?testEngineNotReady, ?testPeriod⟩
    case hostFpWrite => exact fun dum w => leafDo_with h
    case testRequest => exact fun d id serial pack reps fence bytes hd => atLeafBelow_runs h hd
    case testBusyTimeout | testItemTimeout | testAbort | testEngineNotReady => exact leafDo_with h
    case testDigest | testPeriod => exact fun x => leafDo_with h
  case chanOwn => exact fun id => chanDo_took h
  case chanPackets =>
    refine ⟨?memberFingerprint, ?runFingerprint⟩
    case memberFingerprint => exact fun p g hp => atChanLink_took h hq hp
    case runFingerprint => exact fun gs => linkDo_took h hq
  case requests => exact fun place id serial pack reps fence bytes hp => askRow_asked hp _ _ _ _

end Sys2Proof.Proofs

/-! ### Commands of fencing, margins, forecasts and injections (R428 to R444) -/
namespace Sys2Proof.Proofs
open Sys2Proof.Machine Sys2Proof.Laws

/-- Settles O22: every row is its unit's own, behind the check of its port where it names one, or a request of the session that sent it; the fence
inputs are rows of the leaf while it runs. -/
theorem fenceRows : Obligations.FenceRows := by
  unfold Obligations.FenceRows
  intro s
  refine ⟨fun h => ?leaf, fun h => ?chanOwn, fun h hq => ?chanPackets, ?inject, ?injectCancel⟩
  case leaf =>
    refine ⟨?heartbeat, ?hbTimeoutWrite, ?heartbeatExpire, ?hostReset, ?fencePin, ?fenceDrained, ?unfence, ?marginReportSend, ?forecast,
      ?fenceInputDeasserted⟩
    case heartbeat | heartbeatExpire | fenceDrained | unfence => exact leafDo_with h
    case hostReset | fencePin => exact leafInput_on h
    case fenceInputDeasserted => exact fun reset => leafInput_on h
    case hbTimeoutWrite | marginReportSend => exact fun x => leafDo_with h
    case forecast => exact fun d g hd => atLeafBelow_runs h hd
  case chanOwn =>
    refine ⟨?injectEnd, ?marginReportSend, ?forecastEval⟩
    case injectEnd | marginReportSend => exact fun x => chanDo_took h
    case forecastEval => exact chanDo_took h
  case chanPackets =>
    refine ⟨?fenceNotice, ?marginReport⟩
    case fenceNotice => exact fun g => linkDo_took h hq
    case marginReport => exact fun p g hp => atChanLink_took h hq hp
  case inject => exact fun place id kind arg arg2 dur count force safe hp => askRow_asked hp _ _ _ _
  case injectCancel => exact fun place id target hp => askRow_asked hp _ _ _ _

end Sys2Proof.Proofs

/-! ### Commands of start and reset (R435, R452 to R467, R540, R568, R581) -/
namespace Sys2Proof.Proofs
open Sys2Proof.Machine Sys2Proof.Laws

/-- A row that its channel's supply decides, where that is there. -/
theorem supplied_runs {f : Box → Box} {s : State} (h : chanPowered s.box.mod = true) :
    boxDo (fun b => if chanPowered b.mod then f b else b) s = .next (s.withBox (f s.box)) := by
  simp [boxDo, h, State.withBox]

/-- Settles O23: a reset or clock event needs nothing running; every other row is its unit's own, behind the check of what it numbers, or a request
of the session that sent it; the channel's image and its restart reach the module, since they need its serial number and its latched lid. -/
theorem startupRows : Obligations.StartupRows := by
  unfold Obligations.StartupRows
  intro s
  refine ⟨rfl, fun ws => rfl, rfl, fun h => ?leaf, fun h => ?chan, fun h => ?module, ?restoreFactoryArm, ?restoreFactoryConfirm, ?imageWrite,
    ?calWrite, ?restart⟩
  case leaf =>
    refine ⟨?imageAccepted, ?selftestDone, ?restoreDone, ?cfgLock, ?userBlockSave, ?armRelay, ?armRegister, ?confirmRelay, ?confirmRegister,
      ?armExpiry, ?sensorUpdate, ?sensorStale⟩
    case imageAccepted | restoreDone | cfgLock | armExpiry => exact leafDo_with h
    case selftestDone | userBlockSave => exact fun x => leafDo_with h
    case armRelay => exact fun d id serial hd => atLeafBelow_runs h hd
    case armRegister => exact fun id serial => leafDo_with h
    case confirmRelay => exact fun d id serial code force hd => atLeafBelow_runs h hd
    case confirmRegister => exact fun id serial code force => leafDo_with h
    case sensorUpdate => exact fun n temp mv vmin hn => atLeafBelow_runs h hn
    case sensorStale => exact fun n hn => atLeafBelow_runs h hn
  case chan =>
    refine ⟨?selftestDone, ?restoreDone, ?userBlockSave, ?armExpiry, ?sensorUpdate, ?sensorStale⟩
    case restoreDone | armExpiry => exact chanDo_took h
    case selftestDone | userBlockSave => exact fun x => chanDo_took h
    case sensorUpdate => exact fun n temp mv vmin hn => atChanBelow_took h hn
    case sensorStale => exact fun n hn => atChanBelow_took h hn
  case module => exact ⟨supplied_runs h, supplied_runs (f := fun b => pumpBox (boxRestart b)) h⟩
  case restoreFactoryArm => exact fun place id serial hp => askRow_asked hp _ _ _ _
  case restoreFactoryConfirm => exact fun place id serial code force hp => askRow_asked hp _ _ _ _
  case imageWrite => exact fun place id off last data hp => askRow_asked hp _ _ _ _
  case calWrite => exact fun place id body hp => askRow_asked hp _ _ _ _
  case restart => exact fun place id force safe hp => askRow_asked hp _ _ _ _

end Sys2Proof.Proofs

/-! ### Commands of security (R477 to R484, R573) -/
namespace Sys2Proof.Proofs
open Sys2Proof.Machine Sys2Proof.Laws

/-- Settles O24: every row is its unit's own, behind the check of its port where it is relayed, or a request of the session that sent it. -/
theorem securityRows : Obligations.SecurityRows := by
  unfold Obligations.SecurityRows
  intro s
  refine ⟨fun h => ?leaf, fun h => ?chan, ?askRequest, ?askResponse, ?askLock, ?askAlarmClear, ?askKeyRotate⟩
  case leaf =>
    refine ⟨?voltGlitch, ?clockGlitch, ?tempViolation, ?hostAlarm, ?fuseBlowDone, ?requestRelay, ?requestRegister, ?responseRelay,
      ?responseRegister, ?lockRelay, ?lockRegister, ?debugExpiry, ?challengeExpiry, ?alarmClear⟩
    case voltGlitch | clockGlitch | tempViolation | hostAlarm | debugExpiry | challengeExpiry => exact leafDo_with h
    case fuseBlowDone => exact fun ok => leafDo_with h
    case requestRelay | lockRelay => exact fun d id serial hd => atLeafBelow_runs h hd
    case requestRegister | lockRegister => exact fun id serial => leafDo_with h
    case responseRelay => exact fun d id serial dur sig hd => atLeafBelow_runs h hd
    case responseRegister => exact fun id serial dur sig => leafDo_with h
    case alarmClear => exact fun d id serial sig hd => atLeafBelow_runs h hd
  case chan =>
    refine ⟨?lidOpen, ?meshFault, ?voltGlitch, ?clockGlitch, ?tempViolation, ?fuseBlowDone, ?debugExpiry, ?challengeExpiry⟩
    case lidOpen | meshFault | voltGlitch | clockGlitch | tempViolation | debugExpiry | challengeExpiry => exact chanDo_took h
    case fuseBlowDone => exact fun ok => chanDo_took h
  case askRequest | askLock => exact fun place id serial hp => askRow_asked hp _ _ _ _
  case askResponse => exact fun place id serial dur sig hp => askRow_asked hp _ _ _ _
  case askAlarmClear => exact fun place id serial sig hp => askRow_asked hp _ _ _ _
  case askKeyRotate => exact fun place id body hp => askRow_asked hp _ _ _ _

end Sys2Proof.Proofs

/-! ### Commands of the leaf's registers (R487 to R523) -/
namespace Sys2Proof.Proofs
open Sys2Proof.Machine Sys2Proof.Laws

/-- Settles O25: every row is the leaf's own behind the check that its trigger or its aperture, where it names one, is there. -/
theorem registerRows : Obligations.RegisterRows := by
  unfold Obligations.RegisterRows
  intro s h
  refine ⟨?registerWrite, ?histSelWrite, ?triggerWrite, ?triggerEdge, ?triggerPulseEnd, ?capPopRead, ?sumRequest, ?summaryReady, ?resSelWrite,
    ?intFifoRead, ?flashRead, ?flashProgram, ?flashTrimAdd, ?flashStageDone, ?flashDone⟩
  case capPopRead | sumRequest | summaryReady | intFifoRead | flashRead | flashProgram | flashTrimAdd | flashStageDone | flashDone =>
    exact leafDo_with h
  case registerWrite => exact fun wr addr w poison => leafDo_with h
  case histSelWrite => exact fun n => leafDo_with h
  case triggerWrite => exact fun k off w hk => atLeafBelow_runs h hk
  case triggerEdge | triggerPulseEnd => exact fun k hk => atLeafBelow_runs h hk
  case resSelWrite => exact fun k w hk => atLeafBelow_runs h hk

end Sys2Proof.Proofs

/-! ### Commands of management (R181, R258, R358, R434, R525 to R539) -/
namespace Sys2Proof.Proofs
open Sys2Proof.Machine Sys2Proof.Laws

/-- A command at the module runs there. -/
theorem boxDo_with (f : Box → Box) (s : State) : boxDo f s = .next (s.withBox (f s.box)) := rfl

/-- Settles O26: every row is the leaf's relay behind the check of its port, the channel's own, a request of the session that sent it, or one of the
module, which runs always. -/
theorem managementRows : Obligations.ManagementRows := by
  unfold Obligations.ManagementRows
  intro s
  refine ⟨fun h => ?leaf, fun h => ?chanOwn, fun h hq => ?chanPackets, ?askSummary, ?askPage1, ?askRegRead, ?askRegWrite,
    ?askPhaseStep, ?askTimePass, ?askFence, ?askFenceRelease, ?askClose, ?askForceArrive, ?askForceRelease, ?askPackLoad, ?askReplay,
    ?askHistoryRead, ?askHistoryClear, ?askLogRead, ?module⟩
  case leaf =>
    refine ⟨?summary, ?fence, ?fenceRelease, ?historyRead, ?historyClear, ?mgmtRelay⟩
    case summary | fence | fenceRelease => exact fun d id serial hd => atLeafBelow_runs h hd
    case historyRead => exact fun d id serial first count hd => atLeafBelow_runs h hd
    case historyClear => exact fun d id serial path hd => atLeafBelow_runs h hd
    case mgmtRelay => exact fun d id cmd force body hd => atLeafBelow_runs h hd
  case chanOwn => exact fun id => chanDo_took h
  case chanPackets =>
    refine ⟨?mgmtRelay, ?mgmtAnswer⟩
    case mgmtRelay => exact fun gs => need_some (f := .noSuchPort) rfl (linkDo_took h hq)
    case mgmtAnswer => exact fun gs => linkDo_took h hq
  case askSummary | askPage1 | askFence | askFenceRelease | askReplay => exact fun place id x hp => askRow_asked hp _ _ _ _
  case askRegRead | askClose | askHistoryClear => exact fun place id x y hp => askRow_asked hp _ _ _ _
  case askRegWrite | askPhaseStep | askForceRelease | askHistoryRead => exact fun place id x y z hp => askRow_asked hp _ _ _ _
  case askTimePass | askForceArrive | askPackLoad | askLogRead => exact fun place id x y z w hp => askRow_asked hp _ _ _ _
  case module =>
    refine ⟨?sessionOpen, ?sessionIdleTimeout, ?telemetry, ?telemetryStop, ?telemetryTick, ?moduleStatus, ?cardConfig, ?sessionClosed, ?badCommand⟩
    case telemetryTick => exact boxDo_with _ _
    case sessionIdleTimeout | sessionClosed => exact fun place => boxDo_with _ _
    case sessionOpen | moduleStatus => exact fun x y => boxDo_with _ _
    case telemetryStop => exact fun place target id => boxDo_with _ _
    case cardConfig | badCommand => exact fun place x y z => boxDo_with _ _
    case telemetry => exact fun place target id stream first => boxDo_with _ _

end Sys2Proof.Proofs

/-! ### Commands of the module (R540 to R561) -/
namespace Sys2Proof.Proofs
open Sys2Proof.Machine Sys2Proof.Laws

/-- A command at one of the `m` parts of a kind that there are runs at the module. -/
theorem atPart_runs {f : Box → Box} {s : State} {n m : Nat} {φ : Fault} (hn : n < m) :
    need (decide (n < m)) φ (boxDo f s) = .next (s.withBox (f s.box)) :=
  need_then (decide_eq_true hn) (boxDo_with f s)

/-- Settles O27: every row is the module's own behind the check that its feed, brick, tray or sled is there. -/
theorem moduleRows : Obligations.ModuleRows := by
  unfold Obligations.ModuleRows
  intro s
  refine ⟨?feedUsable, ?feedUndervolt, ?feedOvervolt, ?feedReversed, ?feedAbsent, ?powerWarn, ?busCollapse, ?sledSoftStartDone,
    ?sledSoftStartTimeout, ?sledOvercurrent, ?sledTripRetry, ?sledInserted, ?sledRemoved, ?brickInserted, ?brickRemoved, ?fanInserted, ?fanRemoved,
    ?cardInserted, ?cardRemoved, ?pmbusPoll, ?fanDemand, ?fanNoDemand, ?thermalWarn, ?thermalShutdown, ?thermalRestored, ?sledLidUnpowered⟩
  case powerWarn | busCollapse | cardRemoved => exact boxDo_with _ _
  case cardInserted | pmbusPoll => exact fun x => boxDo_with _ _
  case feedUsable | feedUndervolt | feedOvervolt | feedReversed | feedAbsent | sledSoftStartDone | sledSoftStartTimeout | sledOvercurrent |
    sledTripRetry | sledRemoved | brickInserted | brickRemoved | fanInserted | fanRemoved | fanNoDemand | thermalWarn | thermalShutdown |
    thermalRestored => exact fun k hk => atPart_runs hk
  case sledInserted | fanDemand | sledLidUnpowered => exact fun k x hk => atPart_runs hk

end Sys2Proof.Proofs

/-! ### Interrupts (R522, R523) -/
namespace Sys2Proof.Proofs
open Sys2Proof.Machine Sys2Proof.Laws

theorem setBit_eq (w : Word) (n : Nat) : setBit w n = w ||| (1#64 <<< n) := by
  have h : BitVec.ofNat 64 (2 ^ n) = 1#64 <<< n := BitVec.eq_of_toNat_eq (by simp [Nat.shiftLeft_eq])
  rw [setBit, h]

theorem leafNs_eq (l : Leaf) : leafNs l = if l.time.valid then l.time.ns else 0 := by
  unfold leafNs leafPod TimeCore.pod TimeCore.ns
  split
  · rw [Nat.div_div_eq_div_mul, show 2 ^ 24 * 65536 = 2 ^ 40 by norm_num]
  · rfl

theorem leafRaise_eq {e : EvRec} {n : Nat} (l : Leaf) (h : e.ev.cause = some n) :
    leafRaise l e = { l with ints := intRaise (leafNs l) n e.index e.detail l.ints } := by
  simp [leafRaise, h]

/-- Is the interrupt of cause n enabled? -/
def intOn (i : Ints) (n : Nat) : Bool := if n < 64 then i.enable0.getLsbD n else i.enable1.getLsbD (n - 64)
/-- The interrupt registers with the status bit of cause n set. -/
def intMarked (i : Ints) (n : Nat) : Ints :=
  { i with status0 := if n < 64 then i.status0 ||| (1#64 <<< n) else i.status0,
           status1 := if n < 64 then i.status1 else i.status1 ||| (1#64 <<< (n - 64)) }

theorem intRaise_eq (now n ix dt : Nat) (i : Ints) : intRaise now n ix dt i =
    if intOn i n then
      if i.fifo.length < 64 then
        { intMarked i n with fifo := i.fifo ++ [{ cause := n, index := ix % 256, detail := dt % 256, time := now % 2 ^ 40 }] }
      else { intMarked i n with lost := ctrInc i.lost, ovf := true }
    else intMarked i n := by
  by_cases hn : n < 64 <;> simp [intRaise, intOn, intMarked, hn, setBit_eq, wbit_eq]

/-- Settles O29: with the status bit marked, by whether the interrupt is enabled and whether its entry finds room. -/
theorem raiseQueuesOrCounts : Obligations.RaiseQueuesOrCounts := by
  unfold Obligations.RaiseQueuesOrCounts
  intro l e n he
  refine ⟨leafRaise_raised l e, ?_⟩
  rw [leafRaise_eq l he, intRaise_eq, ← leafNs_eq]
  change _ ∧ _ ∧ _ ∧ _ ∧ _ ∧ (intOn l.ints n = false → _) ∧ (intOn l.ints n = true → _) ∧ (intOn l.ints n = true → _)
  cases hon : intOn l.ints n with
  | false => simp [intMarked]
  | true =>
    by_cases hroom : l.ints.fifo.length < 64 <;> simp [intMarked, hroom]

/-- Settles O30: the fields of the entry lie one above the other. -/
theorem intFifoReadRemovesOldest : Obligations.IntFifoReadRemovesOldest := by
  unfold Obligations.IntFifoReadRemovesOldest
  intro s h
  have hread : exec .intFifoRead s = .next (s.withLeaf (intFifoRead s.leaf)) := leafDo_with h
  rw [hread]
  refine ⟨fun hq => by simp [intFifoRead, hq, respOk], fun x q hq hc hi hd ht => ?_⟩
  have hword : layNat [⟨0, 7, x.cause⟩, ⟨7, 1, 1⟩, ⟨8, 8, x.index⟩, ⟨16, 8, x.detail⟩, ⟨24, 40, x.time⟩] =
      x.cause + 2 ^ 7 + 2 ^ 8 * x.index + 2 ^ 16 * x.detail + 2 ^ 24 * x.time := by
    rw [layNat_add _ _ (by simp), layNat_add _ _ (by simp), layNat_add _ _ (by simp), layNat_add _ _ (by simp), layNat_add _ _ (by simp)]
    simp only [layNat]
    omega
  simp [intFifoRead, hq, layW, hword, respOk]

end Sys2Proof.Proofs

/-! ### Captures and triggers (R497, R500) -/
namespace Sys2Proof.Proofs
open Sys2Proof.Machine Sys2Proof.Laws

/-- Settles O35: by whether an entry waits. -/
theorem capturePopTakesOldest : Obligations.CapturePopTakesOldest := by
  unfold Obligations.CapturePopTakesOldest
  intro s h
  have hread : exec .capPopRead s = .next (s.withLeaf (leafCapPop s.leaf)) := leafDo_with h
  rw [hread]
  exact ⟨fun hq => by simp [leafCapPop, hq, leafAnswer], fun x q hq => by simp [leafCapPop, hq, leafAnswer]⟩

section
variable {l : Leaf} {k : Nat} {w : Word}

/-- The trigger as a write of `TRIG_CFG_k` would make it. -/
def trigWithCfg (t : Trigger) (w : Word) : Trigger :=
  { t with enable := wbit w 0, mode := wf w 2 1, invert := wbit w 3, slot := wf w 8 4, branchMask := wf w 24 9, widthNs := wf w 63 32 }
/-- A refused write: the trigger stays and `CFG_BAD` is set. -/
def trigRefused (l : Leaf) (k : Nat) : Leaf := setTrig l k { leafTrig l k with cfgBad := true }

theorem leafTrigWrite_cfg_bad (h : trigBad (trigWithCfg (leafTrig l k) w) = true) : leafTrigWrite k 0x00 w l = trigRefused l k := by
  unfold trigWithCfg at h
  simp [leafTrigWrite, h, trigRefused]
theorem leafTrigWrite_time_bad (h : trigBad { leafTrig l k with time := w.toNat } = true) : leafTrigWrite k 0x08 w l = trigRefused l k := by
  simp [leafTrigWrite, h, trigRefused]
theorem leafTrigWrite_period_bad (h : periodBad w = true ∨ trigBad { leafTrig l k with periodNs := wf w 47 0 } = true) :
    leafTrigWrite k 0x10 w l = trigRefused l k := by
  have h : (periodBad w || trigBad { leafTrig l k with periodNs := wf w 47 0 }) = true := by simpa using h
  simp [leafTrigWrite, h, trigRefused]

theorem trigBad_iff (t : Trigger) : trigBad t = true ↔
    t.mode = 3 ∨ t.widthNs < 10 ∨ 1000000000 < t.widthNs ∨ (t.mode = 1 ∧ t.periodNs ≤ t.widthNs) ∨ (t.mode = 2 ∧ 1000000000 < t.time) := by
  simp only [trigBad, Bool.or_eq_true, Bool.and_eq_true, Bool.not_eq_true', Bool.and_eq_false_iff, decide_eq_true_eq, decide_eq_false_iff_not]
  omega

end

/-- Settles O34: each write named makes settings that break R497, or a period out of its range. -/
theorem badTriggerWritesRefused : Obligations.BadTriggerWritesRefused := by
  unfold Obligations.BadTriggerWritesRefused
  intro s k w h hk
  have hwrite : ∀ off, exec (.triggerWrite k off w) s = .next (s.withLeaf (leafTrigWrite k off w s.leaf)) := fun off => atLeafBelow_runs h hk
  have hmode : (BitVec.extractLsb' 1 2 w).toNat = wf w 2 1 := (wf_eq w 2 1).symm
  have hwidth : (BitVec.extractLsb' 32 32 w).toNat = wf w 63 32 := (wf_eq w 63 32).symm
  have hperiod : (BitVec.extractLsb' 0 48 w).toNat = wf w 47 0 := (wf_eq w 47 0).symm
  simp only [hwrite, hmode, hwidth, hperiod]
  refine ⟨fun hbad => ?cfg, fun h2 ht => ?time, fun hbad => ?period⟩
  case cfg => rw [leafTrigWrite_cfg_bad ((trigBad_iff _).mpr hbad), trigRefused]
  case time => rw [leafTrigWrite_time_bad ((trigBad_iff _).mpr (.inr (.inr (.inr (.inr ⟨h2, ht⟩))))), trigRefused]
  case period =>
    rw [leafTrigWrite_period_bad, trigRefused]
    obtain hlow | hhigh | hwide := hbad
    · exact .inl (by simp [periodBad, hlow])
    · exact .inl (by simp [periodBad, hhigh])
    · exact .inr ((trigBad_iff _).mpr (.inr (.inr (.inr (.inl hwide)))))

end Sys2Proof.Proofs

/-! ### The history window (R495) -/
namespace Sys2Proof.Proofs
open Sys2Proof.Machine Sys2Proof.Laws

theorem granWord_eq (g : Gran) (j : Nat) : granWord g j = BitVec.extractLsb' (64 * j) 64 g := by
  unfold granWord bitsOf
  rw [show 64 * j + 63 + 1 - 64 * j = 64 by omega]
  exact BitVec.eq_of_toNat_eq (by simp [BitVec.extractLsb'])

theorem leafReadWord_histSel (l : Leaf) : leafReadWord l 0x2420 = (layW [⟨0, 9, l.histSel⟩], respOk) := by
  simp [leafReadWord, leafCtr, portBlockWord]
theorem leafReadWord_histEntry (l : Leaf) {j : Nat} (hj : j < 4) : leafReadWord l (0x2428 + 8 * j) = (granWord (histGran l.histEntry) j, respOk) := by
  interval_cases j <;> simp [leafReadWord, leafCtr, portBlockWord]

/-- Settles O28: the write holds a copy, and the window reads the copy. -/
theorem histSelCopiesEntry : Obligations.HistSelCopiesEntry := by
  unfold Obligations.HistSelCopiesEntry
  intro s n h hn
  refine ⟨?write, by decide, rfl, rfl, ?sel, fun hist j hj => ?entry⟩
  case write =>
    have hmod : n % 512 = n := Nat.mod_eq_of_lt hn
    have hwrite : exec (.histSelWrite n) s = .next (s.withLeaf (leafHistSel n s.leaf)) := leafDo_with h
    rw [hwrite, leafHistSel, hmod]
  case sel =>
    have hlay : layNat [⟨0, 9, n⟩] = n := by simp [layNat, Nat.mod_eq_of_lt hn]
    rw [leafReadWord_histSel, layW, hlay]
  case entry => rw [leafReadWord_histEntry _ hj, granWord_eq]

end Sys2Proof.Proofs

/-! ### The register port: reserved offsets and slot commands (R487, R491, R507) -/
namespace Sys2Proof.Proofs
open Sys2Proof.Machine Sys2Proof.Laws

section
variable {l : Leaf} {a : Nat}

/-- Offsets at which the map has no register: one that is no multiple of 8, one of a reserved block, one beyond the map's end. -/
def Unmapped (a : Nat) : Prop := a % 8 ≠ 0 ∨ (0xF000 ≤ a ∧ a < 0x10000) ∨ 0x30000 ≤ a

/-- The event counters stand in the first four blocks. -/
theorem leafCtr_eq_none (l : Leaf) (h : 0x4000 ≤ a) : leafCtr l a = none := by
  unfold leafCtr
  rw [if_neg (by omega), if_neg (by omega), if_neg (by omega)]
  split <;> simp at h ⊢

/-- The offsets of the map that have no register, once misaligned ones are answered. -/
theorem Unmapped.high (h : Unmapped a) (h8 : ¬ a % 8 ≠ 0) : (0xF000 ≤ a ∧ a < 0x10000) ∨ 0x30000 ≤ a := h.resolve_left h8

theorem leafReadWord_unmapped (l : Leaf) (h : Unmapped a) : leafReadWord l a = (0#64, respError) := by
  unfold leafReadWord
  by_cases h8 : a % 8 ≠ 0
  · rw [if_pos h8]
  · have hhigh := h.high h8
    rw [if_neg h8]
    simp only [leafCtr_eq_none l (show 0x4000 ≤ a by omega)]
    iterate 11 rw [if_neg (by omega)]

theorem leafRegRead_unmapped (l : Leaf) (h : Unmapped a) : leafRegRead l a = leafAnswer l 0#64 respError := by
  unfold leafRegRead
  rw [leafReadWord_unmapped l h]
  by_cases h8 : a % 8 ≠ 0
  · exact if_pos h8
  · have hhigh := h.high h8
    simp only [leafCtr_eq_none l (show 0x4000 ≤ a by omega)]
    rw [if_neg h8, if_neg (by simp)]
    iterate 6 rw [if_neg (by omega)]

theorem leafRegWrite_unmapped (w : Word) (poison : Bool) (l : Leaf) (h : Unmapped a) : leafRegWrite a w poison l = leafAnswer l 0#64 respError := by
  unfold leafRegWrite
  by_cases hend : a % 8 ≠ 0 ∨ 0x40000 ≤ a
  · exact if_pos hend
  · have hhigh := h.high (by omega)
    rw [if_neg hend, if_neg (fun hlow => absurd hlow.1 (by omega))]
    iterate 11 rw [if_neg (by omega)]

theorem exec_registerWrite {s : State} (h : leafRuns s.leaf = true) (a : Nat) (w : Word) (poison : Bool) :
    exec (.registerWrite true a w poison) s = .next (s.withLeaf (leafTickWith (leafRegWrite a w poison) (leafHeld s.leaf))) := leafDo_with h

end

/-- Settles O32: neither a read nor a write finds a register there. -/
theorem reservedOffsetsAnswerError : Obligations.ReservedOffsetsAnswerError := by
  unfold Obligations.ReservedOffsetsAnswerError
  intro s wr a w poison h ha
  cases wr with
  | false =>
    rw [exec_registerRead h, show (fun l => leafRegRead l a) = fun l => leafAnswer l 0#64 respError from funext fun l => leafRegRead_unmapped l ha]
    rfl
  | true =>
    rw [exec_registerWrite h, show leafRegWrite a w poison = fun l => leafAnswer l 0#64 respError from
      funext fun l => leafRegWrite_unmapped w poison l ha]
    rfl

/-! #### Slot commands -/
/-- How many of the five commands a write of `SLOT_CMD_s` sets. -/
def slotCmds (w : Word) : Nat := (w.getLsbD 0).toNat + (w.getLsbD 1).toNat + (w.getLsbD 3).toNat + (w.getLsbD 4).toNat + (w.getLsbD 5).toNat

theorem length_filter_id (bs : List Bool) : (bs.filter id).length = (bs.map Bool.toNat).sum := by
  induction bs with
  | nil => rfl
  | cons b bs ih => cases b <;> simp [ih, Nat.add_comm]

theorem leafSlotCmd_eq (k : Nat) (w : Word) (l : Leaf) : leafSlotCmd k w l =
    if 2 ≤ slotCmds w ∨ (w.getLsbD 2 = true ∧ w.getLsbD 1 = false) then { l with slotCmdBad := ctrInc l.slotCmdBad }
    else if w.getLsbD 0 then leafJoinGo k l
    else if w.getLsbD 1 then leafArrive k (BitVec.extractLsb' 8 7 w).toNat (w.getLsbD 2) l
    else if w.getLsbD 3 then leafLeave k l
    else if w.getLsbD 4 then leafPark k l
    else if w.getLsbD 5 then leafUnpark k l
    else l := by
  have hcount : ([w.getLsbD 0, w.getLsbD 1, w.getLsbD 3, w.getLsbD 4, w.getLsbD 5].filter id).length = slotCmds w := by
    rw [length_filter_id]
    simp [slotCmds, Nat.add_assoc]
  unfold leafSlotCmd
  simp only [wbit_eq, hcount, wf_eq, Bool.not_eq_true']
  rfl

theorem slotWrite_cmd (k : Nat) (w : Word) (l : Leaf) : slotWrite k 0x38 w l = leafSlotCmd k w l := rfl

/-- A write of `SLOT_CMD_s` is the slot's command. -/
theorem leafRegWrite_slotCmd {k : Nat} (hk : k < 32) (w : Word) (poison : Bool) (l : Leaf) :
    leafRegWrite (0x8038 + 0x200 * k) w poison l = leafAnswer (leafSlotCmd k w l) 0#64 respOk := by
  have hslot : (0x8038 + 0x200 * k - 0x8000) / 512 = k := by omega
  have hoff : (0x8038 + 0x200 * k) % 512 = 0x38 := by omega
  unfold leafRegWrite
  rw [if_neg (by omega), if_neg (fun hlow => absurd hlow.1 (by omega))]
  iterate 5 rw [if_neg (by omega)]
  rw [if_pos (by omega), hslot, hoff, slotWrite_cmd]
  exact if_neg (by simp [slotWord])

/-- Settles O31: the write falls on its edge as the slot's command. -/
theorem slotCommandsOneAtATime : Obligations.SlotCommandsOneAtATime := by
  unfold Obligations.SlotCommandsOneAtATime
  intro s k w poison h hk
  have hcmd : leafRegWrite (0x8038 + 0x200 * k) w poison = fun l => leafAnswer (leafSlotCmd k w l) 0#64 respOk :=
    funext fun l => leafRegWrite_slotCmd hk w poison l
  rw [exec_registerWrite h, hcmd]
  simp only [leafSlotCmd_eq]
  rfl

end Sys2Proof.Proofs

/-! ### Fencing and the heartbeat (R428 to R434) -/
namespace Sys2Proof.Proofs
open Sys2Proof.Machine Sys2Proof.Laws

/-! #### Causes -/
/-- A fence whose host is fenced by its first cause. -/
def fenceBegun (c : Nat) (l : Leaf) : Fence :=
  { l.fence with causes := l.fence.causes ||| 2 ^ (c - 1), causeEdge := some l.time.edges, fencedEdge := l.time.edges, fenced := true,
                 draining := true, first := c, fencedAt := leafNs l, count := ctrInc l.fence.count }
/-- A fence that stands, and takes another cause. -/
def fenceJoined (c : Nat) (l : Leaf) : Fence :=
  { l.fence with causes := l.fence.causes ||| 2 ^ (c - 1), causeEdge := some l.time.edges,
                 first := if l.fence.fencedEdge = l.time.edges then min l.fence.first c else l.fence.first }

theorem leafFence_first {l : Leaf} (c : Nat) (h : l.fence.fenced = false) :
    leafFence c l = leafEv (capTearAll { l with fence := fenceBegun c l }) .fenced 0 c := by
  unfold leafFence
  exact if_neg (by simp [h])
theorem leafFence_again {l : Leaf} (c : Nat) (h : l.fence.fenced = true) : leafFence c l = { l with fence := fenceJoined c l } := by
  unfold leafFence
  exact if_pos h

theorem still_capTearAll (l : Leaf) : Still l (capTearAll l) := ⟨congrArg TimeCore.edges (capTearAll_keeps l).2, (capTearAll_keeps l).1⟩

/-- What a cause makes of the fence. -/
theorem leafFence_fence (c : Nat) (l : Leaf) : (leafFence c l).fence = if l.fence.fenced then fenceJoined c l else fenceBegun c l := by
  cases h : l.fence.fenced with
  | true => rw [leafFence_again c h]; rfl
  | false => rw [leafFence_first c h]; exact (still_then (still_ev _ _ _ _) (still_capTearAll _)).2
theorem leafFence_edges (c : Nat) (l : Leaf) : (leafFence c l).time.edges = l.time.edges := by
  cases h : l.fence.fenced with
  | true => rw [leafFence_again c h]
  | false => rw [leafFence_first c h]; exact (still_then (still_ev _ _ _ _) (still_capTearAll _)).1

/-- An arrival at a fenced host meets the fence before anything else. -/
theorem leafArrive_fenced {l : Leaf} (k pay : Nat) (freq : Bool) (h : l.fence.fenced = true) :
    leafArrive k pay freq l = updSlot (fencedRefusal l) k (fun y => { y with arriveOutcome := outFenced }) := by
  simp [leafArrive, arriveRefusal, h]

/-- Settles O38: by whether the host is fenced already. -/
theorem fenceCausesAccumulate : Obligations.FenceCausesAccumulate := by
  unfold Obligations.FenceCausesAccumulate
  refine ⟨fun l c _ _ => ?cause, fun s k pay freq h hk hf => ?arrival⟩
  case cause =>
    cases h : l.fence.fenced with
    | false => simp [leafFence_fence, fenceBegun, leafNs_eq, h]
    | true => simp [leafFence_again c h, fenceJoined, h, min_def]
  case arrival =>
    have hrow : exec (.arrive k pay freq) s = .next (s.withLeaf (leafArrive k pay freq s.leaf)) := atLeafBelow_runs h hk
    rw [hrow, leafArrive_fenced k pay freq hf]
    rfl

/-! #### Unfencing -/
/-- The fence that an accepted `UNFENCE` leaves. -/
def fenceLifted (f : Fence) : Fence := { f with fenced := false, causes := 0, first := 0, hbArmed := false, injected := false }

theorem unfenceOk_iff (l : Leaf) : unfenceOk l = true ↔
    l.fence.draining = false ∧ l.fence.pinReset = false ∧ l.fence.pinFence = false ∧ l.fence.causes.testBit 3 = false ∧
      l.fence.causeEdge ≠ some l.time.edges := by
  simp [unfenceOk, and_assoc]

theorem leafUnfence_ok {l : Leaf} (h : unfenceOk l = true) : Leaf.raised { l with fence := fenceLifted l.fence } (leafUnfence l) := by
  have hlift : leafUnfence l =
      if l.fence.fenced then leafEv { l with fence := fenceLifted l.fence } .unfenced 0 l.fence.first else { l with fence := fenceLifted l.fence } := by
    unfold leafUnfence
    exact if_pos h
  rw [hlift]
  split
  · exact leafEv_raised _ _ _ _
  · rfl
theorem leafUnfence_refused {l : Leaf} (h : unfenceOk l = false) :
    leafUnfence l = { l with fence := { l.fence with unfenceRefused := ctrInc l.fence.unfenceRefused } } := by
  simp [leafUnfence, h]

/-- A management release takes bit 3 from the causes and no other. -/
theorem testBit_mgmtRelease (causes b : Nat) :
    (if causes.testBit 3 then causes ^^^ 8 else causes).testBit b = (causes.testBit b && decide (b ≠ 3)) := by
  have h8 : Nat.testBit 8 b = decide (3 = b) := Nat.testBit_two_pow (n := 3)
  by_cases hb : b = 3
  · subst hb
    cases h : causes.testBit 3 <;> simp [h, h8]
  · cases h : causes.testBit 3 <;> simp [hb, h8, Ne.symm hb]

/-- Settles O37: by what `UNFENCE` asks for. -/
theorem unfenceWhenCausesAreGone : Obligations.UnfenceWhenCausesAreGone := by
  unfold Obligations.UnfenceWhenCausesAreGone
  intro s h
  have hrow : exec .unfence s = .next (s.withLeaf (leafUnfence s.leaf)) := leafDo_with h
  refine ⟨fun hdrain hreset hpin hmgmt hedge => ?accepted, fun hstands => ?refused, _, rfl, testBit_mgmtRelease _⟩
  case accepted => exact ⟨_, hrow, leafUnfence_ok ((unfenceOk_iff _).mpr ⟨hdrain, hreset, hpin, hmgmt, hedge⟩)⟩
  case refused =>
    have hno : unfenceOk s.leaf = false := by
      rw [Bool.eq_false_iff, ne_eq, unfenceOk_iff]
      rintro ⟨hdrain, hreset, hpin, hmgmt, hedge⟩
      simp [hdrain, hreset, hpin, hmgmt, hedge] at hstands
    rw [hrow, leafUnfence_refused hno]

/-! #### The heartbeat -/
/-- The timer's expiry: the clock has run to its instant, the timer is disarmed and the host fenced. -/
theorem leafHbExpire_armed {l : Leaf} (h : l.fence.hbArmed = true) :
    (leafHbExpire l).fence.hbArmed = false ∧ (leafHbExpire l).fence.fenced = true ∧ (leafHbExpire l).fence.causes.testBit 0 = true ∧
      l.fence.hbStart + l.fence.hbTimeout * 1280 ≤ (leafHbExpire l).time.edges := by
  unfold leafHbExpire
  rw [if_pos h]
  refine ⟨?armed, ?fenced, ?cause, ?clock⟩
  case clock =>
    rw [leafFence_edges]
    exact leafToEdge_reaches _ l
  all_goals
    rw [leafFence_fence]
    split
  case armed => rfl
  case armed => rfl
  case fenced => assumption
  case fenced => rfl
  case cause => simp [fenceJoined, fcHeartbeat]
  case cause => simp [fenceBegun, fcHeartbeat]

/-- Settles O36: each write and each event by its own row. -/
theorem heartbeatTimer : Obligations.HeartbeatTimer := by
  unfold Obligations.HeartbeatTimer
  intro s h
  have hbeat : exec .heartbeat s = .next (s.withLeaf (leafHeartbeat s.leaf)) := leafDo_with h
  have htimeout : ∀ v, exec (.hbTimeoutWrite v) s = .next (s.withLeaf (leafHbTimeout v s.leaf)) := fun v => leafDo_with h
  refine ⟨fun hf ht => ?arm, fun hidle => ?idle, ?disarm, fun v hlow hhigh => ?set, fun v hbad => ?bad, fun harmed => ?expires, fun hoff => ?never,
    ⟨_, rfl, rfl⟩, fun hok => ?unfenced⟩
  case arm => simp [hbeat, leafHeartbeat, hf, ht]
  case idle => simp [hbeat, leafHeartbeat, hidle]
  case disarm => simp [htimeout, leafHbTimeout]
  case set =>
    rw [htimeout, leafHbTimeout, if_neg (by omega), if_neg (by omega)]
  case bad =>
    rw [htimeout, leafHbTimeout, if_neg (by omega), if_pos (by omega)]
  case expires =>
    obtain ⟨hdisarmed, hfenced, hcause, hclock⟩ := leafHbExpire_armed harmed
    exact ⟨_, rfl, hdisarmed, hfenced, hcause, hclock, leafDo_with h⟩
  case never => simp [leafHbExpire, hoff]
  case unfenced =>
    refine ⟨_, leafDo_with h, ?_⟩
    have hfence := congrArg (fun m : Leaf => m.fence) (leafUnfence_ok hok)
    exact congrArg Fence.hbArmed hfence

end Sys2Proof.Proofs

/-! ### The flash window (R448, R515) -/
namespace Sys2Proof.Proofs
open Sys2Proof.Machine Sys2Proof.Laws

section
variable {l : Leaf} {a : Nat}

/-- A refused operation shows its code; its event changes the interrupt registers alone. -/
theorem flashRefuse_raised (n : Nat) (l : Leaf) : Leaf.raised { l with fwin := { l.fwin with result := n } } (flashRefuse n l) := leafEv_raised _ _ _ _

theorem leafFlashProgram_refused {n : Nat} (h : programRefusal l (l.fwin.page * 4096) = n) (hn : n ≠ 0) : leafFlashProgram l = flashRefuse n l := by
  unfold leafFlashProgram
  simp only [h]
  exact if_pos hn

/-! #### Regions of the flash -/
theorem flashRegion_outside (h : a < 0x100000 ∨ 0xB00000 ≤ a) : flashRegion a = 0 ∨ flashRegion a = 4 := by
  unfold flashRegion flashA flashB flashUserA flashRest
  split_ifs <;> omega
/-- The two copies of the image: A below 0x500000, B above. -/
theorem flashRegion_copy (h0 : 0x100000 ≤ a) (h1 : a < 0x900000) : flashRegion a = if 0x500000 ≤ a then 2 else 1 := by
  unfold flashRegion flashA flashB flashUserA flashRest
  split_ifs <;> omega
theorem flashRegion_user (h0 : 0x900000 ≤ a) (h1 : a < 0xB00000) : flashRegion a = 3 := by
  unfold flashRegion flashA flashB flashUserA flashRest
  split_ifs <;> omega

/-- A page of a copy is in use when the leaf started from that copy. -/
theorem flashInUse_copy (s : Startup) (h0 : 0x100000 ≤ a) (h1 : a < 0x900000) :
    flashInUse s a = true ↔ s.phase ≠ 4 ∧ (s.copyB = true ↔ 0x500000 ≤ a) := by
  simp only [flashInUse, flashRegion_copy h0 h1, Bool.and_eq_true, decide_eq_true_eq]
  refine and_congr Iff.rfl ?_
  by_cases ha : 0x500000 ≤ a <;> cases s.copyB <;> simp [ha]

theorem flashRegion_copy_mem (h0 : 0x100000 ≤ a) (h1 : a < 0x900000) : flashRegion a = 1 ∨ flashRegion a = 2 := by
  rw [flashRegion_copy h0 h1]
  split_ifs <;> simp

/-! #### What `PROGRAM` meets -/
theorem programRefusal_outside (hb : l.fwin.busy = false) (h : a < 0x100000 ∨ 0xB00000 ≤ a) : programRefusal l a = 1 := by
  simp [programRefusal, hb, flashRegion_outside h]
theorem programRefusal_copy (hb : l.fwin.busy = false) (h0 : 0x100000 ≤ a) (h1 : a < 0x900000) :
    programRefusal l a = if flashInUse l.start a then 2 else if l.sec.locked then 3 else 0 := by
  obtain hr | hr := flashRegion_copy_mem h0 h1 <;> simp [programRefusal, hb, hr]
theorem programRefusal_user (hb : l.fwin.busy = false) (h0 : 0x900000 ≤ a) (h1 : a < 0xB00000) (hl : l.sec.locked = false) :
    programRefusal l a = 5 := by
  simp [programRefusal, hb, flashInUse, flashRegion_user h0 h1, hl]
  split_ifs <;> simp

end

/-- Settles O58: a running operation refuses every other; else `PROGRAM` goes by the region of its page. -/
theorem flashRefusals : Obligations.FlashRefusals := by
  unfold Obligations.FlashRefusals
  intro s h
  have hread : exec .flashRead s = .next (s.withLeaf (leafFlashRead s.leaf)) := leafDo_with h
  have hprogram : exec .flashProgram s = .next (s.withLeaf (leafFlashProgram s.leaf)) := leafDo_with h
  have htrim : exec .flashTrimAdd s = .next (s.withLeaf (leafFlashTrim s.leaf)) := leafDo_with h
  have hstage : exec .flashStageDone s = .next (s.withLeaf (leafFlashStage s.leaf)) := leafDo_with h
  have hrefused : ∀ {i : Instr} {f : Leaf → Leaf} {n : Nat}, exec i s = .next (s.withLeaf (f s.leaf)) → f s.leaf = flashRefuse n s.leaf →
      ∃ m, exec i s = .next (s.withLeaf m) ∧ Leaf.raised { s.leaf with fwin := { s.leaf.fwin with result := n } } m := fun hi hf =>
    ⟨_, hi, hf ▸ flashRefuse_raised _ _⟩
  refine ⟨fun hb => ⟨?busyRead, ?busyProgram, ?busyTrim, ?busyStage⟩, fun hb => ⟨?outside, ?inUse, ?locked, ?user, ?runs, ?lockedOthers, ?read⟩⟩
  case busyRead => exact hrefused hread (by simp [leafFlashRead, hb])
  case busyProgram => exact hrefused hprogram (leafFlashProgram_refused (by simp [programRefusal, hb]) (by norm_num))
  case busyTrim => exact hrefused htrim (by simp [leafFlashTrim, hb])
  case busyStage => exact hrefused hstage (by simp [leafFlashStage, hb])
  case outside => exact fun ha => hrefused hprogram (leafFlashProgram_refused (programRefusal_outside hb ha) (by norm_num))
  case inUse =>
    intro h0 h1 hphase hcopy
    have huse := (flashInUse_copy s.leaf.start h0 h1).mpr ⟨hphase, hcopy⟩
    exact hrefused hprogram (leafFlashProgram_refused (by rw [programRefusal_copy hb h0 h1, if_pos huse]) (by norm_num))
  case locked =>
    intro h0 h1 hother hl
    have huse : ¬ flashInUse s.leaf.start (s.leaf.fwin.page * 4096) = true := by rw [flashInUse_copy _ h0 h1]; tauto
    exact hrefused hprogram (leafFlashProgram_refused (by rw [programRefusal_copy hb h0 h1, if_neg huse, if_pos hl]) (by norm_num))
  case user => exact fun h0 h1 hl => hrefused hprogram (leafFlashProgram_refused (programRefusal_user hb h0 h1 hl) (by norm_num))
  case runs =>
    intro h0 h1 hother hl
    have huse : ¬ flashInUse s.leaf.start (s.leaf.fwin.page * 4096) = true := by rw [flashInUse_copy _ h0 h1]; tauto
    refine ⟨_, hprogram, ?_⟩
    have hgo : programRefusal s.leaf (s.leaf.fwin.page * 4096) = 0 := by rw [programRefusal_copy hb h0 h1, if_neg huse, if_neg (by simp [hl])]
    simp only [leafFlashProgram, hgo, flashGo]
    refine ⟨rfl, rfl, rfl, ?_⟩
    simp only [ne_eq, not_true_eq_false, if_false]
    split <;> rfl
  case lockedOthers => exact fun hl => ⟨hrefused htrim (by simp [leafFlashTrim, hb, hl]), hrefused hstage (by simp [leafFlashStage, hb, hl])⟩
  case read => exact ⟨_, hread, by simp [leafFlashRead, hb, flashGo]⟩

end Sys2Proof.Proofs

/-! ### The class of a failing site (R414, R415) -/
namespace Sys2Proof.Proofs
open Sys2Proof.Machine Sys2Proof.Laws

section
variable {α : Type}

theorem tabDrop_put_same (t : Tab α) (k : Nat) (a : α) : tabDrop k (tabPut k a t) = tabDrop k t := by
  induction t with
  | nil => simp [tabPut, tabDrop]
  | cons x t ih =>
    obtain ⟨j, b⟩ := x
    by_cases hk : k < j
    · simp [tabPut, tabDrop, hk, show j ≠ k by omega]
    · by_cases hj : j = k <;> simp [tabPut, tabDrop, hk, hj, ih]
theorem tabDrop_drop_same (t : Tab α) (k : Nat) : tabDrop k (tabDrop k t) = tabDrop k t := by
  induction t with
  | nil => rfl
  | cons x t ih =>
    obtain ⟨j, b⟩ := x
    by_cases hj : j = k <;> simp [tabDrop, hj, ih]
/-- The last of two writes of an entry stands. -/
theorem tabSet_set_same [DecidableEq α] {d : α} (t : Tab α) (k : Nat) (a b : α) : tabSet d (tabSet d t k a) k b = tabSet d t k b := by
  have hdrop : tabDrop k (tabSet d t k a) = tabDrop k t := by
    unfold tabSet
    split <;> simp [tabDrop_put_same, tabDrop_drop_same]
  rw [tabSet, hdrop, tabSet]

end

section
variable {path i : Nat} {e : HistEntry} {t : Tab HistEntry}

theorem histFind_drop (i : Nat) (h : histFind path t = none) : histFind path (tabDrop i t) = none := by
  induction t with
  | nil => rfl
  | cons x t ih =>
    obtain ⟨j, b⟩ := x
    by_cases hb : b.path = path
    · simp [histFind, hb] at h
    · simp only [histFind, hb, if_false] at h
      by_cases hj : j = i <;> simp [tabDrop, hj, histFind, hb, ih h]
theorem histFind_put (h : histFind path t = none) (he : e.path = path) : histFind path (tabPut i e t) = some i := by
  induction t with
  | nil => simp [tabPut, histFind, he]
  | cons x t ih =>
    obtain ⟨j, b⟩ := x
    by_cases hb : b.path = path
    · simp [histFind, hb] at h
    · simp only [histFind, hb, if_false] at h
      by_cases hi : i < j <;> simp [tabPut, hi, histFind, he, hb, ih h]
/-- An entry written for a path that had none is found. -/
theorem histFind_set (h : histFind path t = none) (he : e.path = path) (hne : path ≠ 0) : histFind path (tabSet {} t i e) = some i := by
  have hd : e ≠ {} := by
    rintro rfl
    exact hne he.symm
  rw [tabSet, if_neg hd]
  exact histFind_put (histFind_drop i h) he

end

section
variable {cap path t i : Nat} {h : History}

/-- A unit's history with the entry of one path written at `i`. -/
def withEntry (h : History) (i : Nat) (e : HistEntry) : History := { h with entries := tabSet {} h.entries i e }

/-- The first error of a path opens its entry. -/
theorem histError_new (hp : histFind path h.entries = none) (hv : h.vol.find? (fun e => decide (e.path = path)) = none)
    (hf : histFree cap h.entries = some i) : histError cap path t h = (withEntry h i (entryError path t {}), 0, 1) := by
  simp [histError, hp, hv, hf, withEntry]

/-- A later one goes to it. -/
theorem histError_again {e : HistEntry} (hp : histFind path h.entries = none) (hne : path ≠ 0) (he : e.path = path) :
    histError cap path t (withEntry h i e) = (withEntry h i (entryError path t e), e.cls, classAfter e t) := by
  simp [histError, withEntry, histFind_set hp he hne, tabSet_set_same]

end

/-- Settles O52: three errors of one path go to one entry, whose class R415 raises by the errors before. -/
theorem threeErrorsInADayMakePermanent : Obligations.ThreeErrorsInADayMakePermanent := by
  unfold Obligations.ThreeErrorsInADayMakePermanent
  intro cap path t1 t2 t3 i h hne hp hv hf
  have h1 : histError cap path t1 h = (withEntry h i (entryError path t1 {}), 0, 1) := histError_new hp hv hf
  simp only [h1, histError_again hp hne (show (entryError _ _ _).path = path from rfl)]
  have hday : 86400 * 1000000000 = nsDay := by decide
  rw [hday]
  refine ⟨trivial, rfl, ?third, ?entry⟩
  case third =>
    by_cases hd : t2 ≤ t1 + nsDay
    · simp [entryError, classAfter, hd]
    · simp [entryError, classAfter, hd]
  case entry => simp [withEntry, entryError, satN]

end Sys2Proof.Proofs

/-! ### `LOG_READ` (R536) -/
namespace Sys2Proof.Proofs
open Sys2Proof.Machine Sys2Proof.Laws

/-- Settles O51: by what `takeRecs` takes of the records asked for. -/
theorem logReadAnswersWholeRecords : Obligations.LogReadAnswersWholeRecords := by
  unfold Obligations.LogReadAnswersWholeRecords
  intro area tag first limit c
  exact ⟨rfl, rfl, takeRecs_spec _ limit⟩

end Sys2Proof.Proofs

/-! ### Requests run once (R437) -/
namespace Sys2Proof.Proofs
open Sys2Proof.Machine Sys2Proof.Laws

section
variable {cmd id : Nat} {g : Gate} {bad force : Bool} {body : Bytes} {run : Chan → Ran} {c : Chan}

/-- The arguments that an ID is held with. -/
def argsOf (cmd : Nat) (force : Bool) (body : Bytes) : MgmtArgs := { cmd := cmd, force := force, body := body }

theorem heldOf_of_find {a : MgmtAnswer} {args : MgmtArgs} {l : List MgmtAnswer} (h : l.find? (fun x => decide (x.id = id)) = some a) :
    heldOf id args l = if a.args = args then .again a else .conflict := by
  simp [heldOf, h]

theorem chanCommand_again {a : MgmtAnswer} (h0 : id ≠ 0) (h : c.answers.find? (fun x => decide (x.id = id)) = some a)
    (ha : a.args = argsOf cmd force body) : chanCommand cmd g bad id force body run c = (c, .held true) := by
  have hheld : heldOf id (argsOf cmd force body) c.answers = .again a := by rw [heldOf_of_find h, if_pos ha]
  unfold argsOf at hheld
  simp [chanCommand, h0, hheld]

theorem chanCommand_conflict {a : MgmtAnswer} (h0 : id ≠ 0) (h : c.answers.find? (fun x => decide (x.id = id)) = some a)
    (ha : a.args ≠ argsOf cmd force body) : chanCommand cmd g bad id force body run c = (c, .now (if bad then 2 else 3)) := by
  have hheld : heldOf id (argsOf cmd force body) c.answers = .conflict := by rw [heldOf_of_find h, if_neg ha]
  unfold argsOf at hheld
  simp [chanCommand, h0, hheld]

/-- What a fresh request that is not turned away as busy did: nothing where a general refusal meets it. -/
def freshRan (g : Gate) (bad : Bool) (run : Chan → Ran) (c : Chan) : Ran :=
  if generalStatus g bad c = 0 then run c else { unit := c, status := generalStatus g bad c }
/-- The channel after it: an accepted command is audited (R342). -/
def freshUnit (id cmd : Nat) (r : Ran) : Chan := if r.status = 0 then chanAudit r.unit none [id, cmd] else r.unit
/-- The answer that is held for it. -/
def freshAnswer (id : Nat) (args : MgmtArgs) (c : Chan) (r : Ran) (u : Chan) : MgmtAnswer :=
  { id := id, args := args, status := r.status, body := r.body, accepted := chanNs c, heldAt := chanClock u, running := r.running, more := r.more }

theorem chanCommand_fresh (h0 : id ≠ 0) (hh : heldOf id (argsOf cmd force body) c.answers = .fresh) (hb : generalStatus g bad c ≠ 4) :
    ∃ rest, chanCommand cmd g bad id force body run c =
      ({ freshUnit id cmd (freshRan g bad run c) with
          answers := freshAnswer id (argsOf cmd force body) c (freshRan g bad run c) (freshUnit id cmd (freshRan g bad run c)) :: rest }, .held false) := by
  unfold argsOf at hh
  exact ⟨_, by simp only [chanCommand, h0, hh, hb, if_false]; rfl⟩

end

/-- Settles O53: what ran is held in front under its ID, and what is held answers the ID's next request. -/
theorem commandsRunOnce : Obligations.CommandsRunOnce := by
  unfold Obligations.CommandsRunOnce
  intro cmd id g force body run c h0 args bad
  refine ⟨fun hfresh hbusy => ?fresh, fun a ha => ⟨chanCommand_again h0 ha, fun hne => chanCommand_conflict h0 ha hne⟩⟩
  obtain ⟨rest, hran⟩ := chanCommand_fresh (run := run) h0 hfresh hbusy
  simp only [hran]
  exact ⟨trivial, fun bad' run' g' => chanCommand_again h0 (findAnswer_head rfl) rfl⟩

end Sys2Proof.Proofs

/-! ### Injections that are refused (R439, R440) -/
namespace Sys2Proof.Proofs
open Sys2Proof.Machine Sys2Proof.Laws

/-- Raising leaves the injections. -/
theorem inj_of_raised {c d : Chan} (h : c.raised d) : d.inj = c.inj := by
  unfold Chan.raised at h
  rw [← h]

theorem freshUnit_inj (id cmd : Nat) (r : Ran) : (freshUnit id cmd r).inj = r.unit.inj := by
  unfold freshUnit
  split
  · exact inj_of_raised (chanAudit_raised _ _ _)
  · rfl

theorem injStart_inj_length {id kind arg arg2 dur count : Nat} (c : Chan) (h : kind ≠ 8) :
    (injStart id kind arg arg2 dur count c).inj.length = c.inj.length + 1 := by
  have hev : (chanEv c .injectStart [id, kind]).inj = c.inj := inj_of_raised (chanEv_raised _ _ _)
  simp [injStart, h, hev]

/-- An `INJECT` meets these general refusals (R481, R531). -/
def injectGate (force : Bool) : Gate := { lock := true, debug := force }

section
variable {id kind arg arg2 dur count : Nat} {force safe : Bool} {c : Chan}

theorem mgmtInject_fresh (h0 : id ≠ 0) (hf : c.answers.find? (fun x => decide (x.id = id)) = none) (ha : injArgsOk kind dur count = true)
    (ht : injTargetOk kind arg arg2 c = true) (hb : generalStatus (injectGate force) false c ≠ 4) :
    (let r := freshRan (injectGate force) false (runInject id kind arg arg2 dur count force safe) c
     let d := (mgmtInject id kind arg arg2 dur count force safe c).1
     d.inj = r.unit.inj ∧ d.answers.head?.map (fun a => (a.id, a.status)) = some (id, r.status)) := by
  have hbad : (!injArgsOk kind dur count || !injTargetOk kind arg arg2 c) = false := by simp [ha, ht]
  have hfresh : ∀ args, heldOf id args c.answers = .fresh := fun args => by simp [heldOf, hf]
  obtain ⟨rest, hran⟩ := chanCommand_fresh (cmd := cmInject) (force := force) (body := injectBytes kind arg arg2 dur count false)
    (run := runInject id kind arg arg2 dur count force safe) h0 (hfresh _) hb
  simp only [mgmtInject, hbad]
  unfold injectGate at hran ⊢
  rw [hran]
  exact ⟨freshUnit_inj _ _ _, rfl⟩

/-- With nothing else standing in the way, an `INJECT` is refused when it is forced without a debug unlock. -/
theorem generalStatus_inject (hr : c.restart = none) (hp : c.start.phase ≠ 4) (hl : c.sec.locked = false) :
    generalStatus (injectGate force) false c = if force && !c.sec.debugOn then 7 else 0 := by
  simp [generalStatus, injectGate, hr, hp, hl]

/-- Then it runs. -/
theorem freshRan_inject {run : Chan → Ran} (hg : generalStatus (injectGate force) false c = if force && !c.sec.debugOn then 7 else 0)
    (h : force = false ∨ c.sec.debugOn = true) : freshRan (injectGate force) false run c = run c := by
  have hno : (force && !c.sec.debugOn) = false := by obtain h | h := h <;> simp [h]
  simp [freshRan, hg, hno]

end

/-- Settles O54: by the general refusals, then by what the image and the safety of the leaves allow. -/
theorem unsafeInjectionsRefused : Obligations.UnsafeInjectionsRefused := by
  unfold Obligations.UnsafeInjectionsRefused
  intro id kind arg arg2 dur count force safe c h0 hf ha ht hr hp hl
  have hgen := generalStatus_inject (force := force) hr hp hl
  have hbusy : generalStatus (injectGate force) false c ≠ 4 := by
    rw [hgen]
    split <;> norm_num
  obtain ⟨hinj, hans⟩ := mgmtInject_fresh (safe := safe) h0 hf ha ht hbusy
  refine ⟨fun hforce hdebug => ?debug, fun hallowed hoff => ?disabled, fun hforce hon hunsafe => ?notSafe, fun hsafe hallowed hon h1 h7 => ?starts⟩
  case debug =>
    have hran : ∀ run, freshRan (injectGate force) false run c = { unit := c, status := 7 } := fun run => by
      rw [freshRan, hgen]
      simp [hforce, hdebug]
    rw [hran] at hinj hans
    exact ⟨hinj, hans⟩
  case disabled =>
    have hran : runInject id kind arg arg2 dur count force safe c = { unit := c, status := stInjectDisabled } := by simp [runInject, hoff]
    rw [freshRan_inject hgen hallowed, hran] at hinj hans
    exact ⟨hinj, hans⟩
  case notSafe =>
    have hran : runInject id kind arg arg2 dur count force safe c = { unit := c, status := stInjectUnsafe } := by
      simp [runInject, hon, hforce, hunsafe]
    rw [freshRan_inject hgen (.inl hforce), hran] at hinj hans
    exact ⟨hinj, hans⟩
  case starts =>
    have hkind : kind ≠ 8 := by omega
    have hran : runInject id kind arg arg2 dur count force safe c = { unit := injStart id kind arg arg2 dur count c } := by
      obtain h | h := hsafe <;> simp [runInject, hon, h, hkind]
    rw [freshRan_inject hgen hallowed, hran] at hinj
    rw [hinj]
    exact injStart_inj_length c hkind

end Sys2Proof.Proofs

/-! ### What events and the card leave of the module (R538, R561) -/
namespace Sys2Proof.Proofs
open Sys2Proof.Machine Sys2Proof.Laws

theorem carded_cardEv {m : Module} {b : Box} (e : Ev) (v : List Nat) (h : m.carded b.mod) : m.carded (cardEv e v b).mod := by
  unfold cardEv
  split
  · exact carded_trans h rfl
  · exact h
theorem carded_boxEv {m : Module} {b : Box} (e : Ev) (v : List Nat) (h : m.carded b.mod) : m.carded (boxEv e v b).mod := by
  refine carded_cardEv e v ?_
  unfold sledEv
  split <;> exact h

section
variable {m n : Module} (h : m.carded n)
include h

theorem carded_feeds : n.feeds = m.feeds := by rw [← h]
theorem carded_sleds : n.sleds = m.sleds := by rw [← h]
theorem carded_busOn : n.busOn = m.busOn := by rw [← h]
theorem carded_feedLoss : n.feedLoss = m.feedLoss := by rw [← h]
theorem carded_efuseTrip : n.efuseTrip = m.efuseTrip := by rw [← h]
theorem carded_feedAt (f : Nat) : feedAt n f = feedAt m f := by rw [feedAt, carded_feeds h, feedAt]
theorem carded_sledAt (k : Nat) : sledAt n k = sledAt m k := by rw [sledAt, carded_sleds h, sledAt]

end

end Sys2Proof.Proofs

/-! ### The feeds (R544) -/
namespace Sys2Proof.Proofs
open Sys2Proof.Machine Sys2Proof.Laws

section
variable {b : Box} {f : Nat}

/-- Where a feed's move leads from the states it leaves. -/
def movedFrom (from_ : List FeedState) (st x : FeedState) : FeedState := if from_.contains x then st else x

theorem feedAt_setFeed (m : Module) (f j : Nat) (x : Feed) : feedAt (setFeed m f x) j = if j = f then x else feedAt m j := tabGet_set _ _ _ _

/-- A move changes its feed's state alone among the feeds. -/
theorem feedMove_feedAt (from_ : List FeedState) (st : FeedState) (e : Option Ev) (j : Nat) :
    (feedAt (feedMove f from_ st e b).mod j).state = if j = f then movedFrom from_ st (feedAt b.mod f).state else (feedAt b.mod j).state := by
  have hmoved : (setFeed b.mod f { feedAt b.mod f with state := st }).carded
      (match e with
        | some v => boxEv v [f] { b with mod := setFeed b.mod f { feedAt b.mod f with state := st } }
        | none => { b with mod := setFeed b.mod f { feedAt b.mod f with state := st } }).mod := by
    cases e with
    | none => rfl
    | some v => exact carded_boxEv v [f] rfl
  unfold feedMove movedFrom
  by_cases hc : from_.contains (feedAt b.mod f).state = true
  · rw [if_pos hc, if_pos hc]
    refine (congrArg Feed.state (carded_feedAt (carded_pumpBox hmoved) j)).trans ?_
    rw [feedAt_setFeed]
    exact apply_ite Feed.state _ _ _
  · rw [if_neg hc, if_neg hc]
    by_cases hj : j = f
    · rw [if_pos hj, hj]
    · rw [if_neg hj]

/-- A move leaves the count of losses. -/
theorem feedMove_feedLoss (from_ : List FeedState) (st : FeedState) (e : Option Ev) : (feedMove f from_ st e b).mod.feedLoss = b.mod.feedLoss := by
  unfold feedMove
  dsimp only
  split
  · cases e with
    | none => exact carded_feedLoss (m := setFeed b.mod f { feedAt b.mod f with state := st }) (carded_pumpBox rfl)
    | some v => exact carded_feedLoss (m := setFeed b.mod f { feedAt b.mod f with state := st }) (carded_pumpBox (carded_boxEv v [f] rfl))
  · rfl

theorem warnFalls_feeds (b : Box) : (warnFalls b).mod.feeds = b.mod.feeds := by
  unfold warnFalls
  split
  · dsimp only
    split <;> exact carded_feeds (m := { b.mod with pwrWarn := false }) (carded_cardEv _ _ rfl)
  · rfl

theorem busRise_feeds (now : Nat) (m : Module) : (busRise now m).feeds = m.feeds := by
  unfold busRise sledsStart
  split
  · simp only [List.range, List.range.loop, List.foldl]
    split <;> split <;> rfl
  · rfl

/-- A feed that meets the entry rule of `USABLE` enters it, unless it is reversed. -/
theorem boxFeedUsable_feedAt (f j : Nat) (b : Box) : (feedAt (boxFeedUsable f b).mod j).state =
    if j = f then (if (feedAt b.mod f).state = .reversed then .reversed else .usable) else (feedAt b.mod j).state := by
  unfold boxFeedUsable
  dsimp only
  split
  · rename_i hstay
    by_cases hj : j = f
    · rw [if_pos hj, hj]
      obtain h | h := hstay <;> simp [h]
    · rw [if_neg hj]
  · rename_i hgo
    obtain ⟨-, hrev⟩ := not_or.mp hgo
    have hfeeds : ∀ n : Module, n.feeds = (setFeed b.mod f { feedAt b.mod f with state := .usable }).feeds →
        (feedAt n j).state = if j = f then .usable else (feedAt b.mod j).state := by
      intro n hn
      rw [feedAt, hn, ← feedAt, feedAt_setFeed]
      exact apply_ite Feed.state _ _ _
    rw [if_neg hrev]
    refine hfeeds _ ((carded_feeds (carded_pumpBox (carded_refl _))).trans ?_)
    rw [busRise_feeds, warnFalls_feeds]
    exact carded_feeds (carded_boxEv _ _ rfl)

end

/-- A move that leads to `st` from the states of `from_` alone, as a row of R544 says it. -/
theorem feedMove_own {from_ : List FeedState} {st : FeedState} {go : FeedState → FeedState} (hgo : ∀ x, movedFrom from_ st x = go x) (f : Nat)
    (e : Option Ev) (b : Box) : (feedAt (feedMove f from_ st e b).mod f).state = go (feedAt b.mod f).state := by
  rw [feedMove_feedAt, if_pos rfl, hgo]

theorem feedMove_other {j f : Nat} (hj : j ≠ f) (from_ : List FeedState) (st : FeedState) (e : Option Ev) (b : Box) :
    (feedAt (feedMove f from_ st e b).mod j).state = (feedAt b.mod j).state := by
  rw [feedMove_feedAt, if_neg hj]

/-- Counting a loss leaves every feed. -/
theorem feedAt_countLoss (hit : Bool) (b : Box) (j : Nat) :
    feedAt (if hit then { b with mod := { b.mod with feedLoss := ctrInc b.mod.feedLoss } } else b).mod j = feedAt b.mod j := by
  cases hit <;> rfl

/-- Settles O56: each event is a move from the states it leaves, but for `USABLE`, which a feed enters from all but one. -/
theorem feedsFollowTheirStates : Obligations.FeedsFollowTheirStates := by
  unfold Obligations.FeedsFollowTheirStates
  intro s f hf
  have hother : 1 - f ≠ f := by omega
  refine ⟨⟨_, atPart_runs hf, ?usable, ?usableOther⟩, ⟨_, atPart_runs hf, ?undervolt, ?undervoltOther⟩,
    ⟨_, atPart_runs hf, ?overvolt, feedMove_other hother ..⟩, ⟨_, atPart_runs hf, ?reversed, feedMove_other hother ..⟩,
    ⟨_, atPart_runs hf, ?absent, feedMove_other hother ..⟩, _, atPart_runs hf, ?loss⟩
  case usable => exact (boxFeedUsable_feedAt f f s.box).trans (if_pos rfl)
  case usableOther => exact (boxFeedUsable_feedAt f (1 - f) s.box).trans (if_neg hother)
  case undervolt =>
    refine (feedMove_own (go := fun x => if x = .usable ∨ x = .absent then .undervolt else x) (fun x => by cases x <;> rfl) ..).trans ?_
    rw [feedAt_countLoss]
  case undervoltOther =>
    refine (feedMove_other hother ..).trans ?_
    rw [feedAt_countLoss]
  case overvolt => exact feedMove_own (go := fun x => if x = .usable ∨ x = .absent then .overvolt else x) (fun x => by cases x <;> rfl) ..
  case reversed => exact feedMove_own (go := fun x => if x = .absent then .reversed else x) (fun x => by cases x <;> rfl) ..
  case absent =>
    exact feedMove_own (go := fun x => if x = .usable ∨ x = .undervolt ∨ x = .reversed then .absent else x) (fun x => by cases x <;> rfl) ..
  case loss =>
    refine (feedMove_feedLoss ..).trans ?_
    dsimp only
    split <;> simp_all

end Sys2Proof.Proofs

/-! ### A trip and its retry (R550) -/
namespace Sys2Proof.Proofs
open Sys2Proof.Machine Sys2Proof.Laws

theorem sledAt_sledDown_same (k : Nat) (f : Sled → Sled) (b : Box) : sledAt (sledDown k f b).mod k =
    f { sledAt b.mod k with powered := false, starting := false, safe := false, since := boxClock b } := by
  rw [sledAt, sledDown_sleds, ← sledAt, sledAt_setSled_same]

theorem sledDown_efuseTrip (k : Nat) (f : Sled → Sled) (b : Box) : (sledDown k f b).mod.efuseTrip = b.mod.efuseTrip := by
  unfold sledDown
  dsimp only
  split <;> rfl

theorem sledDown_busOn (k : Nat) (f : Sled → Sled) (b : Box) : (sledDown k f b).mod.busOn = b.mod.busOn := by
  unfold sledDown
  dsimp only
  split <;> rfl

theorem boxClock_sledDown (k : Nat) (f : Sled → Sled) (b : Box) : boxClock (sledDown k f b) = boxClock b := by
  unfold sledDown
  dsimp only
  split <;> rfl

/-- What follows a move at the module leaves its clock. -/
theorem boxClock_pumpBox (b : Box) : boxClock (pumpBox b) = boxClock b := by
  unfold boxClock
  rw [pumpBox_chan, carded_past (pumpBox_mod b)]
  rfl

/-- What a sled's n-th trip records. -/
def tripMark (n : Nat) (x : Sled) : Sled := { x with trips := n, efuseOff := decide (2 ≤ n) }

/-- What a trip makes of a sled's record. -/
def tripped (now : Nat) (x : Sled) : Sled :=
  tripMark (x.trips + 1) { x with powered := false, starting := false, safe := false, since := now }

/-- The module with one more trip counted. -/
def countTrip (m : Module) : Module := { m with efuseTrip := ctrInc m.efuseTrip }

section
variable (k : Nat) (b : Box)

/-- The sled's loss of supply at its trip, before it is counted. -/
def tripDown : Box := sledDown k (tripMark ((sledAt b.mod k).trips + 1)) b

theorem sledTrip_eq : sledTrip k b = pumpBox
    (if 2 ≤ (sledAt b.mod k).trips + 1 then boxEv .sledPowerFault [k] { tripDown k b with mod := countTrip (tripDown k b).mod }
      else { tripDown k b with mod := countTrip (tripDown k b).mod }) := rfl

/-- A trip is the sled's loss of supply, counted, but for the card's and the channel's part in it. -/
theorem sledTrip_carded : (countTrip (tripDown k b).mod).carded (sledTrip k b).mod := by
  rw [sledTrip_eq]
  refine carded_pumpBox ?_
  split
  · exact carded_boxEv _ _ (carded_refl _)
  · exact carded_refl _

theorem sledAt_sledTrip : sledAt (sledTrip k b).mod k = tripped (boxClock b) (sledAt b.mod k) :=
  (carded_sledAt (sledTrip_carded k b) k).trans (sledAt_sledDown_same k _ b)

theorem sledTrip_efuseTrip : (sledTrip k b).mod.efuseTrip = ctrInc b.mod.efuseTrip :=
  (carded_efuseTrip (sledTrip_carded k b)).trans (congrArg ctrInc (sledDown_efuseTrip k _ b))

theorem sledTrip_busOn : (sledTrip k b).mod.busOn = b.mod.busOn :=
  (carded_busOn (sledTrip_carded k b)).trans (sledDown_busOn k _ b)

/-- A first trip raises no event, so the clock stands. -/
theorem boxClock_sledTrip_first (h : (sledAt b.mod k).trips = 0) : boxClock (sledTrip k b) = boxClock b := by
  rw [sledTrip_eq, h, if_neg (by decide), boxClock_pumpBox]
  exact boxClock_sledDown k _ b

end

/-- When the controller tries a sled again. -/
def retryDue (k : Nat) (m : Module) : Option Nat :=
  let x := sledAt m k
  if x.present && decide (x.trips = 1) && !x.powered && !x.starting && !x.thermalOff && m.busOn then some (x.since + nsSec) else none

/-- The controller's try: a soft start from now. -/
def retryStart (k : Nat) (b : Box) : Box := { b with mod := setSled b.mod k { sledAt b.mod k with starting := true, since := boxClock b } }

theorem boxTripRetry_eq (k : Nat) (b : Box) : boxTripRetry k b = boxAt (retryDue k) (retryStart k) b := rfl

section
variable {k : Nat} {b : Box}

theorem retryDue_none {m : Module} (h : (sledAt m k).trips ≠ 1) : retryDue k m = none := by
  unfold retryDue
  simp [h]

theorem retryDue_some {m : Module} {now : Nat} {x : Sled} (h : sledAt m k = tripped now x) (hfirst : x.trips = 0) (hpresent : x.present = true)
    (hheat : x.thermalOff = false) (hbus : m.busOn = true) : retryDue k m = some (now + nsSec) := by
  unfold retryDue
  simp [h, tripped, tripMark, hfirst, hpresent, hheat, hbus]

/-- Running the module's clock leaves the sleds and the bus. -/
theorem retryDue_boxTo (t : Nat) : retryDue k (boxTo t b).mod = retryDue k b.mod := by
  unfold boxTo
  split_ifs <;> rfl

/-- A row with a deadline that the clock's run leaves standing acts exactly where the clock has reached it. -/
theorem boxTripRetry_due {t : Nat} (h : retryDue k b.mod = some t) :
    boxTripRetry k b = if t ≤ boxClock (boxTo t b) then retryStart k (boxTo t b) else boxTo t b := by
  rw [boxTripRetry_eq]
  unfold boxAt
  simp only [h, retryDue_boxTo, Option.any_some, decide_eq_true_eq]

/-- A try itself takes no time. -/
theorem boxClock_boxTripRetry {t : Nat} (h : retryDue k b.mod = some t) : boxClock (boxTripRetry k b) = boxClock (boxTo t b) := by
  rw [boxTripRetry_due h]
  split <;> rfl

/-- With the channel off the clock runs to its mark exactly. -/
theorem boxClock_boxTo_off {t : Nat} (h : chanPowered b.mod = false) (ht : boxClock b ≤ t) : boxClock (boxTo t b) = t := by
  have hchan : chanClock b.chan ≤ boxClock b := Nat.le_add_left ..
  unfold boxTo
  split
  · exact Nat.le_antisymm ht ‹_›
  · rw [if_neg (by simp [h])]
    exact Nat.sub_add_cancel (hchan.trans ht)

/-- A retry whose time has come starts the sled. -/
theorem boxTripRetry_starts {t : Nat} (h : retryDue k b.mod = some t) (ht : t ≤ boxClock (boxTripRetry k b)) :
    (sledAt (boxTripRetry k b).mod k).starting = true := by
  rw [boxClock_boxTripRetry h] at ht
  rw [boxTripRetry_due h, if_pos ht]
  exact congrArg Sled.starting (sledAt_setSled_same ..)

theorem boxTripRetry_none (h : retryDue k b.mod = none) : boxTripRetry k b = b := by
  rw [boxTripRetry_eq]
  unfold boxAt
  rw [h]

/-- A pulled sled's record forgets its trips. -/
theorem sledAt_boxSledRemoved (h : (sledAt b.mod k).present = true) :
    (sledAt (boxSledRemoved k b).mod k).trips = 0 ∧ (sledAt (boxSledRemoved k b).mod k).efuseOff = false := by
  have hsled := carded_sledAt (carded_pumpBox (carded_boxEv .sledRemoved [k] (carded_refl
    (sledDown k (fun x => { x with present := false, trips := 0, efuseOff := false, thermalOff := false }) b).mod))) k
  unfold boxSledRemoved
  rw [if_pos h, hsled, sledAt_sledDown_same]
  exact ⟨rfl, rfl⟩

end

/-- Settles O57: the trip leaves `tripped` at the sled's place, and what is due there is none after a second trip and 1 s on after a first. -/
theorem secondTripHoldsTheSledOff : Obligations.SecondTripHoldsTheSledOff := by
  unfold Obligations.SecondTripHoldsTheSledOff
  intro s k hk hpow
  have htrip : boxOvercurrent k s.box = sledTrip k s.box := if_pos hpow
  have hsled := sledAt_sledTrip k s.box
  refine ⟨s.withBox (sledTrip k s.box), ?runs, congrArg Sled.powered hsled, congrArg Sled.starting hsled, congrArg Sled.trips hsled,
    sledTrip_efuseTrip k s.box, ?second, ?first, ?removed⟩
  case runs => exact htrip ▸ atPart_runs hk
  case second =>
    intro htwo
    have hnone := retryDue_none (k := k) (m := (sledTrip k s.box).mod) (by change 2 ≤ (sledAt (sledTrip k s.box).mod k).trips at htwo; omega)
    refine (atPart_runs hk).trans ?_
    exact congrArg (fun b => Host.Outcome.next ((s.withBox (sledTrip k s.box)).withBox b)) (boxTripRetry_none hnone)
  case first =>
    intro hfirst hpresent hheat hbus
    have hdue := retryDue_some hsled hfirst hpresent hheat ((sledTrip_busOn k s.box).trans hbus)
    have hclock := boxClock_sledTrip_first k s.box hfirst
    refine ⟨_, atPart_runs hk, fun hoff => ?_, boxTripRetry_starts hdue⟩
    refine (boxClock_boxTripRetry hdue).trans (boxClock_boxTo_off hoff ?_)
    exact hclock.le.trans (Nat.le_add_right ..)
  case removed =>
    intro hpresent
    exact ⟨_, atPart_runs hk, sledAt_boxSledRemoved ((congrArg Sled.present hsled).trans hpresent)⟩

end Sys2Proof.Proofs

/-! ### The session places (R526) -/
namespace Sys2Proof.Proofs
open Sys2Proof.Machine Sys2Proof.Laws

theorem sessionAt_some {c : Card} {p : Nat} {x : Session} (h : sessionAt c p = some x) : x ∈ c.sessions ∧ x.place = p :=
  ⟨List.mem_of_find?_eq_some h, by simpa using List.find?_some h⟩

/-- With fewer than eight sessions one of the eight places is free: eight taken ones would hold eight sessions. -/
theorem exists_free_place {c : Card} (h : c.sessions.length < 8) : ∃ p ∈ List.range 8, (sessionAt c p).isNone = true := by
  by_contra hnone
  push Not at hnone
  have htaken : List.range 8 ⊆ c.sessions.map Session.place := by
    intro p hp
    obtain ⟨x, hx⟩ := Option.ne_none_iff_exists'.mp (mt Option.isNone_iff_eq_none.mpr (hnone p hp))
    obtain ⟨hmem, hplace⟩ := sessionAt_some hx
    exact List.mem_map.mpr ⟨x, hmem, hplace⟩
  have height := (List.nodup_range.subperm htaken).length_le
  rw [List.length_range, List.length_map] at height
  omega

theorem boxSessionOpen_full {b : Box} (ok : Bool) (addr : Nat) (h : 8 ≤ b.mod.card.sessions.length) : boxSessionOpen ok addr b = b := by
  unfold boxSessionOpen
  exact if_pos (Or.inr h)

/-- One that authenticates while fewer than eight are open takes a free place, last in the card's list. -/
theorem boxSessionOpen_takes {b : Box} (addr : Nat) (hcard : b.mod.card.present = true) (h : b.mod.card.sessions.length < 8) :
    ∃ p < 8, sessionAt b.mod.card p = none ∧ boxSessionOpen true addr b =
      { b with mod := { b.mod with card := { b.mod.card with sessions := b.mod.card.sessions ++ [{ place := p, lastAt := boxClock b }] } } } := by
  cases hfind : (List.range 8).find? (fun p => (sessionAt b.mod.card p).isNone) with
  | none =>
    obtain ⟨p, hp, hfree⟩ := exists_free_place h
    exact absurd hfree (List.find?_eq_none.mp hfind p hp)
  | some p =>
    refine ⟨p, List.mem_range.mp (List.mem_of_find?_eq_some hfind), by simpa using List.find?_some hfind, ?_⟩
    unfold boxSessionOpen
    dsimp only
    rw [if_neg (by simp [hcard, h]), if_neg (by decide), hfind]

/-- A session added at a place stands there. -/
theorem sessionAt_append_isSome (c : Card) (x : Session) : (sessionAt { c with sessions := c.sessions ++ [x] } x.place).isSome = true :=
  List.find?_isSome.mpr ⟨x, List.mem_append_right _ (List.mem_singleton.mpr rfl), decide_eq_true rfl⟩

theorem sessionAt_sessionEnd (p : Nat) (c : Card) : sessionAt (sessionEnd p c) p = none := by
  refine List.find?_eq_none.mpr fun x hx => ?_
  obtain ⟨-, hplace⟩ := List.mem_filter.mp hx
  simpa using hplace

/-- The card once it has answered `BUSY` to a request of session p. -/
def busyCard (p cmd id : Nat) (force : Bool) (b : Box) : Card :=
  answerNow (boxClock b) (chanNs b.chan) p 0 cmd id stBusy force (sessionUpd b.mod.card p (fun s => { s with lastAt := boxClock b }))

/-- A request of a session that may not wait goes no further than the answer `BUSY`. -/
theorem askChan_full {b : Box} {p : Nat} (cmd id : Nat) (force : Bool) (run : Chan → Chan × Reply) (hcard : b.mod.card.present = true)
    (hopen : (sessionAt b.mod.card p).isSome = true) (hfull : sessionFull p b.mod.card = true) :
    askChan p cmd id force run b = pumpBox { b with mod := { b.mod with card := busyCard p cmd id force b } } := by
  obtain ⟨x, hx⟩ := Option.isSome_iff_exists.mp hopen
  have hfull' : sessionFull p (sessionUpd b.mod.card p (fun s => { s with lastAt := boxClock b })) = true := hfull
  unfold askChan busyCard
  simp only [hcard, hx, hfull', Bool.not_true, Bool.false_eq_true, if_false, if_true]

/-- An answer given at once stands in what its session was sent. -/
theorem answerNow_sent {c : Card} {p : Nat} (now ns target cmd id status : Nat) (force : Bool) (hopen : ∃ x ∈ c.sessions, x.place = p) :
    ∃ x ∈ (answerNow now ns p target cmd id status force c).sessions, x.place = p ∧
      ∃ m ∈ x.out, m.kind = 1 ∧ m.cmd = cmd ∧ m.id = id ∧ m.status = status := by
  obtain ⟨x, hx, rfl⟩ := hopen
  refine ⟨_, List.mem_map_of_mem hx, ?_⟩
  rw [if_pos rfl]
  exact ⟨rfl, _, List.mem_append_right _ (List.mem_singleton.mpr rfl), rfl, rfl, rfl, rfl⟩

/-- Settles O55: the eight places bound the sessions, and a request past the sixteenth meets `BUSY`, which stays while the card takes answers. -/
theorem sessionsAreLimited : Obligations.SessionsAreLimited := by
  unfold Obligations.SessionsAreLimited
  intro s hcard
  refine ⟨?turnedAway, ?taken, ?closed, ?busy⟩
  case turnedAway =>
    intro ok addr hfull
    exact (boxDo_with _ s).trans (congrArg (fun b => Host.Outcome.next (s.withBox b)) (boxSessionOpen_full ok addr hfull))
  case taken =>
    intro addr hroom
    obtain ⟨p, hp, hfree, hopen⟩ := boxSessionOpen_takes addr hcard hroom
    refine ⟨_, p, (boxDo_with _ s).trans (congrArg (fun b => Host.Outcome.next (s.withBox b)) hopen), hp, hfree,
      sessionAt_append_isSome s.box.mod.card { place := p, lastAt := boxClock s.box }, ?_, rfl⟩
    exact List.length_append
  case closed =>
    intro p _
    exact ⟨_, boxDo_with _ s, rfl, rfl, sessionAt_sessionEnd p s.box.mod.card⟩
  case busy =>
    intro p cmd id force run hopen hfull
    obtain ⟨x, hx⟩ := Option.isSome_iff_exists.mp hopen
    obtain ⟨hmem, hplace⟩ := sessionAt_some hx
    have htouched : ∃ y ∈ (sessionUpd s.box.mod.card p (fun s' => { s' with lastAt := boxClock s.box })).sessions, y.place = p :=
      ⟨_, List.mem_map_of_mem hmem, by rw [if_pos hplace]; exact hplace⟩
    obtain ⟨y, hy, hyplace, m, hm, hsent⟩ := answerNow_sent (boxClock s.box) (chanNs s.box.chan) 0 cmd id stBusy force htouched
    dsimp only
    rw [askChan_full cmd id force run hcard hopen hfull]
    obtain ⟨z, hz, hzplace, hkept⟩ := pumpBox_kept { s.box with mod := { s.box.mod with card := busyCard p cmd id force s.box } } y hy
    exact ⟨pumpBox_chan _, z, hz, hzplace.trans hyplace, m, hkept m hm, hsent⟩

end Sys2Proof.Proofs
